-- ==== Sys2Proof/Word.lean ====
section
/-! DEFINITION. Word types of the EB-7240 model and the data types that commands carry from outside
(pin levels, packets, measured voltages, upsets). R7 fixes byte order and bit numbering. -/

namespace Sys2Proof

/-- One byte (R7). -/
abbrev Byte := BitVec 8
/-- A web position: a 48-bit counter value (R9, R14). -/
abbrev Pos := BitVec 48
/-- A line sequence number, 40 bits (R19). -/
abbrev LineSeq := BitVec 40
/-- A window tag (R304). -/
abbrev Tag := BitVec 64
/-- A bolt address, Y × 256 + X, bit 15 broadcast (R128). -/
abbrev Addr := BitVec 16
/-- A decoder, 0 for ENC0 and 1 for ENC1 (R9). -/
abbrev DecId := Fin 2
/-- An intake port, 0 to 3 for CSI_A to CSI_D (R140). -/
abbrev CsiId := Fin 4
/-- A seam port: 0 E, 1 W, 2 N, 3 S (R354). -/
abbrev SeamId := Fin 4
/-- A panel, 0 to 15 (R195). -/
abbrev PanelId := Fin 16
/-- A sequencer: 0 to 15 a panel's, 16 the control sequencer (R227, SIGK target). -/
abbrev UnitId := Fin 17
/-- A compute-in-memory array, numbered as in status cause 0x08: 0 to 7 the sentinel macros,
8 + 2 × panel + lattice the lattices (R327). -/
abbrev ArrayId := Fin 40
/-- A marker output MK[7:0] (R346). -/
abbrev MarkerId := Fin 8

/-- A level that a pin takes, and for how many ns it keeps it (R11). -/
structure PinLevel where
  high : Bool
  heldNs : Nat
  deriving DecidableEq, Repr, Inhabited

/-- A long packet as a port receives it (R140, R150, R152): the four header bytes, the first in bits 7:0 (data identifier,
word count, header ECC), the payload, and the CRC-16 of its footer. A word count of 0 also stands for a line start and line
end with no long packet between them (R150). -/
structure LongPacket where
  header : BitVec 32
  payload : List Byte
  crc : BitVec 16
  deriving DecidableEq, Repr, Inhabited

/-- A short packet as a port receives it (R140, R145): the port, and the four header bytes, the first in bits 7:0 (data
identifier, 16-bit data field, header ECC). -/
structure CsiShort where
  port : CsiId
  header : BitVec 32
  deriving DecidableEq, Repr, Inhabited

/-- Where an upset strikes (R196, R262, R271). -/
inductive Store where
  | scratch | commons | hbm
  deriving DecidableEq, Repr, Inhabited

/-- A physical upset of stored data that a read meets: the bits of `flip` change in the byte at
`addr`. It is the environment's; the protections of R196, R262 and R271 decide what is detected. -/
structure Upset where
  store : Store
  addr : Nat
  flip : Byte
  deriving DecidableEq, Repr, Inhabited

/-- The fields of the flash's SFDP tables and registers that admission step 2 reads (R101, R104):
`bfpt` and `bait` hold the DWORDs of the two tables, DWORD 1 first. -/
structure FlashId where
  responds : Bool
  signature : BitVec 32
  hasBfpt : Bool
  hasBait : Bool
  bfpt : List (BitVec 32)
  bait : List (BitVec 32)
  jedec : BitVec 24
  qe : Bool
  deriving DecidableEq, Repr, Inhabited

/-- What the outside gives the device while an admission step runs: the pin voltages of the two
level passes in µV (LVL_REF first, then LVL_A to LVL_J; R40, R41), the samples of TEST_N and
BOOT_HOLD at the end of pass 2 (R57, R58), VDDIO_FL in mV (R55), the flash (R75), a flash read
timeout or controller error (R75, R105), whether HBM trains, and whether the read-back of the loaded data
is free of uncorrectable ECC errors (R86). -/
structure StepInput where
  pass1 : List Nat
  pass2 : List Nat
  testN : Bool
  bootHold : Bool
  vddioMv : Nat
  flash : FlashId
  flashError : Bool
  hbmTrains : Bool
  hbmReadsBack : Bool
  deriving DecidableEq, Repr, Inhabited

/-- The margin that the critical-path monitors read (R458). -/
inductive Margin where
  | above | between | below
  deriving DecidableEq, Repr, Inhabited

/-- One 64-byte flit as it arrives, byte 0 first (R361). -/
abbrev Flit := List Byte

end Sys2Proof
end

