-- ==== Sys2Proof/Syntax.lean ====
section
/-! DEFINITION. The commands of the EB-7240 block, one constructor per row of the table of operations
and events, with what each carries from outside. -/

namespace Sys2Proof

/-- The steps of the part. Each is whole and indivisible. -/
inductive Instr where
  /-- R9. A legal quadrature transition on A or B adds or subtracts one count of the decoder's 48-bit position counter, modulo 2^48. The new levels of A and B after the edge, with the time each is kept (R11). -/
  | encoderEdge (d : DecId) (a b : PinLevel)
  /-- R16. After 65,536 counts of the position source, the other decoder's movement is compared with the expected ratio k/256 and a new span begins. -/
  | crossCheckSpan
  /-- R17. A rising edge of ENCn_Z latches counter n as its last-index position and checks the index-to-index distance against N. The decoder and the width of the Z pulse in ns. -/
  | indexPulse (d : DecId) (widthNs : Nat)
  /-- R26. At the end of each 1 ms window, the count and line rates are compared with C_max and L_max, and RATE_RISK and over-rate STATUS records are updated. -/
  | rateWindow
  /-- R28. When no counting edge has come for the stop interval S, the device enters the web-stopped state and forms a STATUS record. -/
  | webStopped
  /-- R28. When the position has moved R counts from its value at entry, the web-stopped state ends, a STATUS record forms and the encoder-motion wake is raised. -/
  | webMoving
  /-- R23. When the position reaches p_e + H with the window still open, the window is closed UNEXAMINED with cause horizon, or slack when held. The window's tag. -/
  | horizonClosure (tag : Tag)
  /-- R346. A pending fire asserts its marker within 40 ns of the forward count that reaches its target. The marker; its oldest fire whose target count has come. -/
  | markerFire (m : MarkerId)
  /-- R346. At the end of the pulse width, the device releases the fire and forms a MARK record with sub-code 1. The marker; its oldest fire within its pulse. -/
  | markerPulseEnd (m : MarkerId)
  /-- R345. Within 4 µs of a closing record, each fire it calls for is made pending, fired at once, missed or dropped. -/
  | fireArm
  /-- R69. PORST_N resets the whole device, including clearing the thimble's counters, timebase, SRAM and vote ledger. -/
  | porstAssert
  /-- R69. RST_N resets everything outside the thimble and records the reset-pin cause. -/
  | rstAssert
  /-- R35. When PORST_N and RST_N are both high again, the device starts admission at step 1 with only flash and preserved thimble state surviving. TEST_N as sampled at the reset exit (R57) and the junction reading in 1/16 °C (R461). -/
  | resetExit (testN : Bool) (junction : Int)
  /-- R58. Once BOOT_HOLD has been high for 10 ms during the wait, the device drives FL_CS_N high and proceeds to admission step 2. -/
  | bootHoldRelease
  /-- R74. The PLL reports lock, and the clients waiting on it switch from FRC to the PLL. -/
  | pllLock
  /-- R74. If the PLL has not locked 1 ms after the request, admission refuses with code 0x3A, subcause clock. -/
  | pllLockTimeout
  /-- R93. A device not included 0.5 s after step 12 began raises READY in selvage mode with reason 9. -/
  | formationTimeout
  /-- R70. A monitored supply leaving its range while READY is high acts as RST_N until the supplies have been back in range for 1 ms. 0 VDD_CORE, 1 VDD_PHY, 2 VDD_HBM, 3 VDDIO_FL (R453). -/
  | supplyFault (supply : Fin 4)
  /-- R462. An always-on overload above the regulator limit for 10 µs acts as PORST_N, clearing the counters. -/
  | brownOut
  /-- R66. The blink timers step the STAT[3:0] indications, including the refusal-code groups. -/
  | statBlinkTimer
  /-- R105. The flash reports not busy after a page program or block erase, and the commit continues. Whether the part's read-back or answer shows an error (R139). -/
  | flashOperationDone (error : Bool)
  /-- R105. A program busy beyond 5 ms or an erase busy beyond 3 s counts as a flash controller error and the commit fails. -/
  | flashBusyTimeout
  /-- R145. A CSI-2 frame-start packet on a port starts a new frame for line pairing and may close incomplete lines. The port and the four header bytes of the packet (R140), the frame number its data field. -/
  | frameStart (c : CsiId) (header : BitVec 32)
  /-- R147. A frame-end packet closes a port's frame, and the line counts are compared for realignment. The port and the header of the packet. -/
  | frameEnd (x : CsiShort)
  /-- R20. A line-start short packet gives the stamp instant of the line, stamped from the position-source counter. The port and the header of the packet. -/
  | lineStartPacket (x : CsiShort)
  /-- R150. A long packet on a port is classified by width and checks, stored and flat-fielded as a line part, and may complete or refuse an assembled line. The port, the packet and the upsets met in the flat-field sets (R437). -/
  | longPacket (c : CsiId) (k : LongPacket) (u : List Upset)
  /-- R141. A packet of another virtual channel or type, or a generic short packet, is counted and ignored. The port. -/
  | ignoredPacket (c : CsiId)
  /-- R146. A line not complete 4/L_max after its first part arrived is closed incomplete as damaged, port missing. -/
  | lineAssemblyTimeout
  /-- R164. An assembled line and its descriptor become readable in the bobbin, overwriting the oldest line and sending halo lines. -/
  | lineJournaled
  /-- R471. No byte-clock edge for 2 µs during a burst discards the part in progress and closes its line incomplete. The port. -/
  | csiClockLoss (c : CsiId)
  /-- R191. The sentinel delivers a swath's patch verdicts and flags its lines screened; windows form with BASTE records and are admitted or refused for density. -/
  | swathScreened
  /-- R183. After each block of 256 active phases, the array's drift tracker updates d_o and d_g and may report drift or out of trim. The array. -/
  | driftTrackerBlock (x : ArrayId)
  /-- R192. Every 10 ms, watch screens one decimated line and may raise the sentinel-watch wake. The pixels of the first complete line after the tick on the watch port. -/
  | watchTick (pixels : List Nat)
  /-- R90. At the end of the calibration window on a cold start, fresh trims are switched in at a swath boundary and a record commit is made. -/
  | calibrationWindowEnd
  /-- R295. When the position reaches P_f, counting closes and every built activation and history table is built and frozen. -/
  | tableFreeze
  /-- R302. Every 1 ms each stored table's CRC is checked, and a mismatch forms a FAULT record and asserts FAULT_N. Tensor ids of the tables whose stored bits an upset has changed. -/
  | tableCrcCheck (damaged : List Nat)
  /-- R242. NOP keeps the sequencer busy for n + 1 cycles. The sequencer. -/
  | nop (q : UnitId)
  /-- R228. LOADT moves a tile from scratch, the commons or the bobbin into scratch or an operand file, expanding it if compressed. The panel, and the upsets its reads meet. -/
  | loadt (p : PanelId) (u : List Upset)
  /-- R228. STORET moves a tile from scratch to scratch or the commons, encoding it if the destination is fixed-rate. The panel, and the upsets its reads meet. -/
  | storet (p : PanelId) (u : List Upset)
  /-- R230. STREAMW streams an HBM range as a miss, hit or joined fill into scratch or an operand file. The panel, and the upsets its reads meet. -/
  | streamw (p : PanelId) (u : List Upset)
  /-- R234. DRAIN moves one accumulator bank to VQ or to a quad-striped scratch tile. The panel, and the upsets its reads meet. -/
  | drain (p : PanelId) (u : List Upset)
  /-- R232. MM runs one output tile on one MAC array into a selected accumulator bank. The panel, and the upsets its reads meet. -/
  | mm (p : PanelId) (u : List Upset)
  /-- R235. CIMV streams input vectors through a lattice and writes INT32 column results to scratch. The panel, and the upsets its reads meet. -/
  | cimv (p : PanelId) (u : List Upset)
  /-- R217. VADD performs an elementwise add in the integer or float class. The panel, and the upsets its reads meet. -/
  | vadd (p : PanelId) (u : List Upset)
  /-- R217. VSUB performs an elementwise subtract. The panel, and the upsets its reads meet. -/
  | vsub (p : PanelId) (u : List Upset)
  /-- R217. VMUL performs an elementwise multiply. The panel, and the upsets its reads meet. -/
  | vmul (p : PanelId) (u : List Upset)
  /-- R217. VMAX takes the elementwise maximum. The panel, and the upsets its reads meet. -/
  | vmax (p : PanelId) (u : List Upset)
  /-- R217. VMIN takes the elementwise minimum. The panel, and the upsets its reads meet. -/
  | vmin (p : PanelId) (u : List Upset)
  /-- R217. VABS takes the elementwise absolute value. The panel, and the upsets its reads meet. -/
  | vabs (p : PanelId) (u : List Upset)
  /-- R217. VNEG takes the elementwise negation. The panel, and the upsets its reads meet. -/
  | vneg (p : PanelId) (u : List Upset)
  /-- R213. VCVT converts elements between formats. The panel, and the upsets its reads meet. -/
  | vcvt (p : PanelId) (u : List Upset)
  /-- R218. VREQ requantises elements with multiplier, shift and zero-point entries. The panel, and the upsets its reads meet. -/
  | vreq (p : PanelId) (u : List Upset)
  /-- R221. VLUT looks each 8-bit input up in a 256-entry table. The panel, and the upsets its reads meet. -/
  | vlut (p : PanelId) (u : List Upset)
  /-- R219. VEXP2 computes 2^x rounded once to FP32. The panel, and the upsets its reads meet. -/
  | vexp2 (p : PanelId) (u : List Upset)
  /-- R219. VLOG2 computes log2 rounded once to FP32. The panel, and the upsets its reads meet. -/
  | vlog2 (p : PanelId) (u : List Upset)
  /-- R219. VRCP computes the reciprocal. The panel, and the upsets its reads meet. -/
  | vrcp (p : PanelId) (u : List Upset)
  /-- R219. VSQRT computes the square root. The panel, and the upsets its reads meet. -/
  | vsqrt (p : PanelId) (u : List Upset)
  /-- R219. VRSQRT computes the reciprocal square root. The panel, and the upsets its reads meet. -/
  | vrsqrt (p : PanelId) (u : List Upset)
  /-- R219. VDIV divides elementwise. The panel, and the upsets its reads meet. -/
  | vdiv (p : PanelId) (u : List Upset)
  /-- R220. VEXP computes e^x by the fixed sequence. The panel, and the upsets its reads meet. -/
  | vexp (p : PanelId) (u : List Upset)
  /-- R220. VSIG computes the sigmoid by the fixed sequence. The panel, and the upsets its reads meet. -/
  | vsig (p : PanelId) (u : List Upset)
  /-- R220. VTANH computes tanh by the fixed sequence. The panel, and the upsets its reads meet. -/
  | vtanh (p : PanelId) (u : List Upset)
  /-- R220. VGELU computes GELU by the fixed sequence. The panel, and the upsets its reads meet. -/
  | vgelu (p : PanelId) (u : List Upset)
  /-- R220. VSILU computes SiLU by the fixed sequence. The panel, and the upsets its reads meet. -/
  | vsilu (p : PanelId) (u : List Upset)
  /-- R220. VRELU computes ReLU. The panel, and the upsets its reads meet. -/
  | vrelu (p : PanelId) (u : List Upset)
  /-- R220. VLEAKY computes leaky ReLU with slope α. The panel, and the upsets its reads meet. -/
  | vleaky (p : PanelId) (u : List Upset)
  /-- R222. VSUMR reduces rows by a fixed pairwise-tree sum. The panel, and the upsets its reads meet. -/
  | vsumr (p : PanelId) (u : List Upset)
  /-- R222. VMAXR reduces rows by a fixed pairwise-tree maximum. The panel, and the upsets its reads meet. -/
  | vmaxr (p : PanelId) (u : List Upset)
  /-- R223. VSMAX computes a row softmax. The panel, and the upsets its reads meet. -/
  | vsmax (p : PanelId) (u : List Upset)
  /-- R223. VNORM computes a row normalisation with γ, β and ε. The panel, and the upsets its reads meet. -/
  | vnorm (p : PanelId) (u : List Upset)
  /-- R226. LOOP pushes a loop level whose body runs n times. The sequencer. -/
  | loop (q : UnitId)
  /-- R240. SIGK sends a token increment to a panel or to the control sequencer. The sequencer. -/
  | sigk (q : UnitId)
  /-- R240. A token increment reaches its counter 8 cycles after its SIGK. The counter's sequencer; its oldest increment in flight. -/
  | tokenArrival (q : UnitId)
  /-- R240. WAITK issues once its token counter reaches the count, then subtracts the count. The sequencer. -/
  | waitk (q : UnitId)
  /-- R239. COMBINE contributes a partial tile to a fixed-order reduction tree in the commons. The panel, and the upsets its reads meet. -/
  | combine (p : PanelId) (u : List Upset)
  /-- R239. The tree adds all contributions and writes the result tile. The tree id. -/
  | combineTreeComplete (tree : Fin 16)
  /-- R231. PIN reserves the lowest free stream lines for an HBM range, marked unfilled. The panel. -/
  | pin (p : PanelId)
  /-- R231. FREE releases a pinned range's stream lines. The panel. -/
  | free (p : PanelId)
  /-- R230. A fill of a pinned range completes in the commons, and joined STREAMWs complete. The upsets met in HBM by the oldest fill. -/
  | streamFillComplete (u : List Upset)
  /-- R241. VOTE registers an on-vote for a power domain. The sequencer. -/
  | vote (q : UnitId)
  /-- R241. UNVOTE withdraws an on-vote for a power domain. The sequencer. -/
  | unvote (q : UnitId)
  /-- R243. SLOT takes the lowest-ordinal ready (or replay-ready) window and runs its body, or skips and clock-gates. The panel. -/
  | slot (p : PanelId)
  /-- R313. At t_s + C, the instance's closing record forms from its verdict and read findings, or the window is held for replay. The panel whose slot span ends. -/
  | slotSpanEnd (p : PanelId)
  /-- R314. VERDICT passes verdict words to the event unit to stitch or unpick the window, with any history contribution. The panel, and the upsets its reads meet. -/
  | verdict (p : PanelId) (u : List Upset)
  /-- R242. HALT completes at the latest earlier E and stops the sequencer, starting any pending control entry point. The sequencer. -/
  | halt (q : UnitId)
  /-- R251. PLLSW requests the PLL and switches the control sequencer to it at lock. -/
  | pllsw
  /-- R251. WAITE waits until a selected control event has occurred. -/
  | waite
  /-- R480. STAGE copies commons bytes into the staging area as a record field value. The upsets met in the commons. -/
  | stage (u : List Upset)
  /-- R481. COMMIT starts a record commit of the staged and live fields. -/
  | commit
  /-- R323. The history engine completes a window's view fill, making the window ready or replay-ready. The window and the upsets met in the history stores. -/
  | viewFillComplete (tag : Tag) (u : List Upset)
  /-- R310. Once every panel of a voted-on serving group is on, all its sequencers start at instruction 0. The serving group. -/
  | spanStart (g : Nat)
  /-- R310. After the group's hysteresis with no window pending, the span ends, its pins are freed and its votes withdrawn. The serving group. -/
  | spanEnd (g : Nat)
  /-- R321. When the position reaches a segment's start + L_seg + D_max + A, the segment is encoded, stored and pushed to neighbours. The segment's start (R320). -/
  | segmentSeal (start : Pos)
  /-- R321. At start + K × C_roll, a segment or copy expires and the home sends eviction notices. The segment's start. -/
  | segmentExpiry (start : Pos)
  /-- R410. At expiry + G the home drops the segment, and later reads are answered GONE. The segment's start. -/
  | homeSegmentDrop (start : Pos)
  /-- R337. Command 0x0B returns up to n unacknowledged records in ticket order, with a CRC. The address byte and n. -/
  | readEvents (station n : Byte)
  /-- R338. Command 0x0E releases returned records with tickets before T_end. The address byte and T_end. -/
  | acknowledgeAndDrain (station : Byte) (tEnd : BitVec 16)
  /-- R343. Command 0x05 returns a status page copied whole. The address byte and the page. -/
  | readStatus (station page : Byte)
  /-- R342. Command 0x9F returns the 32-byte identity block. The address byte. -/
  | identity (station : Byte)
  /-- R341. Command 0x21 returns bits 23:0 of the position and loads the high-half latch. The address byte. -/
  | livePositionLowHalf (station : Byte)
  /-- R341. Command 0x22 returns the high-half latch. The address byte. -/
  | livePositionHighHalf (station : Byte)
  /-- R341. Command 0x23 returns the full position, timestamp and flags with a CRC. The address byte. -/
  | atomicPositionSnapshot (station : Byte)
  /-- R339. EVT_CS_N rising before a transaction's last byte leaves only the effects R339 permits. The whole bytes the host sent, how many bits of a further byte it sent, and how many response bytes it clocked out whole. -/
  | transactionCutShort (sent : List Byte) (lastBits clocked : Nat)
  /-- R516. Once the event domain is on, records held in the thimble enter the queue in cause order. -/
  | heldRecordEntry
  /-- R357. Signal detected on all four lanes moves a port from DETECT to LOCK, or raises the seam wake. The port. -/
  | linkSignalDetect (q : SeamId)
  /-- R358. Every lane reaches 64 valid sync headers after any polarity inversion, and the port enters IDENTIFY. The port and the lanes whose polarity is inverted. -/
  | laneLock (q : SeamId) (inverted : BitVec 4)
  /-- R358. TRAIN blocks give one lane map and partner port, accepted or failed with cause 2 or 3. The port, the lane numbers read on receive lanes 0 to 3, and the partner's port field. -/
  | laneIdentify (q : SeamId) (lanes : List Nat) (partner : Fin 4)
  /-- R357. The lanes are aligned on one ALIGN pair, and the port enters MEASURE. The port and the skew found, in ps. -/
  | laneDeskew (q : SeamId) (skewPs : Nat)
  /-- R359. Sixteen round trips give ρ, which fails training with cause 4 if above 600 ns. The port and the sixteen round trips in SEAMCLK cycles. -/
  | roundTripMeasure (q : SeamId) (trips : List Nat)
  /-- R360. The partner's ready bit is seen; the link comes up with sequences, retry buffer and credits reset, and HELLO is sent. The port. -/
  | linkUp (q : SeamId)
  /-- R357. A state or overall training timeout fails the link with cause 1 and restarts it at DETECT. The port. -/
  | trainingTimeout (q : SeamId)
  /-- R368. In each 5.12 ns flit slot, the transmitter sends the highest-priority flit it has. The port. -/
  | flitSlot (q : SeamId)
  /-- R371. A received data flit is accepted in sequence or discarded under NAK, with its acknowledgement and credit fields applied. The port and the flit. -/
  | dataFlit (q : SeamId) (f : Flit)
  /-- R363. A received null flit applies only its acknowledgement, NAK and credit return. The port and the flit. -/
  | nullFlit (q : SeamId) (f : Flit)
  /-- R372. An oldest unacknowledged flit waiting 1 µs causes a go-back. The port. -/
  | retryTimeout (q : SeamId)
  /-- R373. A retry episode that reaches 2 µs, or would need a ninth go-back, fails the link with cause 5. The port. -/
  | retryBudgetExpiry (q : SeamId)
  /-- R377. Link-control code SLEEP requests entry to STANDBY or OFF, and is answered SLEEP_ACK or STAY. The port and the link-control flit. -/
  | sleep (q : SeamId) (f : Flit)
  /-- R377. SLEEP_ACK agrees the shallower target, and both ends drain toward electrical idle. The port and the link-control flit. -/
  | sleepAck (q : SeamId) (f : Flit)
  /-- R377. STAY keeps the requester ACTIVE. The port and the link-control flit. -/
  | stay (q : SeamId) (f : Flit)
  /-- R377. WAKE at an abort point keeps both ends ACTIVE. The port and the link-control flit. -/
  | wake (q : SeamId) (f : Flit)
  /-- R377. With the retry buffer empty and all credits returned, each end enters electrical idle. The port. -/
  | electricalIdleEntry (q : SeamId)
  /-- R379. Sixteen block errors on one lane within 1,024 blocks fail the link with cause 6. The port. -/
  | laneLockLost (q : SeamId)
  /-- R379. Signal lost on any lane while the link is up fails it with cause 7. The port. -/
  | signalLost (q : SeamId)
  /-- R379. Data flits of one VC waiting 100 µs without credit fail the link with cause 8. The port and the VC. -/
  | creditStall (q : SeamId) (vc : Fin 4)
  /-- R380. After 10 µs of electrical idle, the failed link restarts training at DETECT. The port. -/
  | failureIdleEnd (q : SeamId)
  /-- R471. No SEAMCLK edge for 200 ns idles and fails every powered seam port with cause 7. -/
  | seamclkLoss
  /-- R384. A received HELLO is checked to include or exclude the link from the bolt, and anchors the halo offset. The port; the oldest message delivered there (R364, R369). -/
  | hello (q : SeamId)
  /-- R383. HELLO is sent on E/W ports every 65,536 lines, every 4,096 lines while unanchored, or after a realignment. The port. -/
  | helloPeriodic (q : SeamId)
  /-- R389. The master broadcasts a TICK at the first 1 µs boundary after a position change, or 1 ms after its last. -/
  | tickSend
  /-- R392. A received TICK is forwarded and, when usable, aligns β, κ or the follower and counts toward joining. The port; the oldest message delivered there (R364, R369). -/
  | tick (q : SeamId)
  /-- R393. The device inserts or swallows a forward count to absorb the wheel difference κ. -/
  | correctionStep
  /-- R394. A TICK-fed follower counter moves one count toward its target, at most one per 50 ns. -/
  | followerMove
  /-- R395. No usable TICK for 10 ms sends the device to selvage mode with reason 7, and a TICK-fed device loses position. -/
  | tickLoss
  /-- R401. The master broadcasts a latency-sweep start 1 s after READY or after a request. -/
  | latencySweepStart
  /-- R401. A received sweep start makes the device send 256 link probes on each bolt link. The port; the oldest message delivered there (R364, R369). -/
  | latencyStart (q : SeamId)
  /-- R401. Every 4 µs the device sends the next link probe. -/
  | linkProbeSend
  /-- R401. A received link probe is echoed at once. The port; the oldest message delivered there (R364, R369). -/
  | linkProbe (q : SeamId)
  /-- R401. A received echo gives one one-way latency measurement. The port; the oldest message delivered there (R364, R369). -/
  | latencyEcho (q : SeamId)
  /-- R401. 1 ms after the last probe, the device sends its report, incomplete if an echo is missing. -/
  | latencyEchoTimeout
  /-- R401. The master records a device's latency report. The port; the oldest message delivered there (R364, R369). -/
  | latencyReport (q : SeamId)
  /-- R401. 100 ms after the start, the master commits if all reports are complete, and aborts otherwise. -/
  | latencyCollectionEnd
  /-- R402. A received commit sets G and the link means from switch position P_w. The port; the oldest message delivered there (R364, R369). -/
  | latencyCommit (q : SeamId)
  /-- R403. A received abort leaves every previous latency value in force. The port; the oldest message delivered there (R364, R369). -/
  | latencyAbort (q : SeamId)
  /-- R401. A received request makes the master schedule a new latency sweep. The port; the oldest message delivered there (R364, R369). -/
  | latencyRequest (q : SeamId)
  /-- R413. A received calibration-sweep start begins edge sums from P_c over N_c lines. The port; the oldest message delivered there (R364, R369). -/
  | calibrationStart (q : SeamId)
  /-- R413. Once N_c eligible lines are summed, the device computes its factor, or waits for its west factor. -/
  | calibrationSumsDone
  /-- R413. A received west factor yields the device's own F, which it sends east. The port; the oldest message delivered there (R364, R369). -/
  | calibrationFactor (q : SeamId)
  /-- R413. The master records a device's calibration report. The port; the oldest message delivered there (R364, R369). -/
  | calibrationReport (q : SeamId)
  /-- R414. 2 s after the last line of N_c, the master commits if all reports are complete, and aborts otherwise. -/
  | calibrationCollectionEnd
  /-- R414. A received commit applies the new m from the first eligible line at or ahead of P_s. The port; the oldest message delivered there (R364, R369). -/
  | calibrationCommit (q : SeamId)
  /-- R414. A received abort keeps the previous m. The port; the oldest message delivered there (R364, R369). -/
  | calibrationAbort (q : SeamId)
  /-- R414. A received request makes the master restart the calibration sweep. The port; the oldest message delivered there (R364, R369). -/
  | calibrationRequest (q : SeamId)
  /-- R406. A received halo line is written into ring entry s mod depth with its flags. The port; the oldest message delivered there (R364, R369). -/
  | haloLine (q : SeamId)
  /-- R433. A received replay line resolves an awaiting halo entry, or is discarded if the entry is final. The port; the oldest message delivered there (R364, R369). -/
  | replayLine (q : SeamId)
  /-- R435. A relayed event record is forwarded, or entered at the collector with duplicates discarded. The port; the oldest message delivered there (R364, R369). -/
  | eventRecord (q : SeamId)
  /-- R410. A segment read is answered with a reply or with GONE, by read stamp against expiry. The port; the oldest message delivered there (R364, R369). -/
  | segmentRead (q : SeamId)
  /-- R409. A reply or push is encoded and kept as a neighbour copy unless expired or already held. The port; the oldest message delivered there (R364, R369). -/
  | segmentReply (q : SeamId)
  /-- R410. A GONE reply marks the neighbour place absent. The port; the oldest message delivered there (R364, R369). -/
  | gone (q : SeamId)
  /-- R410. A received eviction notice records the segment's expiry. The port; the oldest message delivered there (R364, R369). -/
  | evictionNotice (q : SeamId)
  /-- R430. At a line's halo deadline, a missing ring entry is written awaiting replay or missing. The halo side. -/
  | lineDeadline (east : Bool)
  /-- R424. An uncorrectable HBM word is rebuilt from flash and verified, or fails with 0x23. Whether flash and read-back were good. -/
  | hbmRepairComplete (ok : Bool)
  /-- R425. A stream line with commons parity is refilled from HBM over the back port. -/
  | streamLineRefill
  /-- R443. A domain without an on-vote for its hysteresis goes to retention or off through the entry steps. The domain id (R440). -/
  | hysteresisExpiry (domain : Nat)
  /-- R450. A voted-on domain reaches on within its wake latency. The domain id (R440). -/
  | domainOn (domain : Nat)
  /-- R445. After the rest delay in web-stopped state, the web client withdraws run votes and forms STATUS 0x11. -/
  | restDelayExpiry
  /-- R445. After the deep-rest delay, the web client withdraws the HBM retain-vote and forms STATUS 0x12. -/
  | deepRestDelayExpiry
  /-- R449. A thimble alarm on the wall timebase wakes the domains of its owner. 0 the web client, 1 the record commits (R453). -/
  | timebaseAlarm (owner : Fin 2)
  /-- R272. HBM leaving off is reloaded from the slot and recoded, and a slot change forces readmission. Whether a flash error came during the reload. -/
  | hbmReloadComplete (flashError : Bool)
  /-- R457. VID moves one code per 1 µs toward the code of the target level. -/
  | vidStep
  /-- R462. The always-on regulator reaches normal mode 40 µs after the request. -/
  | regulatorNormalMode
  /-- R462. After the event domain has been off or retained for 1 ms, the regulator returns to low-power mode. -/
  | regulatorLowPower
  /-- R458. Every 10 µs, the adaptive loop reads the critical-path monitors and trims VID. The reading of the critical-path monitors. -/
  | avsSample (m : Margin)
  /-- R459. A junction sample may assert or clear thermal RATE_RISK, start the degraded switch or stop the device. The highest sensor reading in 1/16 °C. -/
  | temperatureSample (t : Int)
  /-- R460. With normal windows closed and panels idle, the clock and VID drop to the degraded level and the degraded groups start. -/
  | degradedSwitchComplete
  /-- R463. Four RC periods without an XT32 edge move the timebase to the RC oscillator with coarse timestamps. -/
  | xt32Fail
  /-- R463. After 32,768 good XT32 cycles, XT32 is verified and STATUS 0x1B forms. -/
  | xt32Verified
  /-- R471. Loss of REFCLK or core PLL lock acts as a supply fault with detail 5. -/
  | refclkLoss
  /-- R471. Loss of HBM PLL lock acts as a supply fault with detail 6. -/
  | hbmPllLoss
  /-- R487. A power fail on VIN_SENSE while armed starts the flush of records and counters. -/
  | powerFail
  /-- R490. Input good for 10 ms during or after a flush leads to a reset exit with cause 0x15. -/
  | inputRestored
  /-- R473. HOLD_V is sampled every 1 ms, or every 10 µs while flushing. HOLD_V and VIN_SENSE in mV, the charge through the sense resistor since the last sample in µC, and the mean discharge current over the last 1 ms in µA. -/
  | holdVSample (mv vinMv : Nat) (dq : Int) (meanUa : Nat)
  /-- R475. HOLD_V at or above 900 mV for 50 ms with input good arms the supervisor. -/
  | holdupArm
  /-- R478. Each 50 ms window refines K and runs the removal checks, possibly declaring the bank absent. -/
  | holdupWindow
  /-- R481. At every 2^20 lines while commits are periodic, a record commit or a counter entry is made. -/
  | periodicCommit
  /-- R35. The rise of VAON_IN powers the thimble, which clears the position counters, drives VID code 15 and treats PORST_N as asserted until the always-on regulator is in regulation. -/
  | vaonInPowerUp
  /-- R72. An admission step ends (level-pin pass 2 at 11.0 ms, flash verification, HBM load, table build, reference sweep, record read), and its checks run and the next step starts. What the outside gave the step that ends. -/
  | admissionStepComplete (x : StepInput)
  /-- R447. A domain's entry steps finish and it reaches retention or off, after which the PLL, FRC and regulator may stop or change mode. The domain id (R440). -/
  | lowStateEntryComplete (domain : Nat)
  /-- R295. Building of the frozen tables ends within n_b × 5 µs, the tables are frozen and the housekeeping votes held for the build are withdrawn. -/
  | tableBuildComplete
  /-- R413. The master broadcasts a calibration-sweep start once the one-minute rate limit allows a start requested earlier. -/
  | calibrationSweepStart
  /-- R413. When the west factor has not arrived 1 s after the device's own sums, the device reports incomplete. -/
  | calibrationFactorTimeout
  /-- R487. At 5 ms after the power fail, flush step 1 ends; at 1 ms, the record commit of step 3 may begin without waiting for the control program to halt. -/
  | flushStepTimeout
  /-- R471. SEAMCLK edges return, and the powered seam ports leave electrical idle and begin training from DETECT. -/
  | seamclkReturn
  /-- R457. 10 µs after the last VID step, the device relies on the new voltage and raises the core clock to the new level. -/
  | vidSettled
  /-- R270. While a panel's stream engine is idle, the HBM controller issues one housekeeping burst for patrol scrub or history spill and refill, rewriting corrected words and counting completed scrub passes. The HBM word (256-bit word number) patrolled, and the upsets met. -/
  | housekeepingBurst (word : Nat) (u : List Upset)
  deriving DecidableEq, Repr

end Sys2Proof
end

