-- ==== Sys2Proof/Machine/Bytes.lean ====
section
/-! DEFINITION. Byte order, bit fields, CRCs and small arithmetic shared by every chapter (R7, R107, R336). -/

namespace Sys2Proof.Machine

/-- R7: the little-endian value of a byte list, its first byte lowest. -/
def leNat : List Byte → Nat
  | [] => 0
  | b :: bs => b.toNat + 256 * leNat bs

/-- R7: a value as n bytes, lowest first. -/
def leBytes : Nat → Nat → List Byte
  | 0, _ => []
  | n + 1, v => BitVec.ofNat 8 v :: leBytes n (v / 256)

/-- The n bytes of a list from an offset; bytes past its end read as 0. -/
def sliceB (bs : List Byte) (off n : Nat) : List Byte :=
  let t := (bs.drop off).take n
  t ++ List.replicate (n - t.length) 0

/-- An unsigned field of n bytes at an offset (R7). -/
def uAt (bs : List Byte) (off n : Nat) : Nat := leNat (sliceB bs off n)

/-- A value of `bits` bits read as two's complement (R7). -/
def signed (bits v : Nat) : Int :=
  if v % 2 ^ bits < 2 ^ (bits - 1) then (v % 2 ^ bits : Nat) else (v % 2 ^ bits : Nat) - 2 ^ bits

/-- A signed field of n bytes at an offset (R7). -/
def sAt (bs : List Byte) (off n : Nat) : Int := signed (8 * n) (uAt bs off n)

/-- An integer as an unsigned value of `bits` bits, two's complement. -/
def unsigned (bits : Nat) (v : Int) : Nat := (v % (2 ^ bits : Nat)).toNat

/-- Bits hi:lo of a value. -/
def field (v hi lo : Nat) : Nat := (v / 2 ^ lo) % 2 ^ (hi + 1 - lo)

/-- Bit i of a value. -/
def bitAt (v i : Nat) : Bool := v / 2 ^ i % 2 == 1

/-- A Bool as 0 or 1. -/
def bit (b : Bool) : Nat := if b then 1 else 0

/-- The ceiling of a quotient. -/
def ceilDiv (a b : Nat) : Nat := (a + b - 1) / b

/-- R7: round to nearest, ties to even, of num / den for a positive den. -/
def rne (num : Int) (den : Nat) : Int :=
  let q := num / (den : Int)
  let r := num - q * den
  if 2 * r < den then q else if 2 * r > den then q + 1 else if q % 2 = 0 then q else q + 1

/-- A value held within [lo, hi]. -/
def clampInt (lo hi v : Int) : Int := if v < lo then lo else if hi < v then hi else v

/-- A counter of `bits` bits that saturates at its maximum (R343). -/
def satAdd (bits v n : Nat) : Nat := min (v + n) (2 ^ bits - 1)

/-- The smallest n with 2ⁿ ≥ v, at most `fuel`. -/
def log2Ceil (v : Nat) : Nat → Nat
  | 0 => 0
  | fuel + 1 => if v ≤ 1 then 0 else 1 + log2Ceil ((v + 1) / 2) fuel

/-- An element of a fixed vector replaced. -/
def Vector.put {α : Type} {n : Nat} (v : Vector α n) (i : Fin n) (x : α) : Vector α n :=
  v.set i.val x i.isLt

/-- An element of a fixed vector changed. -/
def Vector.upd {α : Type} {n : Nat} (v : Vector α n) (i : Fin n) (f : α → α) : Vector α n :=
  v.set i.val (f v[i]) i.isLt

/-- The first element that meets p is changed. -/
def updFirst {α : Type} (p : α → Bool) (f : α → α) : List α → List α
  | [] => []
  | x :: xs => if p x then f x :: xs else x :: updFirst p f xs

/-- The first element that meets p, and the list without it. -/
def takeFirst {α : Type} (p : α → Bool) : List α → Option (α × List α)
  | [] => none
  | x :: xs =>
    if p x then some (x, xs) else (takeFirst p xs).map fun (y, ys) => (y, x :: ys)

/-! ### CRCs -/

/-- One bit step of the reflected CRC-32 of R107. -/
def crc32Bit (c : BitVec 32) : BitVec 32 :=
  if c.getLsbD 0 then (c >>> 1) ^^^ 0xEDB88320#32 else c >>> 1

/-- One byte step of the CRC-32 of R107. -/
def crc32Byte (c : BitVec 32) (b : Byte) : BitVec 32 :=
  crc32Bit (crc32Bit (crc32Bit (crc32Bit (crc32Bit (crc32Bit (crc32Bit (crc32Bit
    (c ^^^ b.setWidth 32))))))))

/-- R107: the IEEE 802.3 CRC-32. -/
def crc32 (bs : List Byte) : BitVec 32 := bs.foldl crc32Byte 0xFFFFFFFF#32 ^^^ 0xFFFFFFFF#32

/-- One bit step of the CRC-16 of R336. -/
def crc16Bit (c : BitVec 16) : BitVec 16 :=
  if c.getLsbD 15 then (c <<< 1) ^^^ 0x1021#16 else c <<< 1

/-- One byte step of the CRC-16 of R336. -/
def crc16Byte (c : BitVec 16) (b : Byte) : BitVec 16 :=
  crc16Bit (crc16Bit (crc16Bit (crc16Bit (crc16Bit (crc16Bit (crc16Bit (crc16Bit
    (c ^^^ (b.setWidth 16 <<< 8)))))))))

/-- R336: CRC-16 with polynomial 0x1021, initial value 0xFFFF, no reflection, no final XOR. -/
def crc16 (bs : List Byte) : BitVec 16 := bs.foldl crc16Byte 0xFFFF#16

/-- One bit step of the payload CRC-16 of R140. -/
def csiCrcBit (c : BitVec 16) : BitVec 16 :=
  if c.getLsbD 0 then (c >>> 1) ^^^ 0x8408#16 else c >>> 1

/-- One byte step of the payload CRC-16 of R140. -/
def csiCrcByte (c : BitVec 16) (b : Byte) : BitVec 16 :=
  csiCrcBit (csiCrcBit (csiCrcBit (csiCrcBit (csiCrcBit (csiCrcBit (csiCrcBit (csiCrcBit
    (c ^^^ b.setWidth 16))))))))

/-- R140: the payload CRC-16 of CSI-2: polynomial 0x1021 reflected, initial value 0xFFFF (log 117). -/
def csiCrc (bs : List Byte) : BitVec 16 := bs.foldl csiCrcByte 0xFFFF#16

end Sys2Proof.Machine
end

