-- ==== Sys2Proof/Machine/Numeric.lean ====
section
/-! DEFINITION. The eleven number formats and the vector unit's arithmetic (R204 to R223): exact values, one rounding
rule, conversions, primitives and activation sequences. -/

namespace Sys2Proof.Machine

/-- An exact value: NaN, an infinity, or (−1)^neg × m × 2^e. -/
inductive Num where
  | nan
  | inf (neg : Bool)
  | fin (neg : Bool) (m : Nat) (e : Int)
  deriving DecidableEq, Repr, Inhabited

/-! ### Formats -/

/-- The format codes of R118. -/
def fmtU8 : Nat := 0
def fmtI4 : Nat := 1
def fmtI8 : Nat := 2
def fmtI16 : Nat := 3
def fmtI32 : Nat := 4
def fmtE4M3 : Nat := 5
def fmtE5M2 : Nat := 6
def fmtFP16 : Nat := 7
def fmtBF16 : Nat := 8
def fmtFP32 : Nat := 9
def fmtBX8 : Nat := 10

/-- R208: an integer format. -/
def fmtInt (f : Nat) : Bool := decide (f ≤ 4)

/-- R208, R209: bits of an element; a BX8 mantissa has 8. -/
def fmtBits (f : Nat) : Nat :=
  if f = 1 then 4 else if f = 3 ∨ f = 7 ∨ f = 8 then 16 else if f = 4 ∨ f = 9 then 32 else 8

/-- R208: the range of an integer format. -/
def fmtRange (f : Nat) : Int × Int :=
  if f = 0 then (0, 255) else (-(2 ^ (fmtBits f - 1) : Nat), (2 ^ (fmtBits f - 1) : Nat) - 1)

/-- R209: exponent bits, mantissa bits and bias of a float format. -/
def fmtFloat (f : Nat) : Nat × Nat × Nat :=
  if f = 5 then (4, 3, 7) else if f = 6 then (5, 2, 15) else if f = 7 then (5, 10, 15)
  else if f = 8 then (8, 7, 127) else (8, 23, 127)

/-- R210: the canonical NaN. -/
def fmtNan (f : Nat) : Nat :=
  if f = 5 then 0x7F else if f = 6 then 0x7E else if f = 7 then 0x7E00 else if f = 8 then 0x7FC0 else 0x7FC00000

/-! ### Rounding -/

/-- An integer as an exact value; zero is +0 (R213). -/
def Num.ofInt (v : Int) : Num := .fin (decide (v < 0)) v.natAbs 0

/-- R212: the nearest integer to num / den, ties to even, or away from zero where the instruction selects it. -/
def roundRat (away : Bool) (num : Int) (den : Nat) : Int :=
  if away then
    let q := (2 * num.natAbs + den) / (2 * den)
    if num < 0 then -(q : Int) else q
  else rne num den

/-- num × 2^e as a fraction with a positive denominator. -/
def scaleRat (m : Nat) (e : Int) : Nat × Nat := if 0 ≤ e then (m * 2 ^ e.toNat, 1) else (m, 2 ^ (-e).toNat)

/-- An exact finite value rounded to an integer (R212). -/
def roundFin (away neg : Bool) (m : Nat) (e : Int) : Int :=
  let (n, d) := scaleRat m e
  roundRat away (if neg then -(n : Int) else n) d

/-- R213: a value converted to an integer format. -/
def toInt (f : Nat) (away : Bool) (v : Num) : Int :=
  let (lo, hi) := fmtRange f
  match v with
  | .nan => 0
  | .inf neg => if neg then lo else hi
  | .fin neg m e => clampInt lo hi (roundFin away neg m e)

/-- The floor of the base-2 logarithm of n/d for positive n and d. -/
def ilog (n d : Nat) : Int :=
  let k : Int := (n.log2 : Int) - d.log2
  let ge : Bool := if 0 ≤ k then decide (d * 2 ^ k.toNat ≤ n) else decide (d ≤ n * 2 ^ (-k).toNat)
  if ge then k else k - 1

/-- R209, R212, R213: the bits of |n/d × 2^e| rounded once to a float format, the sign apart. -/
def roundMag (f n d : Nat) (e : Int) : Nat :=
  if n = 0 then 0
  else
    let (_, mb, bias) := fmtFloat f
    let qmin : Int := 1 - (bias : Int) - mb
    let q : Int := max qmin (ilog n d + e - mb)
    let s := e - q
    let r := if 0 ≤ s then rne (n * 2 ^ s.toNat : Nat) d else rne n (d * 2 ^ (-s).toNat)
    ((q - qmin).toNat) * 2 ^ mb + r.toNat

/-- R209, R210: the bits of the greatest finite magnitude. -/
def fmtMaxMag (f : Nat) : Nat :=
  let (eb, mb, _) := fmtFloat f
  if f = 5 then 0x7E else (2 ^ eb - 1) * 2 ^ mb - 1

/-- R213: a magnitude past the greatest finite one: ±448 in E4M3, otherwise infinity. -/
def overflowMag (f : Nat) : Nat := if f = 5 then 0x7E else fmtMaxMag f + 1

/-- The sign bit of a float format. -/
def signBit (f : Nat) (neg : Bool) : Nat := if neg then 2 ^ (fmtBits f - 1) else 0

/-- A rational (−1)^neg × n/d × 2^e rounded once to a float format (R205, R213). -/
def floatOfRat (f : Nat) (neg : Bool) (n d : Nat) (e : Int) : Nat :=
  let b := roundMag f n d e
  signBit f neg + (if fmtMaxMag f < b then overflowMag f else b)

/-- R213: a value converted to a float format. -/
def toFloat (f : Nat) (v : Num) : Nat :=
  match v with
  | .nan => fmtNan f
  | .inf neg => signBit f neg + overflowMag f
  | .fin neg m e => floatOfRat f neg m 1 e

/-- R208 to R210: the value of the bits of an element of a format other than BX8. -/
def decodeBits (f bits : Nat) : Num :=
  if fmtInt f then
    if f = 0 then Num.ofInt (bits % 256) else Num.ofInt (signed (fmtBits f) bits)
  else
    let (eb, mb, bias) := fmtFloat f
    let neg := bitAt bits (eb + mb)
    let ef := bits / 2 ^ mb % 2 ^ eb
    let m := bits % 2 ^ mb
    if f = 5 ∧ ef = 15 ∧ m = 7 then .nan
    else if f ≠ 5 ∧ ef = 2 ^ eb - 1 then if m = 0 then .inf neg else .nan
    else if ef = 0 then .fin neg m (1 - (bias : Int) - mb)
    else .fin neg (2 ^ mb + m) ((ef : Int) - bias - mb)

/-- R213: the bits of a value in a format other than BX8. -/
def encodeBits (f : Nat) (away : Bool) (v : Num) : Nat :=
  if fmtInt f then unsigned (fmtBits f) (toInt f away v) else toFloat f v

/-! ### BX8 -/

/-- R211: the value of a mantissa byte under a shared exponent. -/
def bx8Value (e : Nat) (b : Byte) : Num :=
  if e = 255 then .nan
  else .fin (decide (b.toInt < 0)) b.toInt.natAbs ((e : Int) - 133)

/-- R214: the mantissa of a value at a shared exponent, before saturation. -/
def bx8Mantissa (e : Nat) (v : Num) : Int :=
  match v with
  | .fin neg m x => roundFin false neg m (x - ((e : Int) - 133))
  | _ => 0

/-- R214: a value is finite. -/
def Num.finite (v : Num) : Bool := match v with
  | .fin _ _ _ => true
  | _ => false

/-- R214: a block of values as the 33 bytes of R211. -/
def bx8Encode (vs : List Num) : List Byte :=
  if vs.any (fun v => !v.finite) then 255#8 :: List.replicate vs.length 0
  else
    let fits (e : Nat) : Bool :=
      vs.all fun v => let m := bx8Mantissa e v; decide (-128 ≤ m) && decide (m ≤ 127)
    let e := ((List.range 255).find? fits).getD 254
    BitVec.ofNat 8 e :: vs.map fun v => BitVec.ofInt 8 (clampInt (-128) 127 (bx8Mantissa e v))

/-! ### Exact sums and products -/

/-- The signed integer of a finite value at an exponent no greater than its own. -/
def alignTo (neg : Bool) (m : Nat) (e t : Int) : Int :=
  let v : Nat := m * 2 ^ (e - t).toNat
  if neg then -(v : Int) else v

/-- R205: an exact product. -/
def Num.mul (a b : Num) : Num :=
  match a, b with
  | .nan, _ => .nan
  | _, .nan => .nan
  | .inf s, .inf t => .inf (s != t)
  | .inf s, .fin t m _ => if m = 0 then .nan else .inf (s != t)
  | .fin t m _, .inf s => if m = 0 then .nan else .inf (s != t)
  | .fin s m x, .fin t n y => .fin (s != t) (m * n) (x + y)

/-- R205: an exact sum; an exact zero is −0 only when both terms are −0. -/
def Num.add (a b : Num) : Num :=
  match a, b with
  | .nan, _ => .nan
  | _, .nan => .nan
  | .inf s, .inf t => if s == t then .inf s else .nan
  | .inf s, .fin _ _ _ => .inf s
  | .fin _ _ _, .inf t => .inf t
  | .fin s m x, .fin t n y =>
    let e := min x y
    let v := alignTo s m x e + alignTo t n y e
    if v = 0 then .fin (s && t) 0 e else .fin (decide (v < 0)) v.natAbs e

/-- The sign changed. -/
def Num.neg (a : Num) : Num := match a with
  | .nan => .nan
  | .inf s => .inf (!s)
  | .fin s m e => .fin (!s) m e

/-- The sign cleared. -/
def Num.abs (a : Num) : Num := match a with
  | .nan => .nan
  | .inf _ => .inf false
  | .fin _ m e => .fin false m e

/-- Zero of either sign. -/
def Num.isZero (a : Num) : Bool := match a with
  | .fin _ m _ => m == 0
  | _ => false

/-- Below zero, false for NaN and zeros. -/
def Num.negative (a : Num) : Bool := match a with
  | .nan => false
  | .inf s => s
  | .fin s m _ => s && m != 0

/-- a < b on the ordered values, with −0 before +0 (R217); false where either is NaN. -/
def Num.lt (a b : Num) : Bool :=
  match a, b with
  | .nan, _ => false
  | _, .nan => false
  | .inf s, .inf t => s && !t
  | .inf s, .fin _ _ _ => s
  | .fin _ _ _, .inf t => !t
  | .fin s m x, .fin t n y =>
    let e := min x y
    let u := alignTo s m x e
    let v := alignTo t n y e
    if u = v then m == 0 && n == 0 && s && !t else decide (u < v)

/-! ### FP32 words -/

/-- An FP32 word. -/
abbrev F32 := BitVec 32

/-- R209, R210: the value of an FP32 word. -/
def fval (w : F32) : Num := decodeBits 9 w.toNat

/-- R205, R213: a value rounded once to FP32. -/
def fround (v : Num) : F32 := BitVec.ofNat 32 (toFloat 9 v)

/-- R217: ADD, SUB and MUL of the float class. -/
def fadd (a b : F32) : F32 := fround ((fval a).add (fval b))
def fsub (a b : F32) : F32 := fround ((fval a).add (fval b).neg)
def fmul (a b : F32) : F32 := fround ((fval a).mul (fval b))

/-- R217: MAX and MIN; NaN if either operand is NaN. -/
def fmax (a b : F32) : F32 :=
  match fval a, fval b with
  | .nan, _ => fround .nan
  | _, .nan => fround .nan
  | x, y => fround (if x.lt y then y else x)
def fmin (a b : F32) : F32 :=
  match fval a, fval b with
  | .nan, _ => fround .nan
  | _, .nan => fround .nan
  | x, y => fround (if y.lt x then y else x)

/-- R217: ABS and NEG. -/
def fabs (a : F32) : F32 := fround (fval a).abs
def fneg (a : F32) : F32 := fround (fval a).neg

/-- R219: DIV, by IEEE 754. -/
def fdiv (a b : F32) : F32 :=
  match fval a, fval b with
  | .nan, _ => fround .nan
  | _, .nan => fround .nan
  | .inf _, .inf _ => fround .nan
  | .inf s, .fin t _ _ => fround (.inf (s != t))
  | .fin s _ _, .inf t => fround (.fin (s != t) 0 0)
  | .fin s m x, .fin t n y =>
    if n = 0 then if m = 0 then fround .nan else fround (.inf (s != t))
    else BitVec.ofNat 32 (floatOfRat 9 (s != t) m n (x - y))

/-- The FP32 word of 1.0. -/
def fone : F32 := 0x3F800000#32

/-- R219: RCP. -/
def frcp (a : F32) : F32 := fdiv fone a

/-- The integer square root of n, by its bits from bit k down, above r. -/
def isqrt (n : Nat) : Nat → Nat → Nat
  | 0, r => r
  | k + 1, r => let t := r + 2 ^ k; isqrt n k (if t * t ≤ n then t else r)

/-- A square root of the rational n/d × 2^e as an FP32 word: 64 bits of root and a sticky bit decide the rounding. -/
def rootRat (n d : Nat) (e : Int) : F32 :=
  let odd := e % 2 ≠ 0
  let n := if odd then 2 * n else n
  let e := if odd then e - 1 else e
  let sh := 128 + 2 * d.log2
  let q := n * 2 ^ sh / d
  let r := isqrt q (q.log2 / 2 + 1) 0
  let sticky := if r * r * d = n * 2 ^ sh then 0 else 1
  BitVec.ofNat 32 (floatOfRat 9 false (2 * r + sticky) 1 (e / 2 - (sh / 2 : Nat) - 1))

/-- R219: SQRT: NaN below zero, ±0 to itself. -/
def fsqrt (a : F32) : F32 :=
  match fval a with
  | .nan => fround .nan
  | .inf s => if s then fround .nan else a
  | .fin s m e => if m = 0 then a else if s then fround .nan else rootRat m 1 e

/-- R219: RSQRT: ±infinity at ±0, NaN below zero. -/
def frsqrt (a : F32) : F32 :=
  match fval a with
  | .nan => fround .nan
  | .inf s => if s then fround .nan else fround (.fin false 0 0)
  | .fin s m e => if m = 0 then fround (.inf s) else if s then fround .nan else rootRat 1 m (-e)

/-! ### EXP2 and LOG2 (log 23) -/

/-- Bits of the fixed-point fractions below. -/
def fixBits : Nat := 160

/-- ln 2 × 2^160, rounded down: the sum of 1/(k × 2^k). -/
def ln2Fix : Nat := ((List.range 170).map fun k => 2 ^ fixBits / ((k + 1) * 2 ^ (k + 1))).sum

/-- e^x for a fraction x < 1 in units of 2^−160: terms of the series, from one term. -/
def expTerms (x : Nat) : Nat → Nat → Nat → Nat
  | 0, _, _ => 0
  | fuel + 1, k, t => if t = 0 then 0 else t + expTerms x fuel (k + 1) (t * x / 2 ^ fixBits / (k + 1))

/-- 2^f for a fraction f in units of 2^−160, in the same units. -/
def exp2Frac (f : Nat) : Nat :=
  expTerms (f * ln2Fix / 2 ^ fixBits) 60 0 (2 ^ fixBits)

/-- R219: EXP2, the exact 2^x rounded once. -/
def fexp2 (a : F32) : F32 :=
  match fval a with
  | .nan => fround .nan
  | .inf s => if s then fround (.fin false 0 0) else a
  | .fin s m e =>
    let (n, d) := scaleRat m e
    let x : Int := if s then -(n : Int) else n
    let i := x / (d : Int)
    if 200 < i then fround (.inf false)
    else if i < -200 then fround (.fin false 0 0)
    else
      let f := (x - i * d).toNat * 2 ^ fixBits / d
      if f = 0 then BitVec.ofNat 32 (floatOfRat 9 false 1 1 i)
      else BitVec.ofNat 32 (floatOfRat 9 false (exp2Frac f) 1 (i - fixBits))

/-- The bits of log₂ of a number in [1, 2) given in units of 2^−160, most significant first, by repeated squaring. -/
def log2Frac : Nat → Nat → Nat → Nat
  | 0, _, acc => acc
  | fuel + 1, y, acc =>
    let z := y * y / 2 ^ fixBits
    if 2 * 2 ^ fixBits ≤ z then log2Frac fuel (z / 2) (2 * acc + 1) else log2Frac fuel z (2 * acc)

/-- R219: LOG2, the exact logarithm rounded once. -/
def flog2 (a : F32) : F32 :=
  match fval a with
  | .nan => fround .nan
  | .inf s => if s then fround .nan else a
  | .fin s m e =>
    if m = 0 then fround (.inf true)
    else if s then fround .nan
    else
      let k := m.log2
      let y := m * 2 ^ fixBits / 2 ^ k
      let i : Int := (k : Int) + e
      let frac := log2Frac 120 y 0
      let v : Int := i * (2 ^ 120 : Nat) + frac
      BitVec.ofNat 32 (floatOfRat 9 (decide (v < 0)) v.natAbs 1 (-120))

/-! ### Activation sequences (R220) -/

/-- The FP32 value nearest a decimal n / 10^10. -/
def fdec (n : Nat) : F32 := BitVec.ofNat 32 (floatOfRat 9 false n (10 ^ 10) 0)

/-- R220: L, c1, c2 and 0.5. -/
def cL : F32 := fdec 14426950409
def c1 : F32 := fdec 7978845608
def c2 : F32 := fdec 447150000
def fhalf : F32 := 0x3F000000#32

/-- R220: EXP. -/
def fexp (x : F32) : F32 := fexp2 (fmul x cL)

/-- R220: SIGMOID. -/
def fsigmoid (x : F32) : F32 := frcp (fadd fone (fexp2 (fmul (fneg x) cL)))

/-- R220: TANH; the product −2a is exact. -/
def ftanh (x : F32) : F32 :=
  let a := (fval x).abs
  let t := fround ((a.mul (.fin true 1 1)).mul (fval cL))
  let e := fexp2 t
  let y := fdiv (fsub fone e) (fadd fone e)
  if (fval x).negative then fneg y else y

/-- R220: GELU. -/
def fgelu (x : F32) : F32 :=
  let p := fmul (fmul x x) x
  let r := fmul c1 (fadd x (fmul c2 p))
  fmul (fmul fhalf x) (fadd fone (ftanh r))

/-- R220: SILU. -/
def fsilu (x : F32) : F32 := fmul x (fsigmoid x)

/-- R220: RELU. -/
def frelu (x : F32) : F32 := fmax x 0

/-- R220: LEAKY with slope α. -/
def fleaky (alpha x : F32) : F32 :=
  match fval x with
  | .nan => fround .nan
  | v => if v.negative then fmul x alpha else x

/-! ### The integer class and REQ -/

/-- R212, R217: saturation to INT32. -/
def sat32 (v : Int) : Int := clampInt (-2147483648) 2147483647 v

/-- R218: REQ of a value with multiplier M, shift s and zero point z, for a destination format. An infinite product keeps
its sign and saturates; an invalid one counts as NaN (log 24). -/
def requant (f : Nat) (away : Bool) (v : Num) (mult : Int) (s : Nat) (z : Int) : Num :=
  match v.mul (Num.ofInt mult) with
  | .nan => Num.ofInt z
  | .inf neg => .inf neg
  | .fin neg m e =>
    let r := roundFin away neg m (e - s) + z
    if fmtInt f then let (lo, hi) := fmtRange f; Num.ofInt (clampInt lo hi r) else Num.ofInt r

/-! ### Reductions (R222) -/

/-- One level of the pairwise tree: adjacent values combined, an unpaired last value passed up. -/
def pairUp {α : Type} (f : α → α → α) : List α → List α
  | a :: b :: rest => f a b :: pairUp f rest
  | l => l

/-- R222, R239: the fixed pairwise tree over at most 2^fuel values. -/
def pairTree {α : Type} (f : α → α → α) : Nat → List α → List α
  | 0, l => l
  | fuel + 1, l => pairTree f fuel (pairUp f l)

/-- R222: a list cut into vectors of 64, the last padded. -/
def vectors {α : Type} (pad : α) : Nat → List α → List (List α)
  | 0, _ => []
  | fuel + 1, l =>
    if l.isEmpty then []
    else (l.take 64 ++ List.replicate (64 - l.length) pad) :: vectors pad fuel (l.drop 64)

/-- R222: a reduction over the vectors of a row: r = r + tree(v) in ascending vector order, from the first tree. -/
def reduceRow {α : Type} (f : α → α → α) (pad : α) (l : List α) : α :=
  match ((vectors pad (l.length / 64 + 1) l).map fun v => (pairTree f 6 v).headD pad) with
  | [] => pad
  | r :: rs => rs.foldl f r

/-- −infinity as an FP32 word. -/
def fminf : F32 := 0xFF800000#32

/-- R222: SUMR and MAXR of the float class over a row. -/
def fsumr (l : List F32) : F32 := reduceRow fadd 0 l
def fmaxr (l : List F32) : F32 := reduceRow fmax fminf l

/-- R223: softmax of a row. -/
def fsoftmax (l : List F32) : List F32 :=
  let m := fmaxr l
  let e := l.map fun x => fexp (fsub x m)
  let r := frcp (fsumr e)
  e.map fun x => fmul x r

/-- R223: normalisation of a row with γ, β and ε. -/
def fnormal (eps : F32) (gamma beta : List F32) (l : List F32) : List F32 :=
  let f := frcp (fround (Num.ofInt l.length))
  let mu := fmul (fsumr l) f
  let d := l.map fun x => fsub x mu
  let v := fadd (fmul (fsumr (d.map fun x => fmul x x)) f) eps
  let k := frsqrt v
  d.zipIdx.map fun (x, i) => fadd (fmul (fmul x k) (gamma.getD i 0)) (beta.getD i 0)

/-! ### The MAC array (R199 to R206) -/

/-- R204: one saturating accumulation, and whether it saturated. -/
def accInt (acc : Int) (p : Int) : Int × Bool :=
  let v := acc + p
  (sat32 v, v != sat32 v)

/-- R204: integer products added in ascending k, `step` of them per cycle. -/
def dotInt (step : Nat) : Nat → List (Int × Int) → Int × Bool → Int × Bool
  | 0, _, a => a
  | fuel + 1, l, (acc, sat) =>
    if l.isEmpty then (acc, sat)
    else
      let p := ((l.take step).map fun (x, y) => x * y).sum
      let (v, o) := accInt acc p
      dotInt step fuel (l.drop step) (v, sat || o)

/-- R205: float products added in ascending k, each rounded once with the sum. -/
def dotFloat (l : List (Num × Num)) (acc : F32) : F32 :=
  l.foldl (fun a (x, y) => fround ((fval a).add (x.mul y))) acc

/-- R206: the fold of one BX8 block: the exact sum B of 32 products, then B × 2^(Ea + Eb − 266). -/
def foldBx8 (acc : F32) (ea eb : Nat) (l : List (Int × Int)) : F32 :=
  let b := (l.map fun (x, y) => x * y).sum
  let p : Num :=
    if ea = 255 ∨ eb = 255 then .nan else .fin (decide (b < 0)) b.natAbs ((ea : Int) + eb - 266)
  fround ((fval acc).add p)

end Sys2Proof.Machine
end

