-- ==== Sys2Proof/Machine/Pattern.lean ====
section
/-! DEFINITION. The admitted pattern as plain data: the decoded fields of the sections of the pattern
image (R108 to R133). The byte layouts are read by Machine/Image.lean. -/

namespace Sys2Proof.Machine

/-- A port descriptor of INTK (R119). -/
structure IntkPort where
  lanes : Nat := 0
  dataType : Nat := 0
  vc : Nat := 0
  lineStart : Bool := false
  pixels : Nat := 0
  ltrim : Nat := 0
  rtrim : Nat := 0
  rate : Nat := 0
  deriving DecidableEq, Repr, Inhabited

/-- INTK (R119). -/
structure Intk where
  source : Nat := 0
  other : Nat := 0
  k : Nat := 0
  tol : Nat := 0
  n0 : Nat := 0
  n1 : Nat := 0
  mask : Nat := 0
  depth : Nat := 0
  width : Nat := 0
  ports : List IntkPort := []
  deriving DecidableEq, Repr, Inhabited

/-- FLAT (R120): gains (u16) and offsets (s16). -/
structure Flat where
  count : Nat := 0
  gains : List Nat := []
  offsets : List Int := []
  deriving DecidableEq, Repr, Inhabited

/-- SNTL with its head-parameter block (R121, R188); `images` holds one cell image per used macro. -/
structure Sntl where
  macros : Nat := 0
  wbits : Nat := 0
  ibits : Nat := 0
  mode : Nat := 0
  swath : Nat := 0
  patch : Nat := 0
  threshold : Int := 0
  watch : Nat := 0
  stride : Nat := 0
  headOff : Nat := 0
  headLen : Nat := 0
  images : List (List Byte) := []
  groups : Nat := 0
  shift : Nat := 0
  features : Nat := 0
  groupOf : List Nat := []
  bias : Int := 0
  a : List Int := []
  q : List Int := []
  deriving DecidableEq, Repr, Inhabited

/-- One panel's directory entry of PANL with its program (R122). -/
structure PanlEntry where
  offset : Nat := 0
  count : Nat := 0
  group : Nat := 0
  words : List (BitVec 64) := []
  deriving DecidableEq, Repr, Inhabited

/-- A TILE descriptor (R253): extents and strides in the order M, N, K, H, W. -/
structure TileDesc where
  space : Nat := 0
  fmt : Nat := 0
  form : Nat := 0
  budget : Nat := 0
  perm : Nat := 0
  first : Nat := 0
  blocked : Nat := 0
  layout : Nat := 0
  tid : Nat := 0
  base : Nat := 0
  ext : List Nat := []
  stride : List Int := []
  deriving DecidableEq, Repr, Inhabited

/-- A WGHT directory entry (R124). -/
structure WghtEntry where
  tid : Nat := 0
  fmt : Nat := 0
  flags : Nat := 0
  latBits : Nat := 0
  rank : Nat := 0
  dims : List Nat := []
  hbmOff : Nat := 0
  dataOff : Nat := 0
  dataLen : Nat := 0
  deriving DecidableEq, Repr, Inhabited

/-- A TABL entry (R125); `lens` holds a shipped table's 256 lengths and `ok` whether its 136 bytes
have the form of R281. -/
structure TablEntry where
  tid : Nat := 0
  mode : Nat := 0
  budget : Nat := 0
  off : Nat := 0
  len : Nat := 0
  ok : Bool := true
  lens : List Nat := []
  deriving DecidableEq, Repr, Inhabited

/-- HIST (R126). -/
structure Hist where
  cRoll : Nat := 0
  lSeg : Nat := 0
  segPerRev : Nat := 0
  revs : Nat := 0
  keyW : Nat := 0
  valW : Nat := 0
  fmt : Nat := 0
  budget : Nat := 0
  resident : Nat := 0
  spill : Nat := 0
  grace : Nat := 0
  image : List Byte := []
  deriving DecidableEq, Repr, Inhabited

/-- A MARK entry (R127). -/
structure MarkEntry where
  marker : Nat := 0
  trigger : Nat := 0
  offset : Nat := 0
  width : Nat := 0
  mask : Nat := 0
  deriving DecidableEq, Repr, Inhabited

/-- A BOLT device entry (R128). -/
structure BoltEntry where
  addr : Nat := 0
  roles : Nat := 0
  seams : Nat := 0
  westHalo : Nat := 0
  eastHalo : Nat := 0
  segWidth : Nat := 0
  posFrom : Nat := 0
  offset : Int := 0
  deriving DecidableEq, Repr, Inhabited

/-- A VOTE domain entry (R129). -/
structure VoteEntry where
  id : Nat := 0
  low : Nat := 0
  hyst : Nat := 0
  mask : Nat := 0
  deriving DecidableEq, Repr, Inhabited

/-- A DLIN slot entry (R130). -/
structure SlotEntry where
  id : Nat := 0
  flags : Nat := 0
  deadline : Nat := 0
  plifer : Nat := 0
  depth : Nat := 0
  deriving DecidableEq, Repr, Inhabited

/-- DLIN (R130). -/
structure Dlin where
  cMax : Nat := 0
  lMax : Nat := 0
  horizon : Nat := 0
  stopUs : Nat := 0
  restart : Nat := 0
  slip : Nat := 0
  density : Nat := 0
  span : Nat := 0
  slots : List SlotEntry := []
  deriving DecidableEq, Repr, Inhabited

/-- A RECD field descriptor (R132). -/
structure RecField where
  id : Nat := 0
  size : Nat := 0
  count : Nat := 0
  deriving DecidableEq, Repr, Inhabited

/-- A RECD entry (R132). -/
structure RecEntry where
  kind : Nat := 0
  version : Nat := 0
  role : Nat := 0
  fields : List RecField := []
  deriving DecidableEq, Repr, Inhabited

/-- A section-table entry (R111); `tag` holds the four tag bytes, first byte in bits 7:0. -/
structure SectionEntry where
  tag : Nat := 0
  version : Nat := 0
  offset : Nat := 0
  length : Nat := 0
  crc : Nat := 0
  deriving DecidableEq, Repr, Inhabited

/-- HEAD (R108). -/
structure Head where
  bytes : List Byte := []
  magicOk : Bool := false
  major : Nat := 0
  minor : Nat := 0
  flags : Nat := 0
  headLen : Nat := 0
  total : Nat := 0
  issue : Nat := 0
  fingerprint : List Byte := []
  sections : Nat := 0
  tableOff : Nat := 0
  tableCrc : Nat := 0
  stepCount : Nat := 0
  steppings : List Nat := []
  crcOk : Bool := false
  deriving DecidableEq, Repr, Inhabited

/-- SIGN (R133). -/
structure SignSec where
  present : Bool := false
  digest : List Byte := []
  key : List Byte := []
  signature : List Byte := []
  deriving DecidableEq, Repr, Inhabited

/-- The pattern under admission or running. -/
structure Pattern where
  head : Head := {}
  table : List SectionEntry := []
  intk : Intk := {}
  flat : Flat := {}
  sntl : Sntl := {}
  panl : List PanlEntry := []
  tiles : List TileDesc := []
  wght : List WghtEntry := []
  footprint : Nat := 0
  window : Nat := 4096
  tabl : Option (List TablEntry) := none
  hist : Option Hist := none
  marks : List MarkEntry := []
  markFires : Nat := 0
  boltMaster : Nat := 0
  boltCollector : Nat := 0
  bolt : List BoltEntry := []
  voteNormal : Nat := 0
  voteDegraded : Nat := 0xFF
  restMs : Nat := 0
  deepS : Nat := 0
  votes : List VoteEntry := []
  dlin : Dlin := {}
  bound : List Byte := []
  ctrl : List (BitVec 64) := []
  entries : List Nat := []
  recd : List RecEntry := []
  sign : SignSec := {}
  /-- refusal codes of what the sections hold outside the ranges of R119 to R132 and keep in no other field. -/
  breaches : List Nat := []
  deriving DecidableEq, Repr, Inhabited

end Sys2Proof.Machine
end

