-- ==== Sys2Proof/Machine/State.lean ====
section
/-! DEFINITION. The state of one EB-7240 as plain data: its thimble, its blocks, the flash and HBM attached
to it, and the queue of waiting commands. Each field's text names its width, the rule that gives it and
its value after the reset exit that follows power-on. "DESIGN CHOICE 1" means that the spec states no value
and the assumption log's row 1 chooses the one shown. Times in ps count State.clock; times in
wall-ps count the wall timebase (R463). -/

namespace Sys2Proof.Machine

/-! ### Thimble: encoders, position and time -/

/-- When counting edges came (R20, R28). -/
structure EdgeClock where
  /-- ps, R20: instant of the last counting edge. Reset none (R20). -/
  last : Option Nat := none
  /-- ps, R20: instant of the edge before it. Reset none (R20). -/
  prev : Option Nat := none
  /-- 1 bit, R20: the last edge was forward. Reset DESIGN CHOICE 1: true. -/
  forward : Bool := true
  /-- wall-ps, R28: the last counting edge on the wall timebase. Reset DESIGN CHOICE 1: 0. -/
  lastWall : Nat := 0
  deriving DecidableEq, Repr, Inhabited

/-- One quadrature decoder (R9). -/
structure Encoder where
  /-- 1 bit, R9: level of A as last resolved. Reset DESIGN CHOICE 1: low. -/
  a : Bool := false
  /-- 1 bit, R9: level of B as last resolved. Reset DESIGN CHOICE 1: low. -/
  b : Bool := false
  /-- 48 bits, R9: position counter. Reset 0 (R13). -/
  count : Pos := 0
  /-- 16 bits, R12: illegal-transition count, saturating. Reset 0 (R13). -/
  illegal : BitVec 16 := 0
  /-- 48 bits, R17: last-index position. Reset 0 (R13). -/
  lastIndex : Pos := 0
  /-- 1 bit, R17: whether an index pulse has been latched since the clear. Reset false (R13). -/
  indexSeen : Bool := false
  /-- list, R18: uncertainty events as (travel at the event, counts added). Reset empty (R13). -/
  events : List (Nat × Nat) := []
  /-- edge times of this decoder, R20, R28. Reset as EdgeClock (R13). -/
  edges : EdgeClock := {}
  deriving DecidableEq, Repr, Inhabited

/-- Position, rates and the web state (R10 to R31). -/
structure Web where
  /-- 2 decoders, R9. Reset as Encoder. -/
  enc : Vector Encoder 2 := Vector.replicate 2 {}
  /-- count, R18: travel, the counting edges of the position source so far, whichever it was. Reset DESIGN CHOICE 1: 0. -/
  travel : Nat := 0
  /-- 1 bit, R10: forward order in force is B leads A. Reset false, A leads B (R10). -/
  bLeads : Bool := false
  /-- 1 bit, R18: position lost. Reset false (R18). -/
  lost : Bool := false
  /-- 48 bits, R30: high-water position. Reset DESIGN CHOICE 1: 0 (set at READY). -/
  highWater : Pos := 0
  /-- 1 bit, R28: web-stopped state. Reset false (R28). -/
  stopped : Bool := false
  /-- 48 bits, R28: counter of the position source at entry to web-stopped. Reset DESIGN CHOICE 1: 0. -/
  stopEntry : Pos := 0
  /-- wall-ps, R445: when the present web-stopped time began to count. Reset DESIGN CHOICE 1: 0. -/
  stopSince : Nat := 0
  /-- 48 bits, R16: source counter at the start of the check span. Reset DESIGN CHOICE 1: 0. -/
  spanSource : Pos := 0
  /-- 48 bits, R16: other counter at the start of the check span. Reset DESIGN CHOICE 1: 0. -/
  spanOther : Pos := 0
  /-- wall-ps, R26: start of the present 1 ms window. Reset DESIGN CHOICE 1: 0. -/
  rateStart : Nat := 0
  /-- count, R26: counting edges in the window. Reset 0 (R26). -/
  rateEdges : Nat := 0
  /-- count, R390: signed counts in the window. Reset 0 (R26). -/
  rateSigned : Int := 0
  /-- count, R26: lines numbered in the window. Reset 0 (R26). -/
  rateLines : Nat := 0
  /-- 1 bit, R26: an over-rate episode is on. Reset false (R26). -/
  episode : Bool := false
  /-- count, R26: consecutive windows within both limits. Reset 0 (R26). -/
  goodWindows : Nat := 0
  /-- 1 bit, R26: the episode has formed its overspeed record. Reset false (R26). -/
  overspeedSeen : Bool := false
  /-- 1 bit, R26: the episode has formed its line over-rate record. Reset false (R26). -/
  lineOverSeen : Bool := false
  /-- 32 bits signed, R390: count rate of the last 1 ms window, counts/s. Reset DESIGN CHOICE 1: 0. -/
  lastRate : Int := 0
  deriving DecidableEq, Repr, Inhabited

/-- The wall timebase (R463). -/
structure Timebase where
  /-- wall-ps, R463: the timebase; it shows floor(wall × 2¹⁵ / 10¹²) units. Reset 0 (R69). -/
  wall : Nat := 0
  /-- 1 bit, R463: XT32 is not failed, so the timebase advances on it. Reset false (R463). -/
  xt32 : Bool := false
  /-- 1 bit, R463: XT32 is verified, so timestamps are fine. Reset false (R463). -/
  verified : Bool := false
  /-- ps, R463: since when XT32 has run without failure. Reset 0 (R463). -/
  xtFrom : Nat := 0
  deriving DecidableEq, Repr, Inhabited

/-- The last-wake record in thimble SRAM (R453). -/
structure LastWake where
  /-- 8 bits, R453: cause. Reset 0x01, power-on (R69). -/
  cause : Nat := 0x01
  /-- 8 bits, R453: detail. Reset 0 (R453). -/
  detail : Nat := 0
  /-- 48 bits, R453: position at the wake. Reset DESIGN CHOICE 1: 0. -/
  pos : Pos := 0
  /-- ps, R453: instant of the wake. Reset DESIGN CHOICE 1: 0. -/
  atClock : Nat := 0
  /-- wall-ps, R453: when the control sequencer last left on. Reset DESIGN CHOICE 1: 0. -/
  leftOn : Nat := 0
  /-- wall-ps, R453: when the wake came. Reset DESIGN CHOICE 1: 0. -/
  wakeWall : Nat := 0
  /-- 1 bit, R453: part of the sleep ran on the RC oscillator. Reset DESIGN CHOICE 1: false. -/
  coarse : Bool := false
  /-- 1 bit, R453: HBM was off during the sleep. Reset DESIGN CHOICE 1: false. -/
  hbmOff : Bool := false
  /-- list, R453: the wakes since which the control sequencer has issued no instruction, as the instant in ps and the body of
  their STATUS 0x10 with a time of 0. Reset empty (R453). -/
  awaiting : List (Nat × BitVec 128) := []
  /-- 1 bit, R462: the brown-out latch on VAON_IN. Reset false (R462). -/
  brownOut : Bool := false
  deriving DecidableEq, Repr, Inhabited

/-! ### Pins, straps and level pins -/

/-- What one level pin decoded to (R42 to R44). -/
structure LevelPin where
  /-- 4 bits, R42: level of pass 1. Reset none (R71). -/
  pass1 : Option Nat := none
  /-- 4 bits, R42: level of pass 2. Reset none (R71). -/
  pass2 : Option Nat := none
  deriving DecidableEq, Repr, Inhabited

/-- The decoded straps (R40 to R58). -/
structure Levels where
  /-- 10 pins, R42: LVL_A first. Reset not decoded (R71). -/
  pin : List LevelPin := List.replicate 10 {}
  /-- 1 bit, R46: both passes are complete and LVL_REF was good in both. Reset false (R71). -/
  decoded : Bool := false
  /-- 1 bit, R41: LVL_REF is in fault. Reset false (R71). -/
  refFault : Bool := false
  /-- 1 bit, R57: TEST_N at the reset exit. Reset DESIGN CHOICE 1: high. -/
  test1 : Bool := true
  /-- 1 bit, R57: TEST_N at the end of pass 2. Reset DESIGN CHOICE 1: high. -/
  test2 : Bool := true
  /-- 1 bit, R58: BOOT_HOLD at the end of pass 2. Reset DESIGN CHOICE 1: high. -/
  bootHold : Bool := true
  deriving DecidableEq, Repr, Inhabited

/-- What the flash pins do (R36, R58). -/
inductive FlashPins where
  | highZ | driven
  deriving DecidableEq, Repr, Inhabited

/-- Pins whose level is latched; the other outputs follow from the state (Machine/Status.lean). -/
structure Pins where
  /-- 1 bit, R35: PORST_N is high. Reset true (the reset exit, R35). -/
  porstN : Bool := true
  /-- 1 bit, R35: RST_N is high. Reset true (the reset exit, R35). -/
  rstN : Bool := true
  /-- 1 bit, R62: FAULT_N is asserted. Reset false, released (R62). -/
  fault : Bool := false
  /-- 1 bit, R64: THERMTRIP_N is asserted. Reset false (R461). -/
  thermtrip : Bool := false
  /-- 1 bit, R26: RATE_RISK is held by the rates. Reset false (R36). -/
  riskRate : Bool := false
  /-- 1 bit, R459: RATE_RISK is held by the temperature. Reset false (R36). -/
  riskThermal : Bool := false
  /-- 6 bits, R38: VID code driven. Reset 15 (R36). -/
  vid : BitVec 6 := 15
  /-- pin group, R36: FL_SCK, FL_CS_N and FL_IO. Reset high impedance (R36). -/
  flash : FlashPins := .highZ
  /-- count, R66: blink phase of STAT[3:0] in steps of the blink timer. Reset DESIGN CHOICE 1: 0. -/
  blink : Nat := 0
  /-- wall-ps, R505: when the blink timer last stepped. Reset DESIGN CHOICE 1: 0. -/
  blinkAt : Nat := 0
  deriving DecidableEq, Repr, Inhabited

/-! ### Admission -/

/-- The device's overall condition (R343 page 0 offset 0; R490). -/
inductive Device where
  | inReset | admitting | bootHold | running | refused | sealComplete | stopped | flushed
  deriving DecidableEq, Repr, Inhabited

/-- A record class held in the record area (R135). -/
structure RecClass where
  /-- 16 bits, R135: record kind. -/
  kind : Nat := 0
  /-- 16 bits, R135: its format version. -/
  version : Nat := 0
  /-- 8 bytes, R135: fingerprint of the pattern that wrote it. -/
  fingerprint : List Byte := []
  /-- 32 bits, R135: sequence number of the commit that wrote it. -/
  commitSeq : Nat := 0
  /-- bytes, R136: the class body. -/
  bytes : List Byte := []
  deriving DecidableEq, Repr, Inhabited

/-- The chosen record copy (R89). -/
structure Chosen where
  /-- 1 bit, R89: copy 0 or 1. -/
  copy : Nat := 0
  /-- 32 bits, R134: its sequence number. -/
  sequence : Nat := 0
  /-- bytes, R134: body length. -/
  bodyLen : Nat := 0
  /-- list, R135: the classes it holds, in directory order. -/
  classes : List RecClass := []
  deriving DecidableEq, Repr, Inhabited

/-- Progress and results of admission (R72 to R97). -/
structure Admission where
  /-- enumeration, R343: the device's condition. Reset admitting (R71). -/
  dev : Device := .admitting
  /-- 4 bits, R72: admission step. Reset 1 (R71). -/
  step : Nat := 1
  /-- slot, R76: the slot under test or running, 0 A and 1 B. Reset none (R71). -/
  slot : Option Nat := none
  /-- list, R76: slots still to try, in order. Reset empty (R71). -/
  order : List Nat := []
  /-- 8 + 8 bits, R78: refusal code and step of slot A. Reset (0, 0) (R343). -/
  codeA : Nat × Nat := (0, 0)
  /-- 8 + 8 bits, R78: refusal code and step of slot B. Reset (0, 0) (R343). -/
  codeB : Nat × Nat := (0, 0)
  /-- 8 bits, R78: the code the blink shows. Reset 0 (R71). -/
  shown : Nat := 0
  /-- 8 bits, R97: subcause of the last 0x3A refusal. Reset 0 (R97). -/
  subcause : Nat := 0
  /-- 8 bits, R97: array of an analog-reference refusal. Reset 0 (R97). -/
  subArray : Nat := 0
  /-- 24 bits, R102: JEDEC ID. Reset DESIGN CHOICE 1: 0. -/
  jedec : BitVec 24 := 0
  /-- 8 bytes, R82: first 64 bits of the signer key digest. Reset zero (R343). -/
  signer : List Byte := []
  /-- 1 bit, R90: warm start. Reset false (R71). -/
  warm : Bool := false
  /-- 1 bit, R137: a declared field took its default. Reset false (R71). -/
  partly : Bool := false
  /-- ps, R58: when the step-1 wait could first end. Reset 0 (R71). -/
  since : Nat := 0
  /-- record copy, R89: the chosen copy. Reset none (R71). -/
  chosen : Option Chosen := none
  /-- list, R91: (kind, version) pairs of classes that the other slot protects; none protects all. Reset none (R71). -/
  otherReads : Option (List Nat) := none
  /-- 1 bit, R105: a poll after a timed-out operation keeps the flash busy. Reset false (R71). -/
  flashWaiting : Bool := false
  /-- 1 bit, R83: the digest bits of a seal pattern are being burned. Reset false (R71). -/
  burning : Bool := false
  deriving DecidableEq, Repr, Inhabited

/-- The fuses (R81 to R83): kept through every reset. -/
structure Fuses where
  /-- 256 bits, R83: burned bits of the key digest. Reset DESIGN CHOICE 1: none burned. -/
  key : BitVec 256 := 0
  /-- 1 bit, R81: the seal flag. Reset DESIGN CHOICE 1: not burned. -/
  flag : Bool := false
  deriving DecidableEq, Repr, Inhabited

/-! ### Flash, commits and persistent counters -/

/-- One operation of a commit (R105, R138): `readKept` and `readBack` are steps 1 and 5. -/
inductive FlashOp where
  | readKept | readBack
  | erase (addr : Nat)
  | program (addr : Nat) (bytes : List Byte)
  deriving DecidableEq, Repr, Inhabited

/-- What a commit writes (R481). -/
inductive CommitKind where
  | record | counter
  deriving DecidableEq, Repr, Inhabited

/-- A commit in progress (R138, R484): the operation under way and those still to issue, in order. -/
structure CommitRun where
  /-- enumeration, R481: record commit or counter entry. -/
  kind : CommitKind := .record
  /-- 1 bit, R138: the copy written. -/
  target : Nat := 0
  /-- 32 bits, R138: sequence number written. -/
  sequence : Nat := 0
  /-- count, R484: index of the counter entry. -/
  index : Nat := 0
  /-- list, R138: operations under way and still to issue. -/
  ops : List FlashOp := []
  /-- ps, R105: when the present operation began. -/
  opSince : Nat := 0
  /-- counts, R490: what the thimble's counters 8, 9 and 10 had gathered as it began; they leave it when it is made. -/
  gathered : Nat × Nat × Nat := (0, 0, 0)
  /-- 1 bit, R483: the commit is made, and the journal block is being erased. -/
  tail : Bool := false
  deriving DecidableEq, Repr, Inhabited

/-- The flash and the commit engine (R99, R138, R481 to R486). -/
structure Flash where
  /-- 128 MB as cells, R99: the flash contents; an unlisted byte reads 0xFF. Reset erased: DESIGN CHOICE 2 (kept through every reset). -/
  mem : List Host.Cell := []
  /-- commit, R482: the commit in progress. Reset none (R71). -/
  run : Option CommitRun := none
  /-- 1 bit, R482: a record commit waits. Reset false (R71). -/
  wantRecord : Bool := false
  /-- 1 bit, R482: a counter entry waits. Reset false (R71). -/
  wantCounter : Bool := false
  /-- count, R417: consecutive failed commits. Reset 0 (R71). -/
  fails : Nat := 0
  /-- 32 bits, R479: record commits since reset exit. Reset 0 (R343). -/
  commits : Nat := 0
  /-- count, R483: next journal entry index in the chosen copy. Reset 0 (R71). -/
  journal : Nat := 0
  /-- count, R481: the multiple of 2²⁰ lines at which the last periodic commit was made. Reset 0 (R71). -/
  periodAt : Nat := 0
  /-- operation, R105: the operation that timed out, while the device polls. Reset none (R71). -/
  late : Option FlashOp := none
  /-- 64 × 64 bits, R486: persistent counters. Reset defaults of R486: counters 14 and 15 at 400,000 and 700, the others 0. -/
  counters : List Nat := List.replicate 14 0 ++ [400000, 700] ++ List.replicate 48 0
  /-- wall-ps, R486: up to when the running time has been counted. Reset DESIGN CHOICE 1: 0. -/
  runFrom : Nat := 0
  /-- list, R480: staged field values as (field id, bytes). Reset empty (R480). -/
  staged : List (Nat × List Byte) := []
  deriving DecidableEq, Repr, Inhabited

/-! ### Intake and the bobbin -/

/-- Class of a port's part or of a line (R150, R151). The cause codes are those of Table: gap causes. -/
inductive LineClass where
  | normal | empty | damaged (cause : Nat) | oversize | overRate
  deriving DecidableEq, Repr, Inhabited

/-- One intake port (R145 to R152). -/
structure CsiPort where
  /-- 1 bit, R145: a frame is open. Reset false (R145). -/
  open_ : Bool := false
  /-- 16 bits, R145: frame number of the latest frame start. Reset 0 (R145). -/
  frameNo : BitVec 16 := 0
  /-- 16 bits, R145: frame number of the frame start before it. Reset 0 (R145). -/
  prevNo : BitVec 16 := 0
  /-- count, R145: frame ordinal since alignment. Reset 0 (R145). -/
  ordinal : Nat := 0
  /-- count, R145: next line index k. Reset 0 (R145). -/
  index : Nat := 0
  /-- 1 bit, R147: input is discarded until the next frame start. Reset true (R73). -/
  waiting : Bool := true
  /-- (stamp, revisit), R20, R30: what a line-start packet not yet used gave. Reset none (R20). -/
  lineStart : Option (Pos × Bool) := none
  /-- (number, ordinal, count), R147: the last frame closed by a frame end, with its line count. Reset none (R145). -/
  closed : Option (Nat × Nat × Nat) := none
  /-- 32 bits, R141: ignored packets. Reset 0 (R343). -/
  ignored : Nat := 0
  /-- 32 bits, R148: line-start omissions. Reset 0 (R343). -/
  omitted : Nat := 0
  /-- 32 bits, R152: corrected header errors. Reset 0 (R343). -/
  corrected : Nat := 0
  /-- 32 bits, R343: damaged parts. Reset 0 (R343). -/
  damaged : Nat := 0
  deriving DecidableEq, Repr, Inhabited

/-- A part of a line as one port delivered it (R150). -/
structure Part where
  /-- class, R150: the class of the part. -/
  cls : LineClass := .normal
  /-- pixels, R148: its trimmed pixels, left to right. -/
  pixels : List Nat := []
  deriving DecidableEq, Repr, Inhabited

/-- A line in assembly or assembled (R146). -/
structure AsmLine where
  /-- R145: both identifiers of the frame f, and the line index k. -/
  number : Nat := 0
  /-- count, R145: frame ordinal f. -/
  ordinal : Nat := 0
  /-- count, R145: line index in the frame. -/
  k : Nat := 0
  /-- 40 bits, R19: line number. -/
  seq : LineSeq := 0
  /-- R20, R30: the stamp and whether it is a revisit, once taken. -/
  stamp : Option (Pos × Bool) := none
  /-- 4 parts, R146: what each port has delivered. -/
  parts : List (Option Part) := [none, none, none, none]
  /-- ps, R146: when its first part arrived. -/
  firstAt : Nat := 0
  /-- 1 bit, R26: numbered within an over-rate episode. -/
  overRate : Bool := false
  /-- R157: the flat-field set that corrects the line. -/
  bank : Nat := 0
  deriving DecidableEq, Repr, Inhabited

/-- A run of lines that one GAP record reports (R154). -/
structure GapRun where
  /-- 8 bits, R154: gap cause of the run. -/
  cause : Nat := 0
  /-- 40 bits, R154: its first line. -/
  firstSeq : LineSeq := 0
  /-- 16 bits, R154: lines in the run. -/
  count : Nat := 0
  /-- 48 bits, R154: stamp of the first line. -/
  firstStamp : Pos := 0
  /-- 48 bits, R154: stamp of the last line. -/
  lastStamp : Pos := 0
  /-- 4 bits, R154: ports involved. -/
  ports : BitVec 4 := 0
  deriving DecidableEq, Repr, Inhabited

/-- Flat-field coefficients of every pixel (R155). -/
structure CoefSet where
  /-- 16 bits a pixel, R155: gain, 16,384 for 1.0. -/
  g : List Nat := []
  /-- 16 bits signed a pixel, R155: offset. -/
  o : List Int := []
  /-- 16 bits a pixel, R155: cross-web gain, 16,384 for 1.0. -/
  m : List Nat := []
  deriving DecidableEq, Repr, Inhabited

/-- A change of coefficients that has been made and not yet taken effect (R157): the fields it replaces. -/
structure CoefChange where
  /-- 16 bits a pixel, R157: the new gains. -/
  g : Option (List Nat) := none
  /-- 16 bits signed a pixel, R157: the new offsets. -/
  o : Option (List Int) := none
  /-- 16 bits a pixel, R157: the new cross-web gains. -/
  m : Option (List Nat) := none
  /-- 48 bits, R414: P_s of a gain-matching commit. -/
  since : Option Pos := none
  deriving DecidableEq, Repr, Inhabited

/-- A line in the bobbin with its descriptor (R159 to R161). -/
structure BobLine where
  /-- 40 bits, R160: line number. -/
  seq : LineSeq := 0
  /-- 48 bits, R161: position stamp. -/
  stamp : Pos := 0
  /-- bit 0 damaged, 1 empty, 2 oversize, 3 over-rate, 4 stamp estimated, 5 revisit, 6 screened, 7 lost (R161). -/
  flags : BitVec 8 := 0
  /-- 8 bits, R161: gap cause. -/
  cause : Nat := 0
  /-- 4 bits, R161: ports involved. -/
  ports : BitVec 4 := 0
  /-- 16 bits a pixel, R159: the line. -/
  pixels : List Nat := []
  /-- ps, R430: when the line came to be in the bobbin. -/
  atClock : Nat := 0
  /-- 1 bit, R446: the sentinel screened when the line came. -/
  seen : Bool := false
  deriving DecidableEq, Repr, Inhabited

/-- Intake (R140 to R158). -/
structure Intake where
  /-- 4 ports, R140. Reset as CsiPort. -/
  port : Vector CsiPort 4 := Vector.replicate 4 {}
  /-- up to 4 lines, R153: lines in assembly, oldest first. Reset empty (R71). -/
  asm : List AsmLine := []
  /-- list, R164: assembled lines on their way to the bobbin. Reset empty (R71). -/
  done : List BobLine := []
  /-- (number, ordinal, k, ports), R146: the frames whose lines 0 to k - 1 have started, with the ports that have started a
  later frame; a line that is no longer in assembly has closed and takes no late part. Reset empty (R71). The model's own. -/
  begun : List (Nat × Nat × Nat × List CsiId) := []
  /-- 40 bits, R19: number of the next line. Reset 0 (R19). -/
  nextSeq : LineSeq := 0
  /-- 40 bits, R154: the next line, in sequence order, that GAP runs and the tables' positions take. Reset 0 (R19). -/
  gapNext : LineSeq := 0
  /-- run, R154: the open run of lines for a GAP record. Reset none (R71). -/
  gap : Option GapRun := none
  /-- coefficients, R156: the set in use. Reset empty (R71). -/
  coef : CoefSet := {}
  /-- 1 bit, R263: which of the two flat-field sets is in use. Reset 0: DESIGN CHOICE 1. -/
  coefBank : Nat := 0
  /-- coefficients, R157: the set in use before, for lines numbered under it. Reset empty (R71). -/
  coefPrev : CoefSet := {}
  /-- list, R157: the changes that wait for their line, oldest first. Reset empty (R71). -/
  coefNext : List CoefChange := []
  /-- 40 bits, R157, R414: the line whose stamp, still to come, says which changes take effect at it. Reset none (R71). -/
  pendSwitch : Option LineSeq := none
  /-- list, R437: 64-byte words of the flat-field set in use found with commons parity. Reset empty (R71). -/
  badWords : List Nat := []
  /-- list, R437: the same of the set in use before, while lines numbered under it are in assembly. Reset empty (R71). -/
  badPrev : List Nat := []
  deriving DecidableEq, Repr, Inhabited

/-! ### Compute-in-memory arrays and the sentinel -/

/-- A column trim word (R177): gain G and offset F. -/
structure Trim where
  /-- 16 bits, R177: gain, 32,768 for 1.0. -/
  g : Nat := 32768
  /-- 16 bits signed, R177: offset in 1/256 code. -/
  f : Int := 0
  deriving DecidableEq, Repr, Inhabited

/-- Sums of a drift-tracker block (R183). -/
structure DriftBlock where
  /-- 9 bits, R183: active phases in the block. -/
  phases : Nat := 0
  /-- sum, R183: REF0 codes. -/
  z : Int := 0
  /-- sum, R183: ideal codes of REF1 to REF3 in 1 to 62. -/
  e : Int := 0
  /-- sum, R183: their codes. -/
  s : Int := 0
  /-- count, R183: how many. -/
  k : Nat := 0
  deriving DecidableEq, Repr, Inhabited

/-- One compute-in-memory array (R167, R177, R183). -/
structure CimArray where
  /-- 256 × 64 or 512 × 128 cells, R167: rows as bit strings. Reset DESIGN CHOICE 1: all 0 until step 10 writes them (R168). -/
  rows : List (BitVec 128) := []
  /-- trims, R177: data columns then REF0 to REF3. Reset DESIGN CHOICE 1: empty until step 10. -/
  trims : List Trim := []
  /-- trims, R182: of the reference sweep of step 10. Reset DESIGN CHOICE 1: empty. -/
  provisional : List Trim := []
  /-- 32 bits signed, R183: tracker offset d_o. Reset 0 (R183). -/
  dO : Int := 0
  /-- 32 bits signed, R183: tracker gain d_g. Reset 0 (R183). -/
  dG : Int := 0
  /-- sums, R183: the block being filled. Reset zero (R183). -/
  block : DriftBlock := {}
  /-- list, R183: complete blocks of 256 active phases not yet applied. Reset empty (R183). -/
  full : List DriftBlock := []
  /-- 1 bit, R184: drift has been reported and not returned within half the limits. Reset false (R184). -/
  reported : Bool := false
  /-- 1 bit, R184: the array is out of trim. Reset false (R62). -/
  outOfTrim : Bool := false
  /-- sums, R182: of the sweep trims fitted in the calibration window, with their number. Reset empty (R71). -/
  sweepSum : List (Int × Int) := []
  /-- count, R182: sweeps in the sum. Reset 0 (R71). -/
  sweepCount : Nat := 0
  deriving DecidableEq, Repr, Inhabited

/-- The sentinel (R186 to R192). -/
structure Sentinel where
  /-- 40 arrays, R167. Reset as CimArray. -/
  arrays : Vector CimArray 40 := Vector.replicate 40 {}
  /-- count, R191: next swath to screen. Reset 0 (R71). -/
  nextSwath : Nat := 0
  /-- count, R192: the 10 ms tick of the wall timebase whose line watch took last. Reset DESIGN CHOICE 1: 0. -/
  watchTick : Nat := 0
  /-- 16 bits, R343: clamped data columns of step 10. Reset 0 (R343). -/
  clamped : Nat := 0
  /-- 16 bits signed, R190: effective basting threshold. Reset DESIGN CHOICE 1: 0 until step 10. -/
  threshold : Int := 0
  deriving DecidableEq, Repr, Inhabited

/-! ### Sequencers and panels -/

/-- A level of the loop stack (R225, R226). -/
structure LoopLevel where
  /-- 16 bits, R226: iterations. -/
  count : Nat := 0
  /-- 16 bits, R226: the loop index. -/
  idx : Nat := 0
  /-- 13 bits, R226: first instruction of the body. -/
  first : Nat := 0
  /-- 13 bits, R226: last instruction of the body. -/
  last : Nat := 0
  deriving DecidableEq, Repr, Inhabited

/-- A resource of R247: a byte range [lo, hi) of a store, an accumulator bank, VQ or a token counter. -/
inductive Res where
  | scratch (lo hi : Nat) | commons (lo hi : Nat) | hbm (lo hi : Nat)
  | fileA (array lo hi : Nat) | fileB (array lo hi : Nat)
  | acc (bank : Nat) | vq | token (k : Nat)
  deriving DecidableEq, Repr, Inhabited

/-- A unit of a panel (R228 to R245). -/
inductive PUnit where
  | seq | move | stream | array (n : Nat) | lattice (n : Nat) | vector
  deriving DecidableEq, Repr, Inhabited

/-- An instruction still outstanding (R225): its unit, last busy cycle plus one, completion cycle, and
the resources it reads and writes. -/
structure Outst where
  /-- 13 bits, R225: its place in the program. -/
  pc : Nat := 0
  /-- enumeration, R246: the unit it holds. -/
  unit : PUnit := .seq
  /-- cycles, R246: issue cycle t. -/
  issue : Nat := 0
  /-- cycles, R246: t + B. -/
  free : Nat := 0
  /-- cycles, R246: E. -/
  done : Nat := 0
  /-- list, R247: resources it reads. -/
  reads : List Res := []
  /-- list, R247: resources it writes. -/
  writes : List Res := []
  /-- bank, R233: that of an MM, for chaining. -/
  mmBank : Option Nat := none
  /-- list, R248: its scratch accesses as (cycle, bank, class of R197). -/
  accs : List (Nat × Nat × Nat) := []
  /-- 1 bit, R239: the COMBINE's E waits for the other contributors. -/
  openTree : Bool := false
  deriving DecidableEq, Repr, Inhabited

/-- A sequencer (R225, R251). -/
structure Sequencer where
  /-- 1 bit, R225: it has started and may issue. Reset false (R515). -/
  active : Bool := false
  /-- 13 bits, R225: program counter. Reset 0 (R225). -/
  pc : Nat := 0
  /-- 4 levels, R226: the loop stack, innermost first. Reset empty (R225). -/
  loops : List LoopLevel := []
  /-- 32 × 16 bits, R225: token counters. Reset 0 (R225). -/
  tokens : List Nat := List.replicate 32 0
  /-- list, R240: increments in flight as (token, increment, cycle of arrival), oldest first. Reset empty (R225). -/
  flying : List (Nat × Nat × Nat) := []
  /-- list, R240, R246: increments that have arrived and are not yet consumed, as in `flying`. Reset empty (R225). -/
  came : List (Nat × Nat × Nat) := []
  /-- ps, R246: when its cycle 0 was. Reset DESIGN CHOICE 1: 0. -/
  origin : Nat := 0
  /-- cycles, R246: issue cycle of the last instruction. Reset none (R246). -/
  lastIssue : Option Nat := none
  /-- cycles, R242, R243: no instruction issues before it. Reset 0 (R246). -/
  floor : Nat := 0
  /-- cycles, R242: the latest E so far. Reset 0 (R246). -/
  latest : Nat := 0
  /-- list, R225: the instructions still outstanding. Reset empty (R225). -/
  outst : List Outst := []
  /-- list, R233: issue cycle of the last instruction on each array, as (array, cycle). Reset empty (R225). -/
  onArray : List (Nat × Nat) := []
  /-- 1 bit, R242: HALT has completed. Reset false (R225). -/
  halted : Bool := false
  deriving DecidableEq, Repr, Inhabited

/-- A slot run of a panel group (R243, R311 to R314, R421). -/
structure SlotRun where
  /-- 64 bits, R311: the window taken, none when the run is empty. -/
  tag : Option Tag := none
  /-- 40 bits, R311: reference line of the window. -/
  ref : LineSeq := 0
  /-- 8 bits, R311: its patch. -/
  patch : Nat := 0
  /-- count, R305: its admission ordinal. -/
  ordinal : Nat := 0
  /-- 48 bits, R306: its position p_e. -/
  pe : Pos := 0
  /-- 16 bits, R243: the slot id. -/
  slotId : Nat := 0
  /-- cycles, R243: C of the SLOT. -/
  cost : Nat := 0
  /-- list, R244: panels that have issued this SLOT and not yet ended its span. -/
  panels : List Nat := []
  /-- panels that have ended the span. -/
  ended : List Nat := []
  /-- 1 bit, R428: a replay. -/
  replay : Bool := false
  /-- 32 bits, R421: fault id of the mark. -/
  mark : Option (BitVec 32) := none
  /-- code, R422: what the mark waits for: 0 at once, 2 stream line, 3 HBM word, 4 awaiting halo; 5 nothing more, since the
  repair failed (R424). -/
  holdOn : Nat := 0
  /-- list, R426: keys of what the mark waits for. -/
  holdKeys : List Nat := []
  /-- 1 bit, R313: a line was gone or lost. -/
  linesLost : Bool := false
  /-- 1 bit, R313: a halo entry or neighbour place was missing. -/
  haloBad : Bool := false
  /-- 1 bit, R313: a line or entry was damaged, oversize or over-rate. -/
  damaged : Bool := false
  /-- list, R421: (side, line) of awaiting halo entries read; side 0 west, 1 east. -/
  awaited : List (Nat × Nat) := []
  /-- verdict, R314: (kind, class, score) of the first VERDICT. -/
  verdict : Option (Nat × Nat × Int) := none
  /-- list, R344: history contribution of the first VERDICT, none when it carried none. -/
  contribution : Option (List Byte) := none
  deriving DecidableEq, Repr, Inhabited

/-- A panel (R195). -/
structure Panel where
  /-- sequencer, R225. Reset as Sequencer. -/
  seq : Sequencer := {}
  /-- 1.5 MB as cells, R195: scratch. Reset DESIGN CHOICE 3: every unlisted byte reads 0. -/
  scratch : List Host.Cell := []
  /-- list, R196: scratch bytes whose parity bit disagrees. Reset empty (R71). -/
  badParity : List Nat := []
  /-- 4 × 16 KB as cells, R195: A operand files, array a's byte b at 16,384 a + b. Reset DESIGN CHOICE 3: 0. -/
  fileA : List Host.Cell := []
  /-- 4 × 16 KB as cells, R195: B operand files. Reset DESIGN CHOICE 3: 0. -/
  fileB : List Host.Cell := []
  /-- 8 banks of 1,024 × 32 bits, R195: accumulators, bank b of array a at index 2a + b, row order. Reset DESIGN CHOICE 3: 0. -/
  acc : Vector (List (BitVec 32)) 8 := Vector.replicate 8 []
  /-- up to 1,024 × 32 bits, R225: the vector queue. Reset empty (R225). -/
  vq : List (BitVec 32) := []
  /-- 8 codes, R201: format of each bank's words, INT32 or FP32. Reset DESIGN CHOICE 1: INT32. -/
  accFmt : Vector Nat 8 := Vector.replicate 8 4
  /-- code, R207: format of the words in VQ, INT32 or FP32. Reset DESIGN CHOICE 1: INT32. -/
  vqFmt : Nat := 4
  /-- 16 bits, R204: saturation count. Reset 0 (R343). -/
  saturated : Nat := 0
  /-- 8 × 32 bits, R291: blocks encoded at each shave level. Reset 0 (R343). -/
  encoded : List Nat := List.replicate 8 0
  /-- slot, R243: (start of body, end of body, cycle t_s + C) of the slot span the panel is in. Reset none (R225). -/
  span : Option (Nat × Nat × Nat) := none
  deriving DecidableEq, Repr, Inhabited

/-- The control sequencer (R251, R452). -/
structure Control where
  /-- sequencer, R251. Reset as Sequencer. -/
  seq : Sequencer := {}
  /-- 1 bit, R452: it runs on the PLL. Reset false, on FRC (R74). -/
  onPll : Bool := false
  /-- 1 bit, R251: PLLSW has requested the switch. Reset false (R71). -/
  wantPll : Bool := false
  /-- 5 bits, R251: events that have occurred since the last WAITE. Reset 0 (R71). -/
  events : BitVec 5 := 0
  /-- 5 bits, R251: mask of a WAITE that waits. Reset none (R71). -/
  waiting : Option (BitVec 5) := none
  /-- 8 entries, R452: entry-point events pending. Reset none pending (R71). -/
  pendingEntry : List Nat := []
  deriving DecidableEq, Repr, Inhabited

/-! ### Commons, HBM, tables and history -/

/-- State of a pinned range (R230, R231). -/
inductive PinState where
  | unfilled | filling | filled
  deriving DecidableEq, Repr, Inhabited

/-- A pinned HBM range (R231, R264). -/
structure PinRange where
  /-- 34 bits, R231: first byte of the range. -/
  lo : Nat := 0
  /-- 34 bits, R231: end of the range. -/
  hi : Nat := 0
  /-- list, R231: the commons lines that hold it. -/
  lines : List Nat := []
  /-- enumeration, R230: fill state. -/
  st : PinState := .unfilled
  /-- 4 bits, R264: panel that fills it. -/
  panel : Nat := 0
  /-- 1 bit, R231: FREE has issued. -/
  freeing : Bool := false
  /-- cycle at which the fill completes (R230), in the count that all panels share. -/
  doneAt : Nat := 0
  /-- panel and issue cycle of the STREAMW that fills it (R230). -/
  filler : Nat × Nat := (0, 0)
  /-- windows whose instances started the fill or joined it (R421). -/
  readers : List Tag := []
  /-- stream lines with commons parity awaiting refill (R425), oldest first. -/
  bad : List Nat := []
  /-- uncorrectable HBM words that the fill delivered, with their fault ids (R421). -/
  poison : List (Nat × BitVec 32) := []
  deriving DecidableEq, Repr, Inhabited

/-- A reduction tree in the commons (R239, R267). -/
structure Tree where
  /-- 16 bits, R239: tree id. -/
  id : Nat := 0
  /-- 5 bits, R239: contributors. -/
  g : Nat := 0
  /-- 11 bits, R239: descriptor D. -/
  desc : Nat := 0
  /-- byte addresses of the result tile's elements in transfer order, and where the staging starts. -/
  addrs : List Nat := []
  /-- address, R267: where contributions stage. -/
  staging : Nat := 0
  /-- 8 bits, R239: element format. -/
  fmt : Nat := 0
  /-- count, R239: W. -/
  words : Nat := 0
  /-- contributions so far as (contributor index, panel, issue cycle, end of its transfer in the count that all panels
  share). -/
  parts : List (Nat × Nat × Nat × Nat) := []
  /-- tags of the slot runs that contributed (R245, R438). -/
  tags : List Tag := []
  deriving DecidableEq, Repr, Inhabited

/-- The commons (R262 to R267). -/
structure Commons where
  /-- 8 MB as cells, R252. Reset DESIGN CHOICE 3: every unlisted byte reads 0. -/
  mem : List Host.Cell := []
  /-- list, R262: bytes whose parity bit disagrees. Reset empty (R71). -/
  badParity : List Nat := []
  /-- list, R231: the pinned state. Reset empty (R265). -/
  pins : List PinRange := []
  /-- list, R263: the stream lines, which PIN allocates from. Reset empty until step 6 (R71). -/
  stream : List Nat := []
  /-- list, R239: trees under way. Reset empty (R71). -/
  trees : List Tree := []
  deriving DecidableEq, Repr, Inhabited

/-- HBM (R269 to R272). -/
structure Hbm where
  /-- 16 GB as cells, R252. Reset DESIGN CHOICE 3: every unlisted byte reads 0. -/
  mem : List Host.Cell := []
  /-- list, R271: error pattern of a 256-bit word, by word number. Reset empty (R71). -/
  errors : List (Nat × BitVec 256) := []
  /-- list, R424: words under repair, oldest first, with the fault id. Reset empty (R71). -/
  repairs : List (Nat × BitVec 32) := []
  /-- 1 bit, R272: contents were lost, so a reload is under way or due. Reset false (R71). -/
  lost : Bool := false
  /-- ps, R272: when the reload began. Reset DESIGN CHOICE 1: 0. -/
  reloadFrom : Nat := 0
  /-- 32 bits, R271: corrected words. Reset 0 (R343). -/
  corrected : Nat := 0
  /-- 32 bits, R270: completed scrub passes. Reset 0 (R343). -/
  scrubs : Nat := 0
  /-- list, R270: 256-byte blocks patrolled in the present pass, as ascending ranges [a, b) apart from each other. Reset
  empty (R71). -/
  patrol : List (Nat × Nat) := []
  deriving DecidableEq, Repr, Inhabited

/-- A code table of the table store (R279 to R302). -/
structure CodeTable where
  /-- 32 bits, R279: tensor id. -/
  tid : Nat := 0
  /-- 8 bits, R279: element format. -/
  fmt : Nat := 0
  /-- 8 bits, R279: bits a value. -/
  budget : Nat := 0
  /-- lengths of the symbols, symbol 0 first. -/
  lens : List Nat := []
  /-- exact counts of the symbols (R283, R294). -/
  counts : List Nat := []
  /-- 1 bit, R281: it came with TABL or the weights. -/
  shipped : Bool := false
  /-- 1 bit, R295: it is in force. -/
  frozen : Bool := false
  /-- 1 bit, R295: too few values, so it kept the default lengths. -/
  keptDefault : Bool := false
  /-- CRC-32 stored with the table (R302). -/
  crc : BitVec 32 := 0
  /-- a damaged table keeps its stored bits, which no rule fixes (R302). -/
  damaged : Bool := false
  deriving DecidableEq, Repr, Inhabited

/-- The table store and the calibration window (R278, R294 to R296). -/
structure Tables where
  /-- up to 1,024 tables, R277. Reset empty (R278). -/
  store : List CodeTable := []
  /-- 48 bits, R295: P_f. Reset none (R278). -/
  pf : Option Pos := none
  /-- 48 bits, R296: P_s. Reset none (R278). -/
  ps : Option Pos := none
  /-- 40 bits, R296: the switch line S_t. Reset none (R278). -/
  switchLine : Option LineSeq := none
  /-- 1 bit, R294: counting is open. Reset true (R278). -/
  counting : Bool := true
  /-- 1 bit, R295: the build is under way. Reset false (R278). -/
  building : Bool := false
  /-- 48 bits, R298: stamp of line 0 and of line Wc − 1. Reset none (R278). -/
  firstStamp : Option Pos := none
  /-- 48 bits, R298: stamp of line Wc − 1. Reset none (R278). -/
  lastStamp : Option Pos := none
  /-- 1 bit, R90: the calibration window is open. Reset false until READY (R94). -/
  windowOpen : Bool := false
  /-- 16 bits, R285: tensors on the flat table. Reset 0 (R343). -/
  flatTensors : Nat := 0
  /-- 16 bits, R295: ids kept default. Reset 0 (R343). -/
  keptDefaults : Nat := 0
  deriving DecidableEq, Repr, Inhabited

/-- A history segment or a neighbour's copy (R320, R409). -/
structure Segment where
  /-- 48 bits, R320: first position. -/
  start : Pos := 0
  /-- 0 local, 1 the west neighbour's, 2 the east neighbour's. -/
  side : Nat := 0
  /-- elements merged so far, as stored bytes (R321). -/
  merged : List Byte := []
  /-- 1 bit, R321: sealed. -/
  sealed_ : Bool := false
  /-- stored fixed-rate blocks (R297). -/
  stored : List Byte := []
  /-- 48 bits, R321: expiry position. -/
  expiry : Pos := 0
  /-- 1 bit, R321: its eviction has been told to the neighbours. -/
  noticed : Bool := false
  /-- R437, R410: absent from now on. -/
  absent : Bool := false
  /-- R437: a fault in its place made it absent. -/
  damaged : Bool := false
  deriving DecidableEq, Repr, Inhabited

/-- The periodic-defect history (R320 to R323). -/
structure History where
  /-- list, R321: segments. Reset empty (R71). -/
  segs : List Segment := []
  /-- 48 bits, R322: the position at READY. Reset DESIGN CHOICE 1: 0. -/
  readyPos : Pos := 0
  /-- 48 bits, R322, R399: the position at which the local store last started from the image. Reset DESIGN CHOICE 1: 0. -/
  restart : Pos := 0
  /-- 32 bits, R321: discarded contributions. Reset 0 (R343). -/
  discarded : Nat := 0
  deriving DecidableEq, Repr, Inhabited

/-! ### Windows, groups, records, event port and markers -/

/-- State of a ledger entry (R419). -/
inductive WinState where
  | waiting | ready | taken | held | replayReady
  deriving DecidableEq, Repr, Inhabited

/-- A ledger entry (R419) with what its examination has found so far. -/
structure Window where
  /-- 64 bits, R306: tag. -/
  tag : Tag := 0
  /-- count, R305: admission ordinal. -/
  ordinal : Nat := 0
  /-- 40 bits, R304: reference line. -/
  refLine : LineSeq := 0
  /-- 48 bits, R306: position p_e. -/
  pe : Pos := 0
  /-- 8 bits, R304: patch. -/
  patch : Nat := 0
  /-- enumeration, R419: state of the entry. -/
  st : WinState := .waiting
  /-- up to four fault ids that have caused a replay. -/
  faultIds : List (BitVec 32) := []
  /-- R317: admitted under the degraded schedule. -/
  degraded : Bool := false
  /-- R422: what a held window waits for, as SlotRun.holdOn. -/
  holdOn : Nat := 0
  /-- R422: keys of the hold: lines, words, or side × 2⁴⁰ + line. -/
  holdKeys : List Nat := []
  /-- R402: the grace window in force for it. -/
  grace : Nat := 0
  /-- R426: (side, start) of the neighbour places its view included. -/
  places : List (Nat × Pos) := []
  /-- R437: its view included a segment found damaged. -/
  viewDamaged : Bool := false
  /-- R313: the places of its view, by number, that were included and had not arrived. -/
  missing : List Nat := []
  deriving DecidableEq, Repr, Inhabited

/-- A panel group that serves windows (R310). -/
structure Group where
  /-- 1 bit, R310: in span. Reset false (R71). -/
  inSpan : Bool := false
  /-- 1 bit, R310: its panels are being voted on. Reset false (R71). -/
  starting : Bool := false
  /-- 1 bit, R310: the span ends at the next SLOT. Reset false (R71). -/
  ending : Bool := false
  /-- wall-ps, R310: when the span started or the group last took a window. Reset DESIGN CHOICE 1: 0. -/
  busyWall : Nat := 0
  /-- slot run, R243. Reset none (R71). -/
  run : Option SlotRun := none
  deriving DecidableEq, Repr, Inhabited

/-- Lookback bookkeeping (R305 to R314, R419). -/
structure Lookback where
  /-- up to 8,192 entries, R419: the job ledger. Reset empty (R71). -/
  ledger : List Window := []
  /-- count, R305: next admission ordinal. Reset 0 (R305). -/
  nextOrdinal : Nat := 0
  /-- list, R305: reference lines of windows admitted, newest first. Reset empty (R305). -/
  admitted : List LineSeq := []
  /-- The panel groups of R310, each at its lowest panel. Reset as Group. -/
  groups : Vector Group 16 := Vector.replicate 16 {}
  /-- 32 bits each, R343: discarded closure attempts, discarded VERDICTs, windows refused. Reset 0 (R343). -/
  dupClosures : Nat := 0
  /-- 32 bits, R343: discarded VERDICTs. Reset 0 (R343). -/
  dupVerdicts : Nat := 0
  /-- 32 bits, R343: windows refused. Reset 0 (R343). -/
  refused : Nat := 0
  /-- wall-ps, R310: when a window last ceased to be pending. Reset DESIGN CHOICE 1: 0. -/
  pendingWall : Nat := 0
  /-- 16 bits, R439: ledger high-water. Reset 0 (R343). -/
  highWater : Nat := 0
  /-- 32 bits each, R439: instances marked, replays run, replays closed by STITCH or UNPICK, windows closed with cause 3, replays closed with cause 4 or 5. Reset 0 (R343). -/
  marked : Nat := 0
  /-- 32 bits, R439: replays run. Reset 0 (R343). -/
  replays : Nat := 0
  /-- 32 bits, R439: replays closed by STITCH or UNPICK. Reset 0 (R343). -/
  replayClosed : Nat := 0
  /-- 32 bits, R439: windows closed with cause 3. Reset 0 (R343). -/
  slackClosed : Nat := 0
  /-- 32 bits, R439: replays closed with cause 4 or 5. Reset 0 (R343). -/
  replayLost : Nat := 0
  deriving DecidableEq, Repr, Inhabited

/-- An event record (R324); `body` holds bytes 0x10 to 0x1F, byte 0x10 in bits 7:0. -/
structure Record where
  /-- 8 bits, R324: record type. -/
  type : Nat := 0
  /-- 8 bits, R324: flags. -/
  flags : BitVec 8 := 0
  /-- 16 bits, R324: address of the device that formed it. -/
  source : Addr := 0
  /-- 32 bits, R325: event sequence number. -/
  seqNo : BitVec 32 := 0
  /-- 40 bits, R325: timestamp. -/
  timestamp : BitVec 40 := 0
  /-- 8 bits, R324: sub-code. -/
  sub : Nat := 0
  /-- 16 bits, R324: small field. -/
  small : BitVec 16 := 0
  /-- 16 bytes, R326: body. -/
  body : BitVec 128 := 0
  deriving DecidableEq, Repr, Inhabited

/-- A record in the queue with its ticket (R329). -/
structure Entry where
  /-- 16 bits, R329: ticket. -/
  ticket : BitVec 16 := 0
  /-- record, R324: the record. -/
  record : Record := {}
  /-- 1 bit, R337: it has been returned by read events. -/
  returned : Bool := false
  deriving DecidableEq, Repr, Inhabited

/-- The loss accumulator (R331). -/
structure Loss where
  /-- 32 bits, R331: records discarded. -/
  discarded : Nat := 0
  /-- 16 bits, R331: of them BASTE. -/
  baste : Nat := 0
  /-- 16 bits, R331: closing records, FAULT and BOLT. -/
  closing : Nat := 0
  /-- 16 bits, R331: others. -/
  others : Nat := 0
  /-- 16 bits, R331: ticket place of the first. -/
  ticket : BitVec 16 := 0
  deriving DecidableEq, Repr, Inhabited

/-- The event unit's queue (R325, R329 to R332, R516). -/
structure Events where
  /-- 8,192 entries, R329: records in ticket order. Reset empty (R71). -/
  queue : List Entry := []
  /-- 16 bits, R329: next ticket. Reset 0 (R329). -/
  nextTicket : BitVec 16 := 0
  /-- 32 bits, R325: next event sequence number. Reset 0 (R325). -/
  nextSeq : BitVec 32 := 0
  /-- 16 bits, R337: ticket of the newest record returned. Reset none (R71). -/
  returned : Option (BitVec 16) := none
  /-- counts, R331: loss accumulator. Reset zero (R71). -/
  loss : Loss := {}
  /-- 32 bits, R343: records discarded. Reset 0 (R343). -/
  discarded : Nat := 0
  /-- up to 32 records, R516: held in the thimble in cause order. Reset empty (R71). -/
  held : List Record := []
  /-- list, R435: last sequence number entered per relayed source. Reset empty (R71). -/
  lastOf : List (Addr × BitVec 32) := []
  deriving DecidableEq, Repr, Inhabited

/-- The event port (R333 to R341). -/
structure Port where
  /-- 24 bits, R341: high-half latch. Reset 0 (R341). -/
  latch : BitVec 24 := 0
  /-- bytes, R334: the response driven to the last transaction; empty when EVT_SDO stayed at high impedance. Reset empty (R36). -/
  response : List Byte := []
  deriving DecidableEq, Repr, Inhabited

/-- Stage of a marker fire (R345, R346, R348). -/
inductive FireStage where
  | formed | pending | due | pulse
  deriving DecidableEq, Repr, Inhabited

/-- A marker fire (R345). -/
structure Fire where
  /-- 3 bits, R345: marker. -/
  marker : Nat := 0
  /-- 48 bits, R345: target position. -/
  target : Pos := 0
  /-- 64 bits, R345: tag of the closing record. -/
  tag : Tag := 0
  /-- enumeration, R345: its stage. -/
  stage : FireStage := .formed
  /-- ps, R346: when the pulse started. -/
  startedAt : Nat := 0
  /-- 32 bits, R346: pulse width in µs. -/
  widthUs : Nat := 0
  deriving DecidableEq, Repr, Inhabited

/-- The marker scheduler (R345 to R348). -/
structure Markers where
  /-- list, R345: fires from the closing record on, oldest first. Reset empty (R71). -/
  fires : List Fire := []
  /-- 1 bit, R348: markers are held inactive until the next reset exit. Reset false (R348). -/
  inhibited : Bool := false
  deriving DecidableEq, Repr, Inhabited

/-! ### Seam links and the bolt -/

/-- State of a seam port's link (R357, R376, R380, R471). -/
inductive LinkState where
  | unpowered | detect | lock | identify | deskew | measure | ready | up | standby | off | idleFailed
  deriving DecidableEq, Repr, Inhabited

/-- A message of the flit layer (R364). -/
structure Message where
  /-- 2 bits, R361: virtual channel. -/
  vc : Nat := 0
  /-- 8 bits, R365: message type. -/
  type : Nat := 0
  /-- 16 bits, R364: destination. -/
  dest : Addr := 0
  /-- 16 bits, R364: source. -/
  source : Addr := 0
  /-- payload of the flits, 48 bytes each. -/
  payload : List Byte := []
  /-- ps, R391: when its last flit arrived. -/
  atClock : Nat := 0
  /-- 0 E, 1 W, 2 N, 3 S: the port it arrived on. -/
  port : Nat := 0
  deriving DecidableEq, Repr, Inhabited

/-- A flit queued or sent, before its acknowledgement fields (R361, R363). -/
structure OutFlit where
  /-- 2 bits, R361: data, control or idle. -/
  kind : Nat := 0
  /-- 2 bits, R361: virtual channel. -/
  vc : Nat := 0
  /-- 1 bit, R361: first flit of a message. -/
  start : Bool := false
  /-- 1 bit, R361: last flit of a message. -/
  last : Bool := false
  /-- 8 bits, R365: message type. -/
  type : Nat := 0
  /-- 16 bits, R364: destination. -/
  dest : Addr := 0
  /-- 16 bits, R364: source. -/
  source : Addr := 0
  /-- 48 bytes, R361: payload. -/
  payload : List Byte := []
  /-- 12 bits, R360: sequence number. -/
  seqNo : BitVec 12 := 0
  /-- the halo or replay line it carries, for R433. -/
  line : Option LineSeq := none
  /-- ps, R391: arrival of a forwarded TICK, for its residence; none otherwise. -/
  arrived : Option Nat := none
  /-- port, R367: whose buffer slot a message forwarded from there still holds; none of the device's own. -/
  holds : Option SeamId := none
  deriving DecidableEq, Repr, Inhabited

/-- A sent flit in the retry buffer (R372). -/
structure SentFlit where
  /-- flit, R372: the flit as sent. -/
  flit : OutFlit := {}
  /-- ps, R372: when it was last sent. -/
  sentAt : Nat := 0
  deriving DecidableEq, Repr, Inhabited

/-- A retry episode (R373). -/
structure Episode where
  /-- 12 bits, R373: oldest unacknowledged flit. -/
  flit : BitVec 12 := 0
  /-- ps, R373: when the episode began. -/
  since : Nat := 0
  /-- count, R373: go-backs in it. -/
  goBacks : Nat := 0
  deriving DecidableEq, Repr, Inhabited

/-- Progress of a low-power entry (R377). -/
inductive SleepPhase where
  | none | requested (target : Nat) | agreed (target : Nat)
  deriving DecidableEq, Repr, Inhabited

/-- A seam port (R349 to R380). -/
structure Seam where
  /-- enumeration, R376: link state. Reset unpowered (R36). -/
  link : LinkState := .unpowered
  /-- ps, R357: when the present training state began. Reset DESIGN CHOICE 1: 0. -/
  stateSince : Nat := 0
  /-- ps, R357: when training left DETECT. Reset none (R71). -/
  leftDetect : Option Nat := none
  /-- 4 bits, R358: inverted lanes. Reset 0 (R376). -/
  inverted : BitVec 4 := 0
  /-- 1 bit, R358: lanes are reversed. Reset false (R376). -/
  reversed : Bool := false
  /-- ns, R359: round trip ρ. Reset none (R376). -/
  rho : Option Nat := none
  /-- 1 bit, R376: leaving STANDBY, so LOCK to READY only. Reset false (R71). -/
  quick : Bool := false
  /-- 12 bits, R360: next transmit sequence number. Reset 0 (R360). -/
  txSeq : BitVec 12 := 0
  /-- 12 bits, R360: expected receive sequence number. Reset 0 (R360). -/
  rxSeq : BitVec 12 := 0
  /-- up to 128 flits, R372: retry buffer, oldest first. Reset empty (R360). -/
  retry : List SentFlit := []
  /-- list, R368: flits that a go-back must resend, oldest first. Reset empty (R71). -/
  resend : List (BitVec 12) := []
  /-- 1 bit, R371: NAK is set in every flit sent. Reset false (R71). -/
  nak : Bool := false
  /-- ps, R374: when the first flit was discarded since a flit was last accepted. Reset DESIGN CHOICE 1: 0. -/
  nakSince : Nat := 0
  /-- (number, until), R372: NAKs ignored. Reset none (R71). -/
  ignore : Option (BitVec 12 × Nat) := none
  /-- episode, R373. Reset none (R71). -/
  episode : Option Episode := none
  /-- 4 × 8 bits, R367: data flits sent per VC since link up. Reset 0 (R360). -/
  sent : Vector (BitVec 8) 4 := Vector.replicate 4 0
  /-- 4 × 8 bits, R367: freed counts received. Reset 0 (R360). -/
  freedSeen : Vector (BitVec 8) 4 := Vector.replicate 4 0
  /-- 4 × 8 bits, R367: data flits taken into their messages here. Reset 0 (R360). -/
  taken : Vector (BitVec 8) 4 := Vector.replicate 4 0
  /-- 4 × 8 bits, R367: buffer slots freed here, as the flit last sent had them. Reset 0 (R360). -/
  freed : Vector (BitVec 8) 4 := Vector.replicate 4 0
  /-- 2 bits, R367: VC whose freed count the next flit carries. Reset 0 (R367). -/
  turn : Nat := 0
  /-- 4 lists, R368: data flits queued per VC. Reset empty (R71). -/
  queued : Vector (List OutFlit) 4 := Vector.replicate 4 []
  /-- list, R376: link-control flits queued, payload bytes 0 and 1. Reset empty (R71). -/
  control : List (Nat × Nat) := []
  /-- 4 messages, R364: message partly received per VC, with its flits counted. Reset none (R71). -/
  partly : Vector (Option (Message × Nat)) 4 := Vector.replicate 4 none
  /-- list, R364: messages delivered to the device, oldest first. Reset empty (R71). -/
  inbox : List Message := []
  /-- phase, R377: low-power entry. Reset none (R71). -/
  sleep : SleepPhase := .none
  /-- 1 bit, R377: the partner answered STAY, so this end requests no further. Reset false (R71). -/
  stayed : Bool := false
  /-- ps, R379: since when data flits of each VC wait without credit. Reset none (R71). -/
  stalled : Vector (Option Nat) 4 := Vector.replicate 4 none
  /-- 4 bits, R379: last failure cause. Reset 0 (R343). -/
  cause : Nat := 0
  /-- 32 bits, R418: fault id of the last declared failure. Reset 0: DESIGN CHOICE 1. -/
  faultId : BitVec 32 := 0
  /-- 1 bit, R430: a declared failure from which the link has not returned to the bolt. Reset false (R71). -/
  failed : Bool := false
  /-- bytes, R356: the flit last sent. Reset DESIGN CHOICE 1: empty. -/
  lastOut : List Byte := []
  /-- ns per episode, R374: (end ps, length ns) reported to the watchdog. Reset empty (R71). -/
  credits : List (Nat × Nat) := []
  /-- 40 bits, R433: last line whose halo message was acknowledged, n_ack. Reset none (R71). -/
  nAck : Option LineSeq := none
  /-- up to 512 records, R434: EVENT resend store. Reset empty (R71). -/
  resendStore : List Record := []
  /-- list, R434: records reported unacknowledged at a failure. Reset empty (R71). -/
  unacked : List Record := []
  /-- 1 bit, R434: a drop has been recorded since the last return. Reset false (R71). -/
  dropNoted : Bool := false
  /-- 32 bits, R417: records dropped from this port's resend store. Reset 0 (R343). -/
  dropped : Nat := 0
  /-- 32 bits each, R416: retry episodes, go-backs, flits discarded, failures, unroutable messages. Reset 0 (R343). -/
  episodes : Nat := 0
  /-- 32 bits, R416: go-backs. Reset 0 (R343). -/
  goBacks : Nat := 0
  /-- 32 bits, R416: flits discarded. Reset 0 (R343). -/
  badFlits : Nat := 0
  /-- 32 bits, R416: failures. Reset 0 (R343). -/
  failures : Nat := 0
  /-- 32 bits, R416: unroutable messages. Reset 0 (R343). -/
  unroutable : Nat := 0
  deriving DecidableEq, Repr, Inhabited

/-- What the bolt knows of one port's link and neighbour (R384, R405). -/
structure BoltLink where
  /-- 1 bit, R384: the link is in the bolt. Reset false (R71). -/
  inBolt : Bool := false
  /-- 1 bit, R384: it was in the bolt before a failure. Reset false (R71). -/
  everIn : Bool := false
  /-- 4 bits, R384: reason for which the latest HELLO excluded the link, 0 for none. Reset 0 (R71). -/
  excluded : Nat := 0
  /-- 1 bit, R401: the link is measured in the present sweep. Reset false (R71). -/
  measured : Bool := false
  /-- 40 bits signed, R405: line offset Δ. Reset none (R405). -/
  delta : Option Int := none
  /-- (from line, Δ), R405: the next offset. Reset none (R405). -/
  deltaNext : Option (LineSeq × Int) := none
  /-- ns, R402: adopted mean one-way latency. Reset none (R402). -/
  mean : Option Nat := none
  /-- ns, R402: adopted maximum one-way latency. Reset 0 (R402). -/
  maxOneWay : Nat := 0
  /-- list, R401: round trips less residence of the echoes of the sweep, in SEAMCLK cycles. Reset empty (R71). -/
  echoes : List Nat := []
  /-- 1 bit, R401: the link failed or left the bolt in its part of the sweep. Reset false (R71). -/
  broke : Bool := false
  /-- sums, R413: own and neighbour columns and lines summed. Reset 0 (R71). -/
  sumOwn : Nat := 0
  /-- sum, R413: the neighbour columns. Reset 0 (R71). -/
  sumNbr : Nat := 0
  /-- count, R413: lines summed. Reset 0 (R71). -/
  sumLines : Nat := 0
  /-- 1 bit, R413: the link failed or left the bolt while summing. Reset false (R71). -/
  sumBroke : Bool := false
  /-- 1 bit, R431: the first line after a return has not come. Reset false (R71). -/
  returning : Bool := false
  /-- 40 bits, R431: the number of the neighbour's line that came last. Reset none (R71). -/
  lastLine : Option LineSeq := none
  /-- 40 bits, R383: line number at the last HELLO sent. Reset DESIGN CHOICE 1: 0. -/
  helloLine : LineSeq := 0
  /-- 1 bit, R383: a HELLO is due after a realignment, a port wake or a change of state. Reset false (R71). -/
  helloDue : Bool := false
  deriving DecidableEq, Repr, Inhabited

/-- An entry of a halo ring (R273, R430). Flags: bit 0 present, 1 damaged, 2 missing, 3 awaiting replay. -/
structure HaloEntry where
  /-- 40 bits, R430: line number. -/
  seq : LineSeq := 0
  /-- 4 bits, R430: present, damaged, missing, awaiting replay. -/
  flags : BitVec 4 := 0
  /-- 16 bits a pixel, R273: the halo columns. -/
  pixels : List Nat := []
  /-- 32 bits, R430: fault id of an entry that awaits replay. -/
  faultId : BitVec 32 := 0
  deriving DecidableEq, Repr, Inhabited

/-- One halo side: ring and watchdog (R273, R430). -/
structure HaloSide where
  /-- list, R273: entries by ring position. Reset empty (R71). -/
  ring : List (Nat × HaloEntry) := []
  /-- list, R430: lines whose deadline is still to come, with the instant they entered the bobbin. Reset empty (R71). -/
  watch : List (LineSeq × Nat) := []
  deriving DecidableEq, Repr, Inhabited

/-- The bolt (R381 to R416). -/
structure BoltState where
  /-- 2 bits, R416: 0 standalone, 1 forming, 2 in bolt, 3 selvage. Reset 0: DESIGN CHOICE 1 until step 12. -/
  mode : Nat := 0
  /-- 4 bits, R415: last selvage reason. Reset 0 (R343). -/
  reason : Nat := 0
  /-- 4 links, R384: E, W, N, S. Reset as BoltLink. -/
  links : Vector BoltLink 4 := Vector.replicate 4 {}
  /-- 2 sides, R273: west, east. Reset as HaloSide. -/
  halo : Vector HaloSide 2 := Vector.replicate 2 {}
  /-- 48 bits, R393: alignment term β. Reset 0: DESIGN CHOICE 1. -/
  beta : Pos := 0
  /-- 1/256 count, R393: drift term κ. Reset 0 (R393). -/
  kappa : Int := 0
  /-- counts, R393: last e. Reset 0 (R343). -/
  lastE : Int := 0
  /-- 1 bit, R393: a forward edge has come that an inserted step may follow. Reset false (R71). -/
  insertDue : Bool := false
  /-- 1 bit, R393: the next forward edge is swallowed. Reset false (R71). -/
  swallow : Bool := false
  /-- count, R393: forward counts since the last correction step. Reset DESIGN CHOICE 1: 256, so the first step is free. -/
  sinceStep : Nat := 256
  /-- 32 bits, R416: correction steps. Reset 0 (R343). -/
  steps : Nat := 0
  /-- 48 bits, R394: follower counter (thimble). Reset 0: DESIGN CHOICE 1. -/
  follower : Pos := 0
  /-- edge times of the follower, R20, R28. Reset as EdgeClock. -/
  followEdges : EdgeClock := {}
  /-- 48 bits, R394: the follower's target. Reset 0: DESIGN CHOICE 1. -/
  target : Pos := 0
  /-- ps, R394: last follower move. Reset DESIGN CHOICE 1: 0. -/
  lastMove : Nat := 0
  /-- 1 bit, R394: the follower has been loaded. Reset false (R71). -/
  loaded : Bool := false
  /-- count, R397: consecutive usable TICKs toward joining. Reset 0 (R71). -/
  usable : Nat := 0
  /-- 48 bits, R397: β set at the first of them. Reset 0: DESIGN CHOICE 1. -/
  betaNew : Pos := 0
  /-- 1/256 count, R393, R397: κ since then. Reset 0: DESIGN CHOICE 1. -/
  kappaNew : Int := 0
  /-- count, R395: consecutive usable TICKs with |e| > 2. Reset 0 (R71). -/
  apart : Nat := 0
  /-- ps, R395: arrival of the last usable TICK. Reset DESIGN CHOICE 1: 0. -/
  lastTick : Nat := 0
  /-- 32 bits, R392: sequence number of the last usable TICK. Reset none (R71). -/
  tickSeq : Option (BitVec 32) := none
  /-- 32 bits, R390: sequence number of the next TICK sent. Reset 0: DESIGN CHOICE 1. -/
  sendSeq : BitVec 32 := 0
  /-- ps, R389: instant of the last TICK sent. Reset none (R71). -/
  sentTick : Option Nat := none
  /-- 1 bit, R389: the position has changed since the last TICK. Reset false (R71). -/
  moved : Bool := false
  /-- counts, R402: grace window G. Reset 0: DESIGN CHOICE 1 until step 11. -/
  grace : Nat := 0
  /-- (P_w, G, mean and maximum per measured port), R402: committed values, oldest first, each in force from its P_w on.
  Reset empty (R71). -/
  graceNext : List (Pos × Nat × List (Option (Nat × Nat))) := []
  /-- 32 bits, R401: adopted latency generation. Reset 0: DESIGN CHOICE 1. -/
  latGen : BitVec 32 := 0
  /-- 32 bits, R401: generation of the sweep this device takes part in. Reset none (R71). -/
  latRun : Option (BitVec 32) := none
  /-- count, R401: link probes sent in it. Reset 0 (R71). -/
  latSent : Nat := 0
  /-- ps, R401: last probe sent. Reset DESIGN CHOICE 1: 0. -/
  latAt : Nat := 0
  /-- master: (start ps, complete so far, greatest maximum), R401. Reset none (R71). -/
  latMaster : Option (Nat × Bool × Nat) := none
  /-- ps, R401: the master's first start, 1 s after READY, while it has not been made. Reset none (R71). -/
  latDue : Option Nat := none
  /-- 1 bit, R401: a request waits for a start at the master. Reset false (R71). -/
  latWanted : Bool := false
  /-- 32 bits and ps, R401: the generation that the master last used, and when it made that start. Reset 0 (DESIGN CHOICE 1),
  none (R71). -/
  latUsed : BitVec 32 × Option Nat := (0, none)
  /-- 32 bits, R413: adopted calibration generation. Reset 0: DESIGN CHOICE 1. -/
  calGen : BitVec 32 := 0
  /-- (generation, P_c, N_c), R413: the sweep this device takes part in. Reset none (R71). -/
  calRun : Option (BitVec 32 × Pos × Nat) := none
  /-- (F, complete), R413: factor of the west neighbour. Reset none (R71). -/
  calWest : Option (Nat × Bool) := none
  /-- 32 bits, R413: own factor F. Reset none (R71). -/
  calF : Option Nat := none
  /-- ps, R413: when the own sums were done. Reset none (R71). -/
  calSums : Option Nat := none
  /-- 1 bit, R413: the factor and report have been sent. Reset false (R71). -/
  calDone : Bool := false
  /-- sides, R413: the E/W sides whose link was in the bolt as the part began. Reset empty (R71). -/
  calSides : List (Fin 2) := []
  /-- count, R414: normal lines stamped at or ahead of P_c so far. Reset 0 (R71). -/
  calLines : Nat := 0
  /-- 1 bit, R414: the last sweep was aborted. Reset false (R71). -/
  calAborted : Bool := false
  /-- 40 bits, R413: the line at P_c. Reset none (R71). -/
  calFirst : Option LineSeq := none
  /-- master: (complete so far, ps of the last line of N_c at its own position), R414. Reset none (R71). -/
  calMaster : Option (Bool × Option Nat) := none
  /-- ps, R413: the master's last start. Reset none (R71). -/
  calLast : Option Nat := none
  /-- 1 bit, R413: the master wants a start. Reset false (R71). -/
  calWanted : Bool := false
  /-- 32 bits, R412: the generation that the master last used. Reset 0: DESIGN CHOICE 1. -/
  calUsed : BitVec 32 := 0
  /-- 1 bit, R413: the own report is complete so far. Reset true: DESIGN CHOICE 1. -/
  calOk : Bool := true
  /-- ps, R402: when the device raised READY, for the first sweep. Reset DESIGN CHOICE 1: 0. -/
  readyAt : Nat := 0
  /-- ps, R397: start of step 12. Reset DESIGN CHOICE 1: 0. -/
  formFrom : Nat := 0
  deriving DecidableEq, Repr, Inhabited

/-! ### Faults -/

/-- A fault already recorded (R418). -/
structure FaultSeen where
  /-- 8 bits, R418: cause. -/
  cause : Nat := 0
  /-- 16 bits, R418: unit. -/
  unit : Nat := 0
  /-- 48 bits, R418: location. -/
  location : Nat := 0
  /-- 40 bits, R418: line number at the detection. -/
  line : LineSeq := 0
  /-- 32 bits, R418: fault id. -/
  id : BitVec 32 := 0
  deriving DecidableEq, Repr, Inhabited

/-- Fault bookkeeping and the counters of status page 12 (R418, R439). -/
structure Faults where
  /-- list, R418: first detections. Reset empty (R71). -/
  seen : List FaultSeen := []
  /-- 32 bits each, R439, in the page's order. Reset 0 (R343). -/
  scratch : Nat := 0
  /-- 32 bits, R439: commons parity errors. Reset 0 (R343). -/
  commons : Nat := 0
  /-- 32 bits, R439: uncorrectable HBM words. Reset 0 (R343). -/
  hbm : Nat := 0
  /-- 32 bits, R439: repairs. Reset 0 (R343). -/
  repairs : Nat := 0
  /-- 32 bits, R439: repeats of recorded faults. Reset 0 (R343). -/
  repeats : Nat := 0
  /-- 32 bits, R439: declared link failures. Reset 0 (R343). -/
  linkFailures : Nat := 0
  /-- 32 bits, R439: ns without credit. Reset 0 (R343). -/
  creditNs : Nat := 0
  /-- 32 bits, R439: halo entries that awaited replay. Reset 0 (R343). -/
  awaiting : Nat := 0
  /-- 32 bits, R439: halo entries missing. Reset 0 (R343). -/
  missing : Nat := 0
  /-- 32 bits, R439: replay lines sent. Reset 0 (R343). -/
  replaySent : Nat := 0
  /-- 32 bits, R439: replay lines taken. Reset 0 (R343). -/
  replayReceived : Nat := 0
  /-- 32 bits, R439: replay lines discarded. Reset 0 (R343). -/
  replayDiscarded : Nat := 0
  /-- 32 bits, R439: EVENT records resent. Reset 0 (R343). -/
  resent : Nat := 0
  /-- 32 bits, R439: EVENT records dropped. Reset 0 (R343). -/
  resendDropped : Nat := 0
  /-- 32 bits, R439: duplicate relayed records. Reset 0 (R343). -/
  duplicates : Nat := 0
  /-- 32 bits, R439: fault id of the last FAULT record. Reset 0 (R343). -/
  lastId : BitVec 32 := 0
  deriving DecidableEq, Repr, Inhabited

/-! ### Power, clocks and temperature -/

/-- State of a power domain (R443, R447, R448, R450). -/
inductive DomState where
  | off | retention | on
  /-- voted on, on its way; `retained` says from which low state. -/
  | waking (retained : Bool)
  /-- in its entry steps; `step4` once step 4 has begun, `retained` the target. -/
  | entering (retained step4 : Bool)
  deriving DecidableEq, Repr, Inhabited

/-- A power domain (R440). -/
structure Domain where
  /-- 16 bits, R440: domain id. -/
  id : Nat := 0
  /-- enumeration, R443: its state. -/
  st : DomState := .off
  /-- wall-ps, R443: since when no on-vote has been held. -/
  unvoted : Nat := 0
  /-- ps: when the present transition began. -/
  since : Nat := 0
  deriving DecidableEq, Repr, Inhabited

/-- A client of the vote ledger (R444). -/
inductive Client where
  | web | control | controlSelf | panel (n : Nat) | group (n : Nat) | event | intake
  | build | repair | reload | commit | polling
  /-- the wake matcher of a source, named by its wake cause (R449, R467). -/
  | wake (cause : Nat)
  | flush | admission
  deriving DecidableEq, Repr, Inhabited

/-- A vote (R443). -/
structure Vote where
  /-- enumeration, R444: who votes. -/
  client : Client
  /-- 16 bits, R440: for which domain. -/
  domain : Nat
  /-- 1 bit, R443: a retain-vote, not an on-vote. -/
  retain : Bool
  deriving DecidableEq, Repr, Inhabited

/-- The web client (R445). -/
inductive WebClient where
  | idle | run | rest | deep
  deriving DecidableEq, Repr, Inhabited

/-- The always-on regulator's mode (R462). -/
inductive Regulator where
  | low | rising | normal
  deriving DecidableEq, Repr, Inhabited

/-- Power, clocks and temperature (R440 to R464). -/
structure Power where
  /-- 49 domains, R440: in the table's order. Reset off, but 0x0001 and 0x0003 waking (R515). -/
  domains : List Domain :=
    ([0x01, 0x02, 0x03, 0x04, 0x05, 0x10, 0x11, 0x12, 0x13] ++ (List.range 12).map (· + 0x20)
      ++ (List.range 16).map (· + 0x30) ++ (List.range 8).map (· + 0x40)
      ++ [0x50, 0x51, 0x52, 0x53]).map fun i => { id := i }
  /-- list, R443: the vote ledger. Reset: admission's on-votes for 0x0001 and 0x0003 (R515). -/
  votes : List Vote := []
  /-- enumeration, R445: the web client. Reset idle until READY (R445). -/
  web : WebClient := .idle
  /-- 1 bit, R446: the sentinel stays in watch until every domain of the run set is on. Reset false (R71). -/
  restoring : Bool := false
  /-- wall-ps, R445: from when the deep-rest delay counts. Reset DESIGN CHOICE 1: 0. -/
  restFrom : Nat := 0
  /-- enumeration, R462: regulator mode. Reset on its way to normal mode (R515). -/
  regulator : Regulator := .low
  /-- ps, R462: when the regulator's change began or the event domain left on. Reset DESIGN CHOICE 1: 0. -/
  regSince : Nat := 0
  /-- 1 bit, R456: the PLL runs or has been requested. Reset false (R74). -/
  pll : Bool := false
  /-- 1 bit, R456: the PLL has locked. Reset false (R74). -/
  locked : Bool := false
  /-- ps, R74: when the PLL was requested. Reset DESIGN CHOICE 1: 0. -/
  pllSince : Nat := 0
  /-- 1 bit, R455: FRC runs. Reset true (R74). -/
  frc : Bool := true
  /-- MHz, R457: core clock. Reset 0, stopped: DESIGN CHOICE 1. -/
  coreMhz : Nat := 0
  /-- 2 bits, R457: performance level in force. Reset 0: DESIGN CHOICE 1 until READY. -/
  level : Nat := 0
  /-- 6 bits, R457: VID code being stepped to. Reset 15 (R36). -/
  vidTarget : BitVec 6 := 15
  /-- ps, R457: last VID step. Reset DESIGN CHOICE 1: 0. -/
  vidSince : Nat := 0
  /-- 1 bit, R457: the clock rises when VID has settled. Reset false (R71). -/
  clockPending : Bool := false
  /-- 3 bits, R458: trim below nominal in codes. Reset 0 (R458). -/
  trim : Nat := 0
  /-- counts of 10 µs samples, R458: with margin above, and below at nominal. Reset 0 (R71). -/
  avsAbove : Nat := 0
  /-- count, R458: samples of 10 µs below at nominal. Reset 0 (R71). -/
  avsBelow : Nat := 0
  /-- 1 bit, R458: STATUS 0x19 formed for the level in force. Reset false (R71). -/
  avsNoted : Bool := false
  /-- 1/16 °C, R459: junction reading. Reset DESIGN CHOICE 1: 0. -/
  junction : Int := 0
  /-- 1/16 °C, R486: highest junction reading since the reset exit. Reset none (R71). -/
  peak : Option Int := none
  /-- counts, R459: consecutive samples at or above 100 °C and 105 °C. Reset 0 (R71). -/
  hot100 : Nat := 0
  /-- count, R459: consecutive samples at or above 105 °C. Reset 0 (R71). -/
  hot105 : Nat := 0
  /-- ps, R459: since when samples are below 95 °C. Reset none (R71). -/
  coolSince : Option Nat := none
  /-- 1 bit, R460: the degraded switch is pending. Reset false (R71). -/
  degradePending : Bool := false
  /-- 1 bit, R460: the degraded schedule is in force. Reset false (R71). -/
  degraded : Bool := false
  /-- 1 bit, R471: SEAMCLK runs. Reset true: DESIGN CHOICE 1. -/
  seamclk : Bool := true
  /-- ps, R70: instant of the supply fault that holds the device in reset. Reset none (R70). -/
  supplyFrom : Option Nat := none
  deriving DecidableEq, Repr, Inhabited

/-! ### Hold-up -/

/-- State of the hold-up supervisor (R475). -/
inductive HoldState where
  | absentByStrap | notReady | armed | absent | flushing | flushed
  deriving DecidableEq, Repr, Inhabited

/-- The hold-up supervisor (R473 to R490). -/
structure HoldUp where
  /-- enumeration, R475. Reset not ready (R475). -/
  st : HoldState := .notReady
  /-- 2 bits, R479: removal by charge without rise, by collapse. Reset 0 (R475). -/
  removal : BitVec 2 := 0
  /-- mV, R473: latest HOLD_V. Reset DESIGN CHOICE 1: 0. -/
  mv : Nat := 0
  /-- 1 bit, R473: HOLD_V has been sampled since the reset exit. Reset false (R475). -/
  seen : Bool := false
  /-- 1 bit, R473: input good. Reset DESIGN CHOICE 1: false. -/
  inputGood : Bool := false
  /-- ps, R490: since when the input is good. Reset DESIGN CHOICE 1: 0. -/
  goodSince : Nat := 0
  /-- ps, R475: since when HOLD_V ≥ 900 mV with input good. Reset none (R475). -/
  highSince : Option Nat := none
  /-- µC per mV, R476: learned K, in thimble SRAM. Reset none (R69). -/
  k : Option Nat := none
  /-- (mV, µC), R476: start of a charge and charge since. Reset none (R475). -/
  charge : Option (Nat × Int) := none
  /-- mV, µC, R478: HOLD_V at the start of the 50 ms window and charge in it. Reset 0 (R475). -/
  winMv : Nat := 0
  /-- µC, R478: charge in the window. Reset 0 (R475). -/
  winQ : Int := 0
  /-- 1 bit, R478: HOLD_V has stayed below 500 mV for the whole window. Reset false: DESIGN CHOICE 1. -/
  winLow : Bool := false
  /-- ps, R478: start of the window. Reset DESIGN CHOICE 1: 0. -/
  winFrom : Nat := 0
  /-- count, R489: consecutive samples below 500 mV while flushing. Reset 0 (R475). -/
  low : Nat := 0
  /-- µA, R488: mean discharge current over the last 1 ms. Reset DESIGN CHOICE 1: 0. -/
  meanUa : Nat := 0
  /-- 3 bits, R487: flush step. Reset 0, none (R475). -/
  step : Nat := 0
  /-- 1 bit, R487: the item of the present step has begun. Reset false (R475). -/
  began : Bool := false
  /-- 1 bit, R487: a counter entry was in progress at the power fail, or waited: it is the item of step 4. Reset false (R475). -/
  counterItem : Bool := false
  /-- ps, R487: instant of the power fail. Reset DESIGN CHOICE 1: 0. -/
  failAt : Nat := 0
  /-- items, R488: skipped items, 0 record commit, 1 counter entry. Reset empty (R475). -/
  skipped : List Nat := []
  /-- 1 bit, R487: step 3 completed a record commit. Reset false (R475). -/
  committed : Bool := false
  /-- 1 bit, R490: the flush completed step 5. Reset false (R475). -/
  completed : Bool := false
  /-- counts, R489, R490: counters 8, 9 and 10 gathered in thimble SRAM. Reset 0 (R69). -/
  sram : Nat × Nat × Nat := (0, 0, 0)
  deriving DecidableEq, Repr, Inhabited

/-! ### The whole state -/

/-- The state of the device (R1), its attached flash and HBM, and the waiting commands. -/
structure State where
  /-- commands waiting, first in first out. Reset empty. -/
  pending : List Instr := []
  /-- ps: time since power-up. Reset 0. The model's own clock, row 4 of the assumption log. -/
  clock : Nat := 0
  /-- counter of free values taken. Reset DESIGN CHOICE 5: 0. The model's own. -/
  free : Nat := 0
  /-- encoders and position, R9 to R31. Reset as Web. -/
  web : Web := {}
  /-- wall timebase, R463. Reset as Timebase. -/
  time : Timebase := {}
  /-- last-wake record, R453. Reset as LastWake. -/
  wake : LastWake := {}
  /-- decoded level pins, R40 to R58. Reset as Levels. -/
  levels : Levels := {}
  /-- latched pins, R32 to R67. Reset as Pins. -/
  pins : Pins := {}
  /-- admission, R72 to R97. Reset as Admission. -/
  adm : Admission := {}
  /-- fuses, R81 to R83. Reset as Fuses. -/
  fuses : Fuses := {}
  /-- R113: the pattern under admission or running. Reset empty (R71). -/
  pat : Pattern := {}
  /-- flash and commits, R99 and R138. Reset as Flash. -/
  flash : Flash := {}
  /-- intake, R140 to R158. Reset as Intake. -/
  intake : Intake := {}
  /-- 12 MB ring by ring position, R159. Reset empty (R71). -/
  bobbin : List (Nat × BobLine) := []
  /-- sentinel and arrays, R167 to R192. Reset as Sentinel. -/
  sentinel : Sentinel := {}
  /-- 16 panels, R195. Reset as Panel. -/
  panels : Vector Panel 16 := Vector.replicate 16 {}
  /-- control sequencer, R251. Reset as Control. -/
  control : Control := {}
  /-- commons, R262. Reset as Commons. -/
  commons : Commons := {}
  /-- HBM, R269. Reset as Hbm. -/
  hbm : Hbm := {}
  /-- table store, R277. Reset as Tables. -/
  tables : Tables := {}
  /-- history, R320. Reset as History. -/
  history : History := {}
  /-- ledger and panel groups, R305 to R314. Reset as Lookback. -/
  look : Lookback := {}
  /-- event queue, R329. Reset as Events. -/
  events : Events := {}
  /-- event port, R333. Reset as Port. -/
  port : Port := {}
  /-- marker scheduler, R345. Reset as Markers. -/
  markers : Markers := {}
  /-- 4 seam ports E, W, N, S, R349. Reset as Seam. -/
  seams : Vector Seam 4 := Vector.replicate 4 {}
  /-- the bolt, R381. Reset as BoltState. -/
  bolt : BoltState := {}
  /-- fault bookkeeping, R418. Reset as Faults. -/
  faults : Faults := {}
  /-- power, clocks and temperature, R440. Reset as Power, by Power.atExit. -/
  power : Power := {}
  /-- hold-up supervisor, R475. Reset as HoldUp. -/
  hold : HoldUp := {}
  deriving DecidableEq, Repr, Inhabited

/-- Reasons for which a step stops with a fault. -/
inductive Fault where
  /-- Raised when a tile instruction of a panel or the control sequencer names a byte that its store does
  not have (R252, R254). Admission refuses such programs (R224, R260), so a run of an admitted pattern
  never meets it. Safe: the model stops where the spec gives no access. -/
  | noSuchAddress
  deriving DecidableEq, Repr

/-- Reasons for which a command has no meaning. -/
inductive Refusal where
  /-- Raised by an arm of exec whose command has no meaning yet. Safe: the model stops. -/
  | notModelled (mnemonic : String)
  deriving DecidableEq, Repr

/-- What a command answers. -/
abbrev Result := Host.Outcome State Fault Refusal

/-- R515: power as a reset exit leaves it: every domain is off, and the control sequencer and the event domain are voted on
and on their way, the regulator with them. -/
def Power.atExit (clock : Nat) : Power :=
  let p : Power := {}
  { p with
    votes := [{ client := .admission, domain := 0x01, retain := false },
              { client := .admission, domain := 0x03, retain := false }]
    domains := p.domains.map fun d =>
      if d.id == 0x01 || d.id == 0x03 then { d with st := .waking false, since := clock } else d
    regulator := .rising, regSince := clock }

/-- The device at the reset exit that follows power-on: admission step 1 is starting (R71), the thimble is
clear (R13, R69), the last-wake cause is power-on, VID is at code 15, and no command waits. -/
def State.reset : State := { power := Power.atExit 0 }

end Sys2Proof.Machine
end

