-- ==== Sys2Proof/Machine/Codec.lean ====
section
/-! DEFINITION. Code tables, their builder, fixed-rate blocks and exponent-coded blocks (R279 to R302). -/

namespace Sys2Proof.Machine

/-! ### Symbols and codes -/

/-- R279: the symbol of an element's bits, and back. -/
def symOf (fmt bits : Nat) : Nat := if fmt = fmtI8 then (bits + 128) % 256 else bits % 256
def symBack (fmt u : Nat) : Nat := if fmt = fmtI8 then (u + 128) % 256 else u % 256

/-- R279: the zero symbol of a value format. -/
def zeroSym (fmt : Nat) : Nat := if fmt = fmtI8 then 128 else 0

/-- R282: the default table of a value format. -/
def defaultLens (fmt : Nat) : List Nat := (List.range 256).map fun s => if s = zeroSym fmt then 1 else 9

/-- R279: symbols of an exponent table. -/
def expSymbols (fmt : Nat) : Nat := if fmt = fmtFP16 then 32 else 256

/-- R282: the flat table of an exponent format. -/
def flatLens (fmt : Nat) : List Nat := List.replicate (expSymbols fmt) (if fmt = fmtFP16 then 5 else 8)

/-- A coded symbol: its value, length and code (R280). -/
structure Code where
  sym : Nat := 0
  len : Nat := 0
  code : Nat := 0
  deriving DecidableEq, Repr, Inhabited

/-- R280: the coded symbols by ascending length, then value. -/
def codeOrder (lens : List Nat) : List (Nat × Nat) :=
  (List.range 12).flatMap fun l => (lens.zipIdx.filter fun (x, _) => x == l + 1).map fun (x, s) => (s, x)

/-- R280: canonical codes along that order. -/
def assignCodes : Nat → Nat → List (Nat × Nat) → List Code
  | _, _, [] => []
  | code, prev, (s, l) :: rest =>
    let c := code * 2 ^ (l - prev)
    { sym := s, len := l, code := c } :: assignCodes (c + 1) l rest

/-- R280: the codes of a table. -/
def codesOf (lens : List Nat) : List Code :=
  let o := codeOrder lens
  assignCodes 0 ((o.headD (0, 0)).2) o

/-- R280: Σ 2^(12 − L) over the coded symbols. -/
def kraft (lens : List Nat) : Nat := (lens.map fun l => if l = 0 then 0 else 2 ^ (12 - l)).sum

/-- R280: a valid table. -/
def tableValid (lens : List Nat) : Bool :=
  lens.any (· != 0) && lens.all (fun l => decide (l ≤ 12)) && decide (kraft lens ≤ 4096)

/-- R280: a valid value table codes every symbol. -/
def valueTableValid (lens : List Nat) : Bool := tableValid lens && lens.length == 256 && lens.all (· != 0)

/-- R281: a shipped table's lengths, where its 136 bytes have their form. -/
def parseShipped (b : List Byte) : Option (List Nat) :=
  let lens := (sliceB b 8 128).flatMap fun x => [x.toNat % 16, x.toNat / 16]
  if b.length = 136 ∧ uAt b 0 2 = 256 ∧ uAt b 2 1 = 0 ∧ valueTableValid lens then some lens else none

/-- A code's bits, most significant first (R286). -/
def Code.bits (c : Code) : List Bool := (List.range c.len).map fun i => bitAt c.code (c.len - 1 - i)

/-- R286: a bit string as a number, its first bit in bit 0. -/
def bitsNat : List Bool → Nat
  | [] => 0
  | b :: bs => bit b + 2 * bitsNat bs

/-- R286: n bits of a number, bit 0 first. -/
def natBits (n v : Nat) : List Bool := (List.range n).map fun i => bitAt v i

/-- The code of a symbol, if the table codes it. -/
def codeFor (cs : List Code) (s : Nat) : Option Code := cs.find? (·.sym == s)

/-- The code bits of a list of symbols, end to end. -/
def encodeSyms (cs : List Code) (l : List Nat) : List Bool :=
  l.flatMap fun s => ((codeFor cs s).map (·.bits)).getD []

/-- The value of the first n bits, most significant first; bits beyond the end read as 0 (R300). -/
def prefixVal (bs : List Bool) (n : Nat) : Nat :=
  (List.range n).foldl (fun v i => 2 * v + bit (bs.getD i false)) 0

/-- R300: what a bit string that matches no code decodes as: the greatest value among the longest codes. -/
def lastCode (cs : List Code) : Nat := ((cs.getLast?).map (·.sym)).getD 0

/-- R292, R300: one symbol, and the bits it consumes. -/
def decodeSym (cs : List Code) (bs : List Bool) : Nat × Nat :=
  match cs.find? fun c => prefixVal bs c.len == c.code with
  | some c => (c.sym, c.len)
  | none => (lastCode cs, 12)

/-- n symbols. -/
def decodeSyms (cs : List Code) : Nat → List Bool → List Nat
  | 0, _ => []
  | n + 1, bs => let (s, l) := decodeSym cs bs; s :: decodeSyms cs n (bs.drop l)

/-! ### Building a table (R283) -/

/-- A tree of the builder: its key and the symbols under it with their depths. -/
structure HuffNode where
  count : Nat := 0
  id : Nat := 0
  leaves : List (Nat × Nat) := []
  deriving DecidableEq, Repr, Inhabited

/-- Keys compare lexicographically. -/
def HuffNode.before (a b : HuffNode) : Bool := decide (a.count < b.count) || (a.count == b.count && decide (a.id < b.id))

/-- A node placed by its key. -/
def huffInsert (x : HuffNode) : List HuffNode → List HuffNode
  | [] => [x]
  | y :: ys => if x.before y then x :: y :: ys else y :: huffInsert x ys

/-- R283 step 3: the two smallest keys merge until one tree is left. -/
def huffMerge (n : Nat) : Nat → Nat → List HuffNode → List HuffNode
  | fuel + 1, i, a :: b :: rest =>
    let deeper := (a.leaves ++ b.leaves).map fun (s, d) => (s, d + 1)
    huffMerge n fuel (i + 1) (huffInsert { count := a.count + b.count, id := n + i, leaves := deeper } rest)
  | _, _, l => l

/-- R283 step 4: the coded symbol to lengthen: greatest length below 12, then smallest count, then largest value. -/
def lengthenPick (counts lens : List Nat) : Option Nat :=
  (lens.zipIdx.foldl (fun (best : Option (Nat × Nat)) (l, s) =>
    if l = 0 ∨ 12 ≤ l then best
    else match best with
      | none => some (l, s)
      | some (bl, b) =>
        let cs := counts.getD s 0
        let cb := counts.getD b 0
        if bl < l ∨ (bl = l ∧ cs ≤ cb) then some (l, s) else best) none).map (·.2)

/-- R283 step 4: lengths grow until the table is valid. -/
def limitLens (counts : List Nat) : Nat → List Nat → List Nat
  | 0, lens => lens
  | fuel + 1, lens =>
    if kraft lens ≤ 4096 then lens
    else match lengthenPick counts lens with
      | some s => limitLens counts fuel (lens.modify s (· + 1))
      | none => lens

/-- R283: the lengths that exact counts give; `value` for a value table. -/
def buildLens (value : Bool) (counts : List Nat) : List Nat :=
  let cs := if value then counts.map (· + 1) else counts
  let leaves := cs.zipIdx.filter fun (c, _) => c != 0
  if leaves.length = 1 then cs.map fun c => bit (c != 0)
  else
    let nodes := leaves.foldl (fun l (c, s) => huffInsert { count := c, id := s, leaves := [(s, 0)] } l) []
    let tree := ((huffMerge cs.length cs.length 0 nodes).headD {}).leaves
    let lens := (List.range cs.length).map fun s => ((tree.find? (·.1 == s)).map (·.2)).getD 0
    if lens.all (fun l => decide (l ≤ 12)) then lens
    else limitLens cs (12 * cs.length) (lens.map (min · 12))

/-! ### Fixed-rate blocks (R289 to R292) -/

/-- R291: the levels in ascending shave depth, the lower first on a tie. -/
def levelOrder (budget : Nat) : List Nat :=
  if budget = 2 then [0, 1, 2, 3, 4, 5, 6, 7] else if budget = 3 then [0, 1, 2, 3, 4, 5, 6, 7]
  else [0, 1, 2, 3, 4, 5, 7, 6]

/-- R290: the payload bits of 64 symbols at a level. -/
def levelBits (cs : List Code) (budget k : Nat) (syms : List Nat) : List Bool :=
  if k = 7 then
    let r := budget - 1
    syms.flatMap fun u => natBits r (u / 2 ^ (8 - r))
  else encodeSyms cs (syms.map fun u => u / 2 ^ k * 2 ^ k)

/-- R289 to R291: 64 symbols as a block, and the level used. -/
def encodeFixed (lens : List Nat) (select : Bool) (budget : Nat) (syms : List Nat) : List Byte × Nat :=
  let cs := codesOf lens
  let fits (k : Nat) : Bool := decide ((levelBits cs budget k syms).length ≤ 64 * budget - 8)
  let k := ((levelOrder budget).find? fits).getD 7
  (BitVec.ofNat 8 (k + 8 * bit select) :: leBytes (8 * budget - 1) (bitsNat (levelBits cs budget k syms)), k)

/-- R292, R300: 64 symbols of a block; `own` is the tensor's own table, where select 1 may use it. -/
def decodeFixed (own : Option (List Nat)) (fmt budget : Nat) (b : List Byte) : List Nat :=
  let h := uAt b 0 1
  let k := h % 8
  let bits := natBits (64 * budget - 8) (leNat (b.drop 1))
  if k = 7 then
    let r := budget - 1
    (List.range 64).map fun n => prefixVal ((bits.drop (n * r)).take r).reverse r * 2 ^ (8 - r)
  else
    let lens := if bitAt h 3 then own.getD (defaultLens fmt) else defaultLens fmt
    decodeSyms (codesOf lens) 64 bits

/-! ### Exponent-coded blocks (R284 to R287) -/

/-- R286: width of the sign-mantissa field. -/
def smBits (fmt : Nat) : Nat := if fmt = fmtFP16 then 11 else 8

/-- R279: the exponent field of an element. -/
def expField (fmt bits : Nat) : Nat := if fmt = fmtFP16 then field bits 14 10 else field bits 14 7

/-- R286: the sign-mantissa field of an element. -/
def smField (fmt bits : Nat) : Nat :=
  if fmt = fmtFP16 then field bits 9 0 + 2 ^ 10 * field bits 15 15 else field bits 6 0 + 2 ^ 7 * field bits 15 15

/-- R287: an element from its two fields. -/
def joinFields (fmt sm e : Nat) : Nat :=
  if fmt = fmtFP16 then sm % 2 ^ 10 + 2 ^ 10 * (e % 32) + 2 ^ 15 * (sm / 2 ^ 10 % 2)
  else sm % 2 ^ 7 + 2 ^ 7 * (e % 256) + 2 ^ 15 * (sm / 2 ^ 7 % 2)

/-- R286: bytes of the sign-mantissa area, and bits of the exponent area. -/
def smBytes (fmt : Nat) : Nat := 8 * smBits fmt
def expAreaBits (fmt : Nat) : Nat := 8 * (128 - smBytes fmt)

/-- R286: 64 elements as an exponent-coded block of 128 bytes. -/
def encodeExp (lens : List Nat) (fmt : Nat) (elems : List Nat) : List Byte :=
  let sm := (elems.flatMap fun x => natBits (smBits fmt) (smField fmt x))
  leBytes (smBytes fmt) (bitsNat sm)
    ++ leBytes (128 - smBytes fmt) (bitsNat (encodeSyms (codesOf lens) (elems.map (expField fmt))))

/-- R287, R300: the 64 elements of an exponent-coded block. -/
def decodeExp (lens : List Nat) (fmt : Nat) (b : List Byte) : List Nat :=
  let smv := leNat (sliceB b 0 (smBytes fmt))
  let es := decodeSyms (codesOf lens) 64 (natBits (expAreaBits fmt) (leNat (sliceB b (smBytes fmt) (128 - smBytes fmt))))
  es.zipIdx.map fun (e, i) => joinFields fmt (smv / 2 ^ (i * smBits fmt) % 2 ^ smBits fmt) e

/-- R285: the counts of the exponent symbols of a tensor. -/
def countSyms (n : Nat) (l : List Nat) : List Nat := (List.range n).map fun s => l.count s

/-- R285: the table of a flagged tensor from its elements, padding included, and whether it is the flat table. -/
def exponentTable (fmt : Nat) (blocks : List (List Nat)) : List Nat × Bool :=
  let lens := buildLens false (countSyms (expSymbols fmt) (blocks.flatten.map (expField fmt)))
  let cs := codesOf lens
  let fits := blocks.all fun b => decide ((encodeSyms cs (b.map (expField fmt))).length ≤ expAreaBits fmt)
  if fits then (lens, false) else (flatLens fmt, true)

/-! ### The table store (R293 to R302) -/

/-- R302: the CRC kept with a table, over its lengths as R281 packs them. -/
def lensBytes : List Nat → List Byte
  | a :: b :: rest => BitVec.ofNat 8 (a + 16 * b) :: lensBytes rest
  | [a] => [BitVec.ofNat 8 a]
  | [] => []

def lensCrc (lens : List Nat) : BitVec 32 := crc32 (lensBytes lens)

/-- R277: the table of a tensor id. -/
def Tables.find (t : Tables) (tid : Nat) : Option CodeTable := t.store.find? (·.tid == tid)

/-- R292, R300: the lengths that select 1 decodes with: none where the default table stands in. -/
def CodeTable.own (c : CodeTable) : Option (List Nat) :=
  if c.shipped || (c.frozen && !c.keptDefault) then some c.lens else none

/-- The own table of a tensor id. -/
def Tables.own (t : Tables) (tid : Nat) : Option (List Nat) := (t.find tid).bind (·.own)

/-- R294: counts added to a built table while counting is open. -/
def Tables.count (t : Tables) (tid : Nat) (syms : List Nat) : Tables :=
  if t.counting then
    { t with store := updFirst (fun c : CodeTable => c.tid == tid && !c.shipped) (fun c =>
      { c with counts := c.counts.zipIdx.map fun (n, s) => n + syms.count s }) t.store }
  else t

/-- R296: the table and the select bit of an encoding: `ref` is the reference line of the body, none outside one. -/
def Tables.choose (t : Tables) (tid fmt : Nat) (ref : Option LineSeq) : List Nat × Bool :=
  match t.find tid with
  | none => (defaultLens fmt, false)
  | some c =>
    if c.shipped then (c.lens, true)
    else match ref, t.switchLine with
      | some r, some st =>
        if 0 ≤ (r - st).toInt ∧ c.frozen ∧ !c.keptDefault then (c.lens, true) else (defaultLens fmt, false)
      | _, _ => (defaultLens fmt, false)

end Sys2Proof.Machine
end

