-- ==== Sys2Proof/Config.lean ====
section
/-! DEFINITION. What a die fixes and the free values: constants without a body. A statement that names one
holds whatever it is. Each is applied to State.free, which counts the free values taken (log 5). -/

namespace Sys2Proof.Config

/-- R110: the die's 16-bit stepping code. -/
opaque stepping : BitVec 16
/-- R342: the die serial number. -/
opaque dieSerial : BitVec 64
/-- R463: length in ps of the nth nanosecond of the RC oscillator, which is 32 kHz ± 5 %; the model holds it
within 950 to 1,050 (log 6). -/
opaque rcPs : Nat → Nat
/-- R185: what an analog conversion adds to its ideal code, clamped to the converter's range (log 7). -/
opaque analogNoise : Nat → Int
/-- R17: whether a pulse between 5 ns and 50 ns wide is taken (log 8). -/
opaque shortPulse : Nat → Bool
/-- R448: whether step 4 of an entry has begun when a vote comes (log 9). -/
opaque step4Begun : Nat → Bool
/-- R271: what the ECC says of three or more wrong bits: none, corrected or uncorrectable, as 0, 1, 2 (log 10). -/
opaque eccOutcome : Nat → Nat
/-- R271, R437: a byte whose value the rules call not guaranteed (log 11). -/
opaque freeByte : Nat → Byte
/-- R20: the phase in ps of the stamp timer, which ticks every 2,500 ps (log 13). -/
opaque stampPhase : Nat → Nat
/-- R148: a stamp that the previous lines do not give (log 34). -/
opaque freeStamp : Nat → BitVec 48
/-- R105, R139: whether an erase or program that ended in an error or a timeout took effect (log 41). -/
opaque flashTook : Nat → Bool
/-- R83, R98: which bits of a digest a fuse burn had reached when a reset broke it off (log 66). -/
opaque burnedBits : Nat → BitVec 256
/-- R440: the ticket that comes next after the event domain has been off (log 52). -/
opaque freeTicket : Nat → BitVec 16
/-- R418: the id of a fault whose FAULT record is not formed or is lost (log 125). -/
opaque freeId : Nat → BitVec 32
/-- R302: the lengths that a table holds after an upset (log 14). -/
opaque damagedLens : Nat → List Nat

end Sys2Proof.Config
end

