-- ==== Sys2Proof/Machine/Memory.lean ====
section
/-! DEFINITION. Addressed stores as lists of cells in one canonical form: addresses strictly rising, and no
cell equal to the store's default, which an unlisted address reads as (log 2 and 3). -/

namespace Sys2Proof.Machine.Memory

/-- The canonical form: addresses strictly rising from `lo`, no cell equal to the default. -/
def wfFrom (d : Byte) : Nat → List Host.Cell → Bool
  | _, [] => true
  | lo, (a, b) :: m => decide (lo ≤ a) && b != d && wfFrom d (a + 1) m

/-- The canonical form of a store with default d. -/
def wf (d : Byte) (m : List Host.Cell) : Bool := wfFrom d 0 m

/-- One byte. -/
def read (d : Byte) : List Host.Cell → Nat → Byte
  | [], _ => d
  | (k, b) :: m, a => if k = a then b else if a < k then d else read d m a

/-- One byte written; writing the default removes the cell. -/
def write (d : Byte) : List Host.Cell → Nat → Byte → List Host.Cell
  | [], a, v => if v = d then [] else [(a, v)]
  | (k, b) :: m, a, v =>
    if a < k then (if v = d then (k, b) :: m else (a, v) :: (k, b) :: m)
    else if a = k then (if v = d then m else (a, v) :: m)
    else (k, b) :: write d m a v

/-- n bytes from an address, in one walk of the list. -/
def readN (d : Byte) : List Host.Cell → Nat → Nat → List Byte
  | [], _, n => List.replicate n d
  | (k, b) :: m, a, n =>
    if k < a then readN d m a n
    else if n ≤ k - a then List.replicate n d
    else List.replicate (k - a) d ++ b :: readN d m (k + 1) (n - (k - a) - 1)

/-- Bytes written from an address upward. -/
def writeN (d : Byte) : List Host.Cell → Nat → List Byte → List Host.Cell
  | m, _, [] => m
  | m, a, b :: bs => writeN d (write d m a b) (a + 1) bs

/-- The bytes [a, a + n) return to the default, as an erase or a loss of contents does. -/
def clear (m : List Host.Cell) (a n : Nat) : List Host.Cell :=
  m.filter fun c => decide (c.1 < a) || decide (a + n ≤ c.1)

end Sys2Proof.Machine.Memory
end

