-- ==== Sys2Proof/Machine/Straps.lean ====
section
/-! DEFINITION. The level-coded pins: decoding of a reading (R41, R42) and what each level selects (R47 to R56). -/

namespace Sys2Proof.Machine

/-- R42: the decode windows in ohms, level 0 first; level 15 has no upper edge. -/
def decodeWindows : List (Nat × Nat) :=
  [(0, 100), (920, 1080), (1380, 1620), (2024, 2376), (2760, 3240), (3588, 4212), (4692, 5508),
   (6256, 7344)] ++
  [(8372, 9828), (11040, 12960), (14720, 17280), (20240, 23760), (27600, 32400), (39560, 46440),
   (57040, 66960), (120000, 10 ^ 12)]

/-- R41, R42: the level of a pin whose voltage and whose reference's voltage are given in µV. -/
def decodeLevel (pinUv refUv : Nat) : Option Nat :=
  decodeWindows.findIdx? fun (lo, hi) =>
    decide (lo * refUv ≤ 10000 * pinUv) && decide (10000 * pinUv ≤ hi * refUv)

/-- R41: the LVL_REF reading lies from 8.0 kΩ to 12.0 kΩ at 20 µA. -/
def refGood (refUv : Nat) : Bool := decide (160000 ≤ refUv) && decide (refUv ≤ 240000)

/-- R43: the pin is in strap fault. -/
def LevelPin.fault (p : LevelPin) : Bool :=
  p.pass1.isNone || p.pass2.isNone || p.pass1 != p.pass2

/-- The level of a pin without strap fault. -/
def LevelPin.level (p : LevelPin) : Option Nat := if p.fault then none else p.pass1

/-- R44: the level is reserved on pin i (0 for LVL_A): LVL_C, LVL_I and LVL_J reserve 8 to 15. -/
def reservedLevel (i l : Nat) : Bool := (i == 2 || i == 8 || i == 9) && decide (8 ≤ l)

/-- The level that pin i decoded to, unless it is in fault, reserved or not read. -/
def State.level (s : State) (i : Nat) : Option Nat :=
  if s.levels.decoded then
    match (s.levels.pin.getD i {}).level with
    | some l => if reservedLevel i l then none else some l
    | none => none
  else none

/-- R47: the decoded device address, Y × 256 + X. -/
def State.address (s : State) : Addr :=
  let l i := (s.level i).getD 0
  BitVec.ofNat 16 ((16 * l 2 + l 3) * 256 + (16 * l 0 + l 1))

/-- The role of R48, with its code in HELLO (R382). -/
def roleCode (e : Nat) : Nat :=
  if e < 4 then 0 else if e < 8 then 1 else if e < 10 then 3 else if e < 12 then 4 else 2

/-- R48: the role's code: 0 standalone, 1 member, 2 collector, 3 sealed member, 4 sealed collector. -/
def State.role (s : State) : Nat := roleCode ((s.level 4).getD 0)

/-- R48: the strapped role admits only signed patterns. -/
def State.sealedRole (s : State) : Bool := s.role == 3 || s.role == 4

/-- R48: the slots in the policy's order, newest valid as none. -/
def slotPolicy (e : Nat) : Option (List Nat) :=
  if e == 0 || e == 4 || e == 8 || e == 10 || e == 12 then none
  else if e == 1 || e == 5 || e == 9 || e == 11 || e == 13 then some [0, 1]
  else if e == 2 || e == 6 || e == 14 then some [0]
  else some [1]

/-- R49: the performance cap. -/
def State.cap (s : State) : Nat := (s.level 5).getD 0 % 4
/-- R49: the thermal policy. -/
def State.thermalPolicy (s : State) : Nat := (s.level 5).getD 0 / 4
/-- R51: the sentinel trim in steps of 0.25. -/
def State.sentinelTrim (s : State) : Int :=
  let l := (s.level 6).getD 0
  if l < 8 then l else (l : Int) - 16
/-- R52: the station address, if LVL_H decoded. -/
def State.station (s : State) : Option Nat := (s.level 7).map (· % 8)
/-- R53: LVL_I decoded and bit i of its level is set. -/
def State.lvlI (s : State) (i : Nat) : Bool := ((s.level 8).map (bitAt · i)).getD false
/-- R54: the flash class. -/
def State.flashClass (s : State) : Nat := (s.level 9).getD 0 % 4
/-- R54: LVL_J declares no hold-up bank. -/
def State.holdUpAbsent (s : State) : Bool := ((s.level 9).getD 0 / 4) == 1

/-- The core clock of a performance level in MHz (R457). -/
def levelMhz (l : Nat) : Nat := if l = 0 then 400 else if l = 1 then 750 else if l = 2 then 1000 else 1250
/-- The VID code of a performance level (R457). -/
def levelVid (l : Nat) : Nat := 5 + 10 * min l 3

/-- R15: READY has risen since the reset exit. -/
def State.sinceReady (s : State) : Bool := s.adm.step == 13
/-- R61: an admitted pattern runs, so READY is high. -/
def State.running (s : State) : Bool := s.adm.dev == .running

/-- R128: the BOLT entry of an address. -/
def Pattern.boltEntry (p : Pattern) (a : Addr) : Option BoltEntry := p.bolt.find? (·.addr == a.toNat)
/-- R128: this device's own BOLT entry. -/
def State.entry (s : State) : Option BoltEntry := s.pat.boltEntry s.address
/-- R381: this device is the position master. -/
def State.isMaster (s : State) : Bool := s.pat.boltMaster == s.address.toNat
/-- R394: this device takes position from TICK. -/
def State.tickFed (s : State) : Bool :=
  s.sinceReady && (s.role != 0) && ((s.entry.map (·.posFrom == 1)).getD false)

end Sys2Proof.Machine
end

