-- ==== Sys2Proof/Machine/SeamOps.lean ====
section
/-! DEFINITION. Messages and routes: how a message becomes data flits (R361, R364, R365), which port carries it
(R386, R387), and the queues of a seam port (R368). -/

namespace Sys2Proof.Machine

/-- The VC codes of R361. -/
def vcTick : Nat := 0
def vcLine : Nat := 1
def vcEvent : Nat := 2
def vcHist : Nat := 3

/-- R366: flits that a receiving port buffers per VC. -/
def vcBuffer (vc : Nat) : Nat := if vc = 0 then 8 else if vc = 1 then 192 else if vc = 2 then 24 else 32

/-- Opposite ports of a seam: E and W, N and S (R358, R381). -/
def oppositePort (q : SeamId) : SeamId := match q with
  | 0 => 1 | 1 => 0 | 2 => 3 | 3 => 2

/-- The payload cut into flits of 48 bytes, at least one, the last padded with zeros (R364). -/
def payloadFlits : Nat → List Byte → List (List Byte)
  | 0, _ => []
  | fuel + 1, p =>
    if p.length ≤ 48 then [p ++ List.replicate (48 - p.length) 0]
    else p.take 48 :: payloadFlits fuel (p.drop 48)

/-- R364: the data flits of one message, before their sequence numbers. -/
def messageFlits (vc type : Nat) (dest src : Addr) (payload : List Byte) (line : Option LineSeq)
    (arrived : Option Nat) : List OutFlit :=
  let chunks := payloadFlits 1024 payload
  let n := chunks.length
  chunks.zipIdx.map fun (c, i) =>
    { kind := 0, vc := vc, start := i == 0, last := i + 1 == n, type := if i = 0 then type else 0,
      dest := if i = 0 then dest else 0, source := if i = 0 then src else 0, payload := c,
      line := if i + 1 = n then line else none, arrived := arrived }

/-- The flits of the queue of one VC. -/
def Seam.queueOf (p : Seam) (vc : Nat) : List OutFlit :=
  if h : vc < 4 then p.queued[vc] else []

/-- Flits queued at a port, behind those already queued on the VC (R368). -/
def Seam.enqueue (p : Seam) (vc : Nat) (fs : List OutFlit) : Seam :=
  if h : vc < 4 then { p with queued := p.queued.set vc (p.queued[vc] ++ fs) h } else p

/-- One seam port changed. -/
def State.updSeam (s : State) (q : SeamId) (f : Seam → Seam) : State :=
  { s with seams := Vector.upd s.seams q f }

/-- One port's bolt link changed. -/
def State.updLink (s : State) (q : SeamId) (f : BoltLink → BoltLink) : State :=
  { s with bolt := { s.bolt with links := Vector.upd s.bolt.links q f } }

/-- R397, R416: the device is in its bolt. -/
def State.inBolt (s : State) : Bool := s.bolt.mode == 2

/-- R384: the link of a port is in the bolt. -/
def State.linkIn (s : State) (q : SeamId) : Bool := s.bolt.links[q].inBolt

/-- R386: the port toward a unicast destination, none for the device's own address. -/
def State.route (s : State) (dest : Addr) : Option SeamId :=
  let x := s.address.toNat % 256
  let y := s.address.toNat / 256
  let dx := dest.toNat % 256
  let dy := dest.toNat / 256
  if x < dx then some 0 else if dx < x then some 1
  else if y < dy then some 3 else if dy < y then some 2 else none

/-- R381: the address expected at a port. -/
def State.neighbour (s : State) (q : SeamId) : Addr :=
  match q with
  | 0 => s.address + 1 | 1 => s.address - 1 | 2 => s.address - 256 | 3 => s.address + 256

/-- R434: the record messages a port sends are kept until acknowledged, at most 512; the oldest is dropped. -/
def Seam.store (p : Seam) (rec : Record) : Seam × Bool :=
  if 512 ≤ p.resendStore.length then
    ({ p with resendStore := p.resendStore.drop 1 ++ [rec] }, true)
  else ({ p with resendStore := p.resendStore ++ [rec] }, false)

/-- A message queued on one port. -/
def State.queueOn (s : State) (q : SeamId) (vc type : Nat) (dest src : Addr) (payload : List Byte)
    (line : Option LineSeq) (arrived : Option Nat) : State :=
  s.updSeam q fun p => p.enqueue vc (messageFlits vc type dest src payload line arrived)

/-- R386: a discarded message counts at the port it would have taken. -/
def State.countUnroutable (s : State) (q : SeamId) : State :=
  s.updSeam q fun p => { p with unroutable := satAdd 16 p.unroutable 1 }

/-- R386, R398: a unicast message from this device, none outside the bolt. One for its own address is delivered to the device
itself. -/
def State.sendTo (s : State) (vc type : Nat) (dest : Addr) (payload : List Byte) : State :=
  match s.route dest with
  | some q =>
    if !s.inBolt then s
    else if s.linkIn q then s.queueOn q vc type dest s.address payload none none else s.countUnroutable q
  | none => s

/-- The four seam ports in the order E, W, N, S. -/
def allPorts : List SeamId := [0, 1, 2, 3]

/-- R387, R398: a broadcast from this device, on every port whose link is in the bolt. -/
def State.broadcast (s : State) (vc type : Nat) (payload : List Byte) : State :=
  allPorts.foldl (fun s q =>
    if s.inBolt && s.linkIn q then s.queueOn q vc type 0x8000#16 s.address payload none none else s) s

/-- R387: the ports on which a broadcast is forwarded. -/
def forwardPorts (arrived : SeamId) : List SeamId := match arrived with
  | 1 => [0, 2, 3] | 0 => [1, 2, 3] | 3 => [2] | 2 => [3]

/-- The bytes of a record as R324 lays them out. -/
def Record.toBytes (r : Record) : List Byte :=
  leBytes 1 r.type ++ leBytes 1 r.flags.toNat ++ leBytes 2 r.source.toNat ++ leBytes 4 r.seqNo.toNat
    ++ leBytes 5 r.timestamp.toNat ++ leBytes 1 r.sub ++ leBytes 2 r.small.toNat ++ leBytes 16 r.body.toNat

/-- The record that 32 bytes hold (R324). -/
def Record.ofBytes (b : List Byte) : Record :=
  { type := uAt b 0 1, flags := BitVec.ofNat 8 (uAt b 1 1), source := BitVec.ofNat 16 (uAt b 2 2),
    seqNo := BitVec.ofNat 32 (uAt b 4 4), timestamp := BitVec.ofNat 40 (uAt b 8 5), sub := uAt b 13 1,
    small := BitVec.ofNat 16 (uAt b 14 2), body := BitVec.ofNat 128 (uAt b 16 16) }

/-- R434: an event record message queued on a port, and kept in its resend store. -/
def State.queueEvent (s : State) (q : SeamId) (dest src : Addr) (r : Record) : State :=
  let s := s.queueOn q vcEvent 0x20 dest src r.toBytes none none
  let (p, drop) := s.seams[q].store r
  if drop then
    let s := s.updSeam q fun _ => { p with dropped := satAdd 32 p.dropped 1 }
    { s with faults := { s.faults with resendDropped := satAdd 32 s.faults.resendDropped 1 } }
  else s.updSeam q fun _ => p

/-- R434: a port has dropped a record and not yet recorded it since the last return. -/
def State.dropToNote (s : State) : Option SeamId :=
  allPorts.find? fun q => decide (0 < s.seams[q].dropped) && !s.seams[q].dropNoted

/-- R330: in the member and sealed-member roles a formed record also goes to the collector; in selvage mode it
does not (R398). -/
def State.relay (s : State) (r : Record) : State :=
  if (s.role == 1 || s.role == 3) && s.inBolt then
    match s.route (BitVec.ofNat 16 s.pat.boltCollector) with
    | some q =>
      if s.linkIn q then s.queueEvent q (BitVec.ofNat 16 s.pat.boltCollector) s.address r
      else s.countUnroutable q
    | none => s
  else s

end Sys2Proof.Machine
end

