-- ==== Sys2Proof/Machine/Ops.lean ====
section
/-! DEFINITION. The operations that every family shares: position and time, the event queue, FAULT records,
fires and closing records, votes, wakes and the run conditions of the clocks. -/

namespace Sys2Proof.Machine

/-- A step that has its effect. -/
def done (s : State) : Result := .next s

/-- The effect f where the command's condition holds, no change where it does not (log 16). -/
def when (c : Bool) (s : State) (f : State → State) : Result := .next (if c then f s else s)

/-- A free value taken: the counter advances (log 5). -/
def State.takeFree (s : State) : Nat × State := (s.free, { s with free := s.free + 1 })

/-! ### Position and time -/

/-- R14: the difference b − a of two positions, read as signed. -/
def posDiff (a b : Pos) : Int := (b - a).toInt

/-- R19: the difference b − a of two line sequence numbers, read as signed. -/
def seqDiff (a b : LineSeq) : Int := (b - a).toInt

/-- R15: the decoder that is the position source: ENC0 until READY, then the one INTK names. -/
def State.source (s : State) : DecId :=
  if s.sinceReady && s.pat.intk.source == 1 then 1 else 0

/-- R16, R28: the counter of the position source: the follower's, or the decoder's without the alignment terms. -/
def State.sourceCounter (s : State) : Pos :=
  if s.tickFed then s.bolt.follower else s.web.enc[s.source].count

/-- R15, R393, R394: the device's position. -/
def State.position (s : State) : Pos :=
  if s.tickFed then s.bolt.follower
  else if s.sinceReady then s.web.enc[s.source].count + s.bolt.beta
  else s.web.enc[s.source].count

/-- R20, R28: when the counting edges of the position source came. -/
def State.edges (s : State) : EdgeClock :=
  if s.tickFed then s.bolt.followEdges else s.web.enc[s.source].edges

/-- R463: the wall timebase in units of 2⁻¹⁵ s, modulo 2⁴⁰. -/
def wallUnits (wallPs : Nat) : BitVec 40 := BitVec.ofNat 40 (wallPs * 32768 / 10 ^ 12)

/-- R325: the timestamp of a record formed now. -/
def State.timestamp (s : State) : BitVec 40 := wallUnits s.time.wall

/-- R463: a timestamp formed now is coarse. -/
def State.coarse (s : State) : Bool := !s.time.verified

/-- Picoseconds in a µs and in a ms. -/
def usPs : Nat := 10 ^ 6
def msPs : Nat := 10 ^ 9

/-- R14, R23: ceil(rate × time) counts for a time in ns. -/
def countsIn (rate ns : Nat) : Nat := ceilDiv (rate * ns) (10 ^ 9)

/-! ### Domains -/

/-- R440: the state of a domain. -/
def State.dom (s : State) (id : Nat) : DomState :=
  ((s.power.domains.find? (·.id == id)).map (·.st)).getD .off

/-- R443: the domain is on. -/
def State.isOn (s : State) (id : Nat) : Bool := s.dom id == .on

/-- The domain ids of R440. -/
def domControl : Nat := 0x01
def domSentinel : Nat := 0x02
def domEvent : Nat := 0x03
def domFlash : Nat := 0x04
def domHbm : Nat := 0x05
def domIntake (i : Nat) : Nat := 0x10 + i
def domBobbin (g : Nat) : Nat := 0x20 + g
def domPanel (p : Nat) : Nat := 0x30 + p
def domCommons (c : Nat) : Nat := 0x40 + c
def domSeam (q : Nat) : Nat := 0x50 + q

/-- The seam port of a domain. -/
def seamOf (id : Nat) : Option SeamId := allPorts.find? fun q => domSeam q.val == id

/-- R48, R350: the device may power a domain: a seam port only in a role other than standalone, and declared in BOLT. -/
def State.mayPower (s : State) (id : Nat) : Bool :=
  match seamOf id with
  | some q => s.role != 0 && ((s.entry.map fun e => bitAt e.seams q.val).getD false)
  | none => true

/-- One domain's entry changed. -/
def State.updDom (s : State) (id : Nat) (f : Domain → Domain) : State :=
  { s with power := { s.power with domains := updFirst (·.id == id) f s.power.domains } }

/-! ### Records and the event queue -/

/-- R326: a field of a record body, at an offset from 0x10. -/
def bodyAt (off bits v : Nat) : BitVec 128 := BitVec.ofNat 128 (v % 2 ^ bits) <<< (8 * (off - 0x10))

/-- R324, R325: a record formed now; `extra` gives the flag bits beyond bits 0 and 1. -/
def State.mkRecord (s : State) (type : Nat) (extra : BitVec 8) (sub : Nat) (small : Nat)
    (body : BitVec 128) : Record :=
  { type := type,
    flags := extra ||| BitVec.ofNat 8 (bit s.web.lost + 2 * bit s.coarse),
    source := s.address, timestamp := s.timestamp, sub := sub, small := BitVec.ofNat 16 small,
    body := body }

/-- R331: the class of a type: 0 lowest, 1 middle, 2 highest. -/
def recordClass (type : Nat) : Nat :=
  if type == 1 then 0 else if type == 3 || type == 5 || type == 6 || type == 8 then 1 else 2

/-- R331: a discard added to the loss accumulator; `ticket` is that of the first discard's place. -/
def Events.lose (e : Events) (type : Nat) (ticket : BitVec 16) : Events :=
  let l := e.loss
  { e with
    discarded := satAdd 32 e.discarded 1
    loss :=
      { discarded := satAdd 32 l.discarded 1
        baste := satAdd 16 l.baste (bit (type == 1))
        closing := satAdd 16 l.closing
          (bit (type == 2 || type == 3 || type == 4 || type == 9 || type == 0x0A))
        others := satAdd 16 l.others (bit (type == 5 || type == 6 || type == 8))
        ticket := if l.discarded = 0 then ticket else l.ticket } }

/-- R329: a record appended with the next ticket. -/
def Events.append (e : Events) (r : Record) : Events :=
  { e with queue := e.queue ++ [{ ticket := e.nextTicket, record := r }], nextTicket := e.nextTicket + 1 }

/-- R329: how many ordinary entries are taken. -/
def Events.ordinary (e : Events) : Nat := e.queue.countP (·.record.type != 7)

/-- R331: the least class among records of a list, from a bound. -/
def leastClass (bound : Nat) (q : List Entry) : Nat :=
  q.foldl (fun c x => if x.record.type == 7 then c else min c (recordClass x.record.type)) bound

/-- R329: the entry reserved for LOSS is free. -/
def Events.reservedFree (e : Events) : Bool := e.queue.all (·.record.type != 7)

/-- R329, R331: a record enters; with 8,191 ordinary entries full, the oldest record of the lowest class goes. A relayed LOSS
record takes the reserved entry, and is itself discarded when that is not free (log 118). -/
def Events.enter (e : Events) (r : Record) : Events :=
  if r.type == 7 then (if e.reservedFree then e.append r else e.lose 7 e.nextTicket)
  else if e.ordinary < 8191 then e.append r
  else
    let c := leastClass (recordClass r.type) e.queue
    match takeFirst (fun x => x.record.type != 7 && recordClass x.record.type == c) e.queue with
    | some (v, rest) => ({ e with queue := rest }.lose v.record.type v.ticket).append r
    | none => e.lose r.type e.nextTicket

/-- R331: the body of a LOSS record. -/
def Loss.body (l : Loss) : BitVec 128 :=
  bodyAt 0x10 32 l.discarded ||| bodyAt 0x14 16 l.baste ||| bodyAt 0x16 16 l.closing
    ||| bodyAt 0x18 16 l.others ||| bodyAt 0x1A 16 l.ticket.toNat

/-- R331, R516: the accumulator forms a LOSS record when the reserved entry and an ordinary entry are free and no record
with an earlier cause still waits in the thimble. -/
def State.tryLoss (s : State) : State :=
  let e := s.events
  if e.loss.discarded ≠ 0 ∧ e.ordinary < 8191 ∧ e.reservedFree ∧ e.held.isEmpty then
    let r := { s.mkRecord 7 0 0 0 e.loss.body with seqNo := e.nextSeq }
    ({ s with events := { e with nextSeq := e.nextSeq + 1, loss := {} }.append r }).relay r
  else s

/-- R330: the record was relayed to this collector. -/
def Record.relayed (r : Record) : Bool := r.flags.getLsbD 2

/-- R325, R329, R330: a record takes its event sequence number, enters the queue and goes to the collector. A relayed
record keeps its number and goes no further. -/
def State.enterOne (s : State) (r : Record) : State :=
  if r.relayed then { s with events := s.events.enter r }
  else
    let r := { r with seqNo := s.events.nextSeq }
    let e := { s.events with nextSeq := s.events.nextSeq + 1 }
    ({ s with events := e.enter r }).relay r

/-- R331: a record enters, and after it the LOSS record that may now form. -/
def State.enterRecord (s : State) (r : Record) : State := (s.enterOne r).tryLoss

/-- R516: at most 32 records wait in the thimble; a further one is lost and counted. -/
def Events.hold (e : Events) (r : Record) : Events :=
  if e.held.length < 32 then { e with held := e.held ++ [r] } else e.lose r.type e.nextTicket

/-- R324, R516, R73: a formed record enters the queue, or waits in the thimble while the event domain is not on;
before READY there is none. -/
def State.submit (s : State) (r : Record) : State :=
  if !s.sinceReady then s
  else if s.isOn domEvent && s.events.held.isEmpty then s.enterRecord r
  else { s with events := s.events.hold r }

/-- R325, R516: the event sequence number that a record formed now receives; relayed records that wait have theirs. -/
def State.nextId (s : State) : BitVec 32 :=
  s.events.nextSeq + BitVec.ofNat 32 (s.events.held.countP (!·.relayed))

/-- R73, R418, R516: the fault id of a FAULT record formed now; a record that is not formed before READY, or is lost with the
thimble full, receives no number and the id is free (log 125). -/
def State.faultId (s : State) : BitVec 32 × State :=
  if s.sinceReady && ((s.isOn domEvent && s.events.held.isEmpty) || decide (s.events.held.length < 32)) then (s.nextId, s)
  else
    let (n, s) := s.takeFree
    (Config.freeId n, s)

/-- R327, R454: a STATUS record. -/
def State.status (s : State) (cause small : Nat) (body : BitVec 128) : State :=
  s.submit (s.mkRecord 8 0 cause small body)

/-- A STATUS record whose body is the position at 0x10. -/
def State.statusPos (s : State) (cause small : Nat) : State :=
  s.status cause small (bodyAt 0x10 48 s.position.toNat)

/-- R415: a BOLT record. -/
def State.boltRecord (s : State) (sub small at16 : Nat) (detail : Nat) : State :=
  s.submit (s.mkRecord 0x0A 0 sub small
    (bodyAt 0x10 48 s.position.toNat ||| bodyAt 0x16 16 at16 ||| bodyAt 0x18 64 detail))

/-! ### FAULT records -/

/-- R62: FAULT_N is asserted until the next reset exit. -/
def State.assertFault (s : State) : State := { s with pins := { s.pins with fault := true } }

/-- R328: a FAULT record, and its fault id. -/
def State.formFault (s : State) (cause unit detail : Nat) : BitVec 32 × State :=
  let (id, s) := s.faultId
  let s := s.submit (s.mkRecord 9 0 cause unit
    (bodyAt 0x10 48 s.position.toNat ||| bodyAt 0x18 64 detail))
  (id, if s.sinceReady then { s with faults := { s.faults with lastId := id } } else s)
def State.faultRecord (s : State) (cause unit detail : Nat) : State := (s.formFault cause unit detail).2

/-- R418: the earlier detection of the same fault within 2²⁰ lines, if there is one. -/
def State.sameFault (s : State) (cause unit loc : Nat) : Option FaultSeen :=
  s.faults.seen.find? fun f =>
    f.cause == cause && f.unit == unit && f.location == loc &&
      decide (seqDiff f.line s.intake.nextSeq ≤ 2 ^ 20)

/-- R417, R418: a run-time fault detected: a FAULT record for the first detection, a counted repeat for a later one,
with FAULT_N on a repeat of 0x20 or 0x21. The fault id is returned. Before READY no record is formed, so a later detection is
the first (log 125). -/
def State.detect (s : State) (cause unit detail loc : Nat) : BitVec 32 × State :=
  match s.sameFault cause unit loc with
  | some f =>
    let s := { s with faults := { s.faults with repeats := satAdd 32 s.faults.repeats 1 } }
    (f.id, if cause == 0x20 || cause == 0x21 then s.assertFault else s)
  | none =>
    let (id, s) := s.formFault cause unit detail
    let f : FaultSeen := { cause := cause, unit := unit, location := loc, line := s.intake.nextSeq, id := id }
    (id, if s.sinceReady then { s with faults := { s.faults with
        seen := f :: s.faults.seen.filter fun g => !(g.cause == cause && g.unit == unit && g.location == loc) } }
      else s)

/-- R434: the first drop of a port's resend store since its link returned forms a FAULT record. -/
def State.noteDrops (s : State) : State :=
  match s.dropToNote with
  | some q =>
    let n := s.seams[q].dropped
    let s := s.updSeam q fun p => { p with dropNoted := true }
    (s.detect 0x25 q.val n q.val).2
  | none => s

/-! ### Fires and closing records -/

/-- The instances that run now, changed. -/
def State.mapRuns (s : State) (f : SlotRun → SlotRun) : State :=
  { s with look := { s.look with groups := s.look.groups.map fun g => { g with run := g.run.map f } } }

/-- R345: fires that the scheduler holds, from arming to release. -/
def Markers.heldFires (m : Markers) : Nat := m.fires.countP (·.stage != .formed)

/-- R326: a MARK record. -/
def State.markRecord (s : State) (sub marker : Nat) (target : Pos) (covered : Nat) (tag : Tag) : State :=
  s.submit (s.mkRecord 6 0 sub marker
    (bodyAt 0x10 48 target.toNat ||| bodyAt 0x16 16 covered ||| bodyAt 0x18 64 tag.toNat))

/-- R319: the fires that a STITCH of a class, or an UNEXAMINED, calls for. -/
def Pattern.firesFor (p : Pattern) (stitch : Option Nat) (pe : Pos) (tag : Tag) : List Fire :=
  (p.marks.filter fun m =>
    match stitch with
    | some c => bitAt m.trigger 0 && decide (c < 32) && bitAt m.mask c
    | none => bitAt m.trigger 1).map fun m =>
      { marker := m.marker, target := pe + BitVec.ofNat 48 m.offset, tag := tag, stage := .formed,
        widthUs := m.width }

/-- R319, R348: a closing record arms its fires, unless the markers are held inactive. -/
def State.callFires (s : State) (type cls : Nat) (pe : Pos) (tag : Tag) : State :=
  if s.markers.inhibited then s
  else
    let fs :=
      if type == 2 then s.pat.firesFor (some cls) pe tag
      else if type == 4 && s.level 8 != none && !s.lvlI 0 then s.pat.firesFor none pe tag
      else []
    { s with markers := { s.markers with fires := s.markers.fires ++ fs } }

/-- R486: a persistent counter counts up by n. -/
def State.bump (s : State) (i n : Nat) : State :=
  { s with flash := { s.flash with counters := s.flash.counters.modify i fun c => (c + n) % 2 ^ 64 } }

/-- R326, R486: a closing record, counted by its type, and the fires that it calls for. -/
def State.closingRecord (s : State) (type cls small : Nat) (flags : BitVec 8) (pe : Pos) (tag : Tag) : State :=
  let s := s.bump type 1
  let s := s.submit (s.mkRecord type flags cls small
    (bodyAt 0x10 48 pe.toNat ||| bodyAt 0x18 64 tag.toNat))
  s.callFires type cls pe tag

/-- R310, R427: a window in this state is pending: not yet taken, or replay-ready. -/
def WinState.pending : WinState → Bool
  | .waiting => true
  | .ready => true
  | .replayReady => true
  | .taken => false
  | .held => false

/-- R437: the flags of a closing record that no instance gives: bit 3 for a view that included a damaged segment. -/
def Window.ownFlags (w : Window) : BitVec 8 := BitVec.ofNat 8 (8 * bit w.viewDamaged)

/-- R308, R419: the first attempt closes the window and frees its ledger entry; a later one is counted. -/
def State.closeWindow (s : State) (tag : Tag) (type cls small : Nat) (flags : BitVec 8) : State :=
  match takeFirst (fun w : Window => w.tag == tag) s.look.ledger with
  | some (w, rest) =>
    let s := { s with look := { s.look with
      ledger := rest
      pendingWall := if w.st.pending then s.time.wall else s.look.pendingWall
      slackClosed := satAdd 32 s.look.slackClosed (bit (type == 4 && cls == 3)) } }
    s.closingRecord type cls small flags w.pe tag
  | none => { s with look := { s.look with dupClosures := satAdd 32 s.look.dupClosures 1 } }

/-- R346, R348: every fire is released, cut short or discarded; the markers are inactive from then on. -/
def State.discardFires (s : State) : State :=
  let cut := s.markers.fires.filter (·.stage == .pulse)
  let n := s.markers.fires.countP (·.stage != .pulse)
  let s := { s with markers := { fires := [], inhibited := true } }
  let s := cut.foldl (fun s f => s.markRecord 1 f.marker f.target 1 f.tag) s
  if n = 0 then s else s.markRecord 4 0xFFFF 0 n 0

/-! ### Uncertainty and position lost -/

/-- R18: the uncertainty of the position source. On a device that takes position from TICK it is that of the decoder
that INTK names (log 106). -/
def State.uncertainty (s : State) : Nat :=
  let t := s.web.travel
  ((s.web.enc[s.source].events.filter fun e => decide (t - e.1 < 2 ^ 24)).map (·.2)).sum

/-- R18: the device declares position lost. -/
def State.losePosition (s : State) : State :=
  let u := s.uncertainty
  let s := { s with web := { s.web with lost := true } }
  let s := s.assertFault.faultRecord 3 s.source.val (min u 65535)
  let s := s.discardFires
  s.look.ledger.foldl (fun s w => s.closeWindow w.tag 4 6 0 w.ownFlags) s

/-- R12, R16, R17, R18: counts added to a decoder's uncertainty, and position lost when the source's exceeds the
slip budget. -/
def State.addUncertainty (s : State) (d : DecId) (n : Nat) : State :=
  let t := s.web.travel
  { s with web := { s.web with enc := Vector.upd s.web.enc d fun e =>
      { e with events := (t, n) :: e.events.filter fun x => decide (t - x.1 < 2 ^ 24) } } }

/-- R18: position is lost once the uncertainty exceeds the slip budget. DESIGN CHOICE: a device in the stopped state of R461
declares no position lost, as no position logic but the counting goes on there (log 134). -/
def State.checkSlip (s : State) : State :=
  if s.running && !s.web.lost && decide (s.pat.dlin.slip < s.uncertainty) then s.losePosition else s

/-! ### Votes -/

/-- R443: an on-vote is held for a domain. -/
def State.votedOn (s : State) (id : Nat) : Bool := s.power.votes.any fun v => v.domain == id && !v.retain

/-- R129, R441: the VOTE entry in force for a domain, with the values of undeclared domains. -/
def State.voteEntry (s : State) (id : Nat) : VoteEntry :=
  match s.pat.votes.find? (·.id == id) with
  | some v => v
  | none => { id := id, low := bit (id == domEvent), hyst := if id == domEvent then 1000 else 0 }

/-- The domains that run on the PLL (R456). -/
def pllDomain (id : Nat) : Bool :=
  id == domHbm || decide (0x10 ≤ id ∧ id ≤ 0x13) || decide (0x20 ≤ id ∧ id ≤ 0x2B) ||
    decide (0x30 ≤ id ∧ id ≤ 0x3F) || decide (0x40 ≤ id ∧ id ≤ 0x47) || decide (0x50 ≤ id ∧ id ≤ 0x53)

/-- A domain that is on or on its way in or out, so that its clock runs. -/
def DomState.active : DomState → Bool
  | .off => false | .retention => false | _ => true

/-- R445: the run set: every declared domain other than the panels. -/
def State.runSet (s : State) : List Nat :=
  (s.pat.votes.map (·.id)).filter fun id => !(decide (0x30 ≤ id) && decide (id ≤ 0x3F)) && s.mayPower id

/-- R446, R487: the sentinel screens: its domain is on, no restore and no flush is under way and the web client runs. DESIGN
CHOICE: one that another client's vote holds on through rest watches and does not screen (log 137). -/
def State.sentinelScreens (s : State) : Bool :=
  s.running && s.isOn domSentinel && !s.power.restoring && s.power.web == .run && s.hold.st != .flushing

/-- R446: the sentinel screens again once every domain of the run set is on. -/
def State.checkRestored (s : State) : State :=
  if s.power.restoring && s.power.web == .run && s.runSet.all s.isOn then
    { s with power := { s.power with restoring := false } }
  else s

/-- R192, R440: the sentinel is in watch: f is nonzero, and its domain is retained, or on without screening. -/
def State.inWatch (s : State) : Bool :=
  s.pat.sntl.watch != 0 && (s.dom domSentinel == .retention || (s.isOn domSentinel && !s.sentinelScreens))

/-- R444: a vote as the ledger holds it. -/
def State.holds (s : State) (c : Client) (id : Nat) (retain : Bool) : Bool :=
  s.power.votes.contains { client := c, domain := id, retain := retain }

/-- R456: whether the PLL has a reason to run: PLLSW has asked for it, or the control sequencer has switched to it and holds
its own on-vote. -/
def State.pllNeeded (s : State) : Bool :=
  s.power.domains.any (fun d => pllDomain d.id && d.st.active) || s.sentinelScreens ||
    s.control.wantPll || (s.control.onPll && s.holds .controlSelf domControl false) ||
    (s.adm.dev == .admitting && decide (2 ≤ s.adm.step))

/-- R457: the VID code that the conditions ask for: 15 until READY, then the level's code less the trim, 5 with
the PLL stopped or the device stopped. -/
def State.vidGoal (s : State) : BitVec 6 :=
  if s.adm.dev == .stopped then 5
  else if !s.sinceReady then 15
  else if !s.power.pll then 5
  else BitVec.ofNat 6 (levelVid s.power.level - s.power.trim)

/-- R457: the core clock for the state of READY: 400 MHz before it, the level's after it. -/
def State.clockGoal (s : State) : Nat :=
  if s.sinceReady then levelMhz s.power.level else 400

/-- R456: the PLL is requested. -/
def State.requestPll (s : State) : State :=
  if s.power.pll then s
  else { s with power := { s.power with pll := true, locked := false, pllSince := s.clock } }

/-- R251, R452, R466: the control sequencer, which PLLSW has asked to switch, goes over to the core clock as that runs. -/
def State.joinPll (s : State) : State :=
  { s with control := { s.control with onPll := s.control.onPll || s.control.wantPll, wantPll := false } }

/-- R455, R456, R457: the PLL and FRC follow what needs them; VID heads for its goal. FRC runs until the core clock does,
so that no domain is without a clock while VID settles (log 133). -/
def State.settleClocks (s : State) : State :=
  let s :=
    if s.pllNeeded then s.requestPll
    else if s.power.pll then
      { s with
        power := { s.power with pll := false, locked := false, coreMhz := 0, clockPending := false }
        control := { s.control with onPll := false } }
    else s
  let frc := s.power.coreMhz == 0 &&
    (s.isOn domControl || s.isOn domEvent || s.isOn domFlash || s.inWatch || s.adm.dev == .admitting)
  { s with power := { s.power with frc := frc, vidTarget := s.vidGoal } }

/-- R380: a port whose failure idle is over trains again from DETECT. -/
def Seam.retrain (p : Seam) (clock : Nat) : Seam :=
  if p.link == .idleFailed && decide (p.stateSince + 10 * usPs ≤ clock) then
    { p with link := .detect, stateSince := clock }
  else p

/-- R380: a vote that returns to a port domain still on lets its failed link train again. -/
def State.retrainPort (s : State) (id : Nat) : State :=
  match seamOf id with
  | some q => s.updSeam q fun p => p.retrain s.clock
  | none => s

/-- R443, R448, R450, R462: an on-vote reaches a domain: a low domain starts to wake, an entry is abandoned unless
its step 4 has begun. A seam port that the device may not power stays unpowered (R48, R350). -/
def State.wakeDomain (s : State) (id : Nat) : State :=
  if !s.mayPower id then s
  else match s.dom id with
  | .on => s.retrainPort id
  | .waking _ => s
  | .entering r false =>
    let (n, s) := s.takeFree
    if Config.step4Begun n then s.updDom id fun d => { d with st := .entering r true }
    else s.updDom id fun d => { d with st := .on }
  | .entering _ true => s
  | low =>
    let s := s.updDom id fun d => { d with st := .waking (low == .retention), since := s.clock }
    if id == domEvent && s.power.regulator == .low then
      { s with power := { s.power with regulator := .rising, regSince := s.clock } }
    else s

/-- R443: a client takes a vote; a vote it already holds changes nothing. -/
def State.addVote (s : State) (c : Client) (id : Nat) (retain : Bool) : State :=
  let v : Vote := { client := c, domain := id, retain := retain }
  let s := if s.power.votes.contains v then s
    else { s with power := { s.power with votes := s.power.votes ++ [v] } }
  if retain then s else s.wakeDomain id

/-- R443: the hysteresis of a domain without on-votes counts from now. -/
def State.startHysteresis (s : State) (id : Nat) : State :=
  if s.votedOn id then s else s.updDom id fun d => { d with unvoted := s.time.wall }

/-- R443: a retained domain has nothing that keeps it retained: no retain-vote is left and its declared low state is off. -/
def State.retainedNoMore (s : State) (id : Nat) : Bool :=
  (s.voteEntry id).low == 0 && !(s.power.votes.any fun v => v.domain == id && v.retain) && !s.votedOn id

/-- R443: a retained domain whose last retain-vote goes, and whose declared low state is off, goes off at once. -/
def State.dropRetained (s : State) (id : Nat) : State :=
  if s.dom id == .retention && s.retainedNoMore id then
    s.updDom id fun d => { d with st := .entering false true, since := s.clock }
  else s

/-- R443: a client withdraws a vote. -/
def State.dropVote (s : State) (c : Client) (id : Nat) (retain : Bool) : State :=
  let v : Vote := { client := c, domain := id, retain := retain }
  if s.power.votes.contains v then
    let s := { s with power := { s.power with votes := s.power.votes.filter (· != v) } }
    if retain then s.dropRetained id else s.startHysteresis id
  else s

/-- Votes of one client taken for several domains. -/
def State.addVotes (s : State) (c : Client) (ids : List Nat) (retain : Bool) : State :=
  ids.foldl (fun s id => s.addVote c id retain) s

/-- Votes of one client withdrawn. -/
def State.dropVotes (s : State) (c : Client) (ids : List Nat) (retain : Bool) : State :=
  ids.foldl (fun s id => s.dropVote c id retain) s

/-- R332, R444, R516: what makes the event unit hold an on-vote for the event domain. -/
def State.eventBusy (s : State) : Bool :=
  !s.markers.fires.isEmpty || !s.look.ledger.isEmpty || !s.events.held.isEmpty

/-- R332, R444, R516: the event unit's votes for the event domain follow the fires, windows and records it holds. -/
def State.eventVotes (s : State) : State :=
  let s := if s.eventBusy then s.addVote .event domEvent false else s.dropVote .event domEvent false
  if !s.eventBusy && !s.events.queue.isEmpty then s.addVote .event domEvent true
  else s.dropVote .event domEvent true

/-! ### Wakes -/

/-- R453: the body of STATUS 0x10; `us` is the time to the control sequencer's first instruction. -/
def LastWake.body (w : LastWake) (us : Nat) : BitVec 128 :=
  bodyAt 0x10 48 w.pos.toNat ||| bodyAt 0x16 16 us
    ||| bodyAt 0x18 40 (wallUnits (w.wakeWall - w.leftOn)).toNat
    ||| bodyAt 0x1D 8 (bit w.coarse + 2 * bit w.hbmOff)

/-- R453, R516: the last-wake record of a wake that finds the control sequencer not on, and its STATUS 0x10 (log 33). -/
def State.recordWake (s : State) (cause detail : Nat) : State :=
  if s.isOn domControl then s
  else
    let s := { s with wake := { s.wake with
      cause := cause, detail := detail, pos := s.position, atClock := s.clock, wakeWall := s.time.wall,
      coarse := s.wake.coarse || !s.time.xt32, hbmOff := s.dom domHbm == DomState.off } }
    let s := { s with wake := { s.wake with awaiting :=
      (s.clock, s.wake.body 0) :: s.wake.awaiting.filter fun x => decide (s.clock < x.1 + 0xFFFF * usPs) } }
    s.status 0x10 (cause + 256 * detail) (s.wake.body 0xFFFF)

/-- R453: the µs from a wake to the present, saturated, in the place of STATUS 0x10. -/
def firstUs (since clock : Nat) : BitVec 128 := bodyAt 0x16 16 (min 0xFFFF ((clock - since) / usPs))

/-- R453: the STATUS 0x10 of a wake that still lacks the time to the first instruction receives it. -/
def Record.first (r : Record) (wakes : List (Nat × BitVec 128)) (clock : Nat) : Record :=
  if r.type == 8 && r.sub == 0x10 && !r.relayed then
    match wakes.find? fun x => r.body == (x.2 ||| bodyAt 0x16 16 0xFFFF) with
    | some (t, b) => { r with body := b ||| firstUs t clock }
    | none => r
  else r

/-- R453: the control sequencer issues an instruction; the first one completes the records of the wakes since which it has
issued none, where the device still has them (log 33). -/
def State.noteFirst (s : State) : State :=
  if s.wake.awaiting.isEmpty then s
  else
    let f (r : Record) : Record := r.first s.wake.awaiting s.clock
    { s with
      wake := { s.wake with awaiting := [] }
      events := { s.events with
        held := s.events.held.map f, queue := s.events.queue.map fun x => { x with record := f x.record } } }

/-- R445: the web client restores its run votes. -/
def State.restore (s : State) (cause : Nat) : State :=
  let s := s.addVotes .web s.runSet false
  let kept := s.power.votes.filter fun v => !(v.client == .web && v.retain)
  let s := { s with power := { s.power with votes := kept, web := .run, restoring := true } }
  s.statusPos 0x13 cause

/-- R449: a wake with its targets. -/
def State.raiseWake (s : State) (cause detail : Nat) (targets : List Nat) : State :=
  (s.recordWake cause detail).addVotes (.wake cause) targets false

/-! ### The control sequencer's entry points and events -/

/-- R131, R452: the entry point k of CTRL, if the pattern has one. -/
def State.entryPoint (s : State) (k : Nat) : Option Nat :=
  match s.pat.entries[k]? with
  | some pc => if pc = 0xFFFFFFFF then none else some pc
  | none => none

/-- R225, R251, R444: the control sequencer starts at an instruction in the state of R225, with its own on-vote. -/
def State.startControl (s : State) (pc : Nat) : State :=
  let s := { s with control := { s.control with
    seq := {
      active := true, pc := pc, tokens := s.control.seq.tokens
      flying := s.control.seq.flying, came := s.control.seq.came }
    waiting := none } }
  s.addVote .controlSelf domControl false

/-- R452: the first pending entry event starts when the sequencer is on and at HALT. -/
def State.startPending (s : State) : State :=
  if s.isOn domControl && !s.control.seq.active then
    match (List.range 8).find? fun k => s.control.pendingEntry.contains k with
    | some k =>
      let s := { s with control := { s.control with
        pendingEntry := s.control.pendingEntry.filter (· != k) } }
      match s.entryPoint k with
      | some pc => s.startControl pc
      | none => s
    | none => s
  else s

/-- R452: an entry-point event: it stays pending until the sequencer is at HALT; repeats merge. An event without an
entry point does nothing. -/
def State.raiseEntry (s : State) (k : Nat) : State :=
  if (s.entryPoint k).isSome then
    { s with control := { s.control with
      pendingEntry := k :: s.control.pendingEntry.filter (· != k) } }.startPending
  else s

/-- R251: a WAITE that waits goes on, on the domain that is on. -/
def State.resumeWaite (s : State) : State :=
  match s.control.waiting with
  | some _ =>
    let s := { s with control := { s.control with waiting := none, events := 0 } }
    s.addVote .controlSelf domControl false
  | none => s

/-- R251, R449: an event that a WAITE can select: bit 0 PLL lock, 1 commit done, 2 calibration end, 3 web stopped,
4 web moving. A WAITE that waits for it goes on, waking the sequencer first. -/
def State.controlEvent (s : State) (b : Nat) : State :=
  let s := { s with control := { s.control with
    events := s.control.events ||| BitVec.ofNat 5 (2 ^ b) } }
  match s.control.waiting with
  | some mask =>
    if mask &&& s.control.events = 0 then s
    else if s.isOn domControl then s.resumeWaite
    else s.raiseWake 0x16 b [domControl]
  | none => s

/-- R448, R449, R452: what came while the control sequencer was not on goes on as soon as it is, be it by a wake or because
its entry was abandoned: a WAITE whose event has occurred, then the first pending entry event. -/
def State.continueControl (s : State) : State :=
  if s.running && s.isOn domControl then
    let s := match s.control.waiting with
      | some m => if m &&& s.control.events = 0 then s else s.resumeWaite
      | none => s
    s.startPending
  else s

/-- R449: the votes of the wake matchers end once their domain is on (log 49). -/
def State.endWakes (s : State) : State :=
  (s.power.votes.filter fun v => match v.client with
    | .wake _ => s.isOn v.domain
    | _ => false).foldl (fun s v => s.dropVote v.client v.domain v.retain) s

/-- What follows every command that may have changed records, fires or votes. -/
def State.settle (s : State) : State :=
  s.noteDrops.continueControl.endWakes.eventVotes.checkRestored.settleClocks

end Sys2Proof.Machine
end

