-- ==== Sys2Proof/Machine/Geometry.lean ====
section
/-! DEFINITION. Lines, the bobbin and the halo rings: widths, packing of pixels and look-ups (R149, R159, R160, R162,
R273, R404). -/

namespace Sys2Proof.Machine

/-- The assembled line width W (R119, R149). -/
def Pattern.width (p : Pattern) : Nat := p.intk.width
/-- The pixel depth d (R119). -/
def Pattern.bits (p : Pattern) : Nat := p.intk.depth

/-- The used ports, CSI_A first (R119). -/
def Pattern.usedPorts (p : Pattern) : List Nat := (List.range 4).filter fun i => bitAt p.intk.mask i

/-- R159: the stride of a line in bytes. -/
def Pattern.stride (p : Pattern) : Nat := ceilDiv (p.width * p.bits) 512 * 64

/-- R160: the bobbin depth in lines; with no stride it is the descriptor store's 2,048. -/
def Pattern.bobbinDepth (p : Pattern) : Nat :=
  if p.stride = 0 then 2048 else min (12582912 / p.stride) 2048

/-- R159: pixels packed as a little-endian bit string, as a number. -/
def packBits (d : Nat) : List Nat → Nat
  | [] => 0
  | x :: xs => x % 2 ^ d + 2 ^ d * packBits d xs

/-- R159: pixels packed into n bytes. -/
def packPixels (d n : Nat) (px : List Nat) : List Byte := leBytes n (packBits d px)

/-- n pixels of d bits out of packed bytes. -/
def unpackPixels (d n : Nat) (bs : List Byte) : List Nat :=
  let v := leNat bs
  (List.range n).map fun i => v / 2 ^ (i * d) % 2 ^ d

/-- R160, R161: the descriptor of line s, if its ring position still names it. -/
def State.bobDesc (s : State) (q : LineSeq) : Option BobLine :=
  match s.bobbin.find? (·.1 == q.toNat % s.pat.bobbinDepth) with
  | some (_, l) => if l.seq == q then some l else none
  | none => none

/-- R162: the line s as a reader finds it: its descriptor still names it and it is not lost. -/
def State.bobLine (s : State) (q : LineSeq) : Option BobLine := (s.bobDesc q).filter fun l => !l.flags.getLsbD 7

/-- R160: a line written at its ring position. -/
def State.putLine (s : State) (l : BobLine) : State :=
  let k := l.seq.toNat % s.pat.bobbinDepth
  { s with bobbin := (k, l) :: s.bobbin.filter (·.1 != k) }

/-- R161: flag bits of a line descriptor. -/
def lineDamaged : Nat := 0
def lineEmpty : Nat := 1
def lineOversize : Nat := 2
def lineOverRate : Nat := 3
def lineEstimated : Nat := 4
def lineRevisit : Nat := 5
def lineScreened : Nat := 6
def lineLost : Nat := 7

/-- R161: one flag of a descriptor. -/
def BobLine.has (l : BobLine) (i : Nat) : Bool := l.flags.getLsbD i

/-- R150: a line of class normal: none of damaged, empty, oversize and over-rate. -/
def BobLine.normal (l : BobLine) : Bool := l.flags &&& 0x0F#8 == 0

/-- A halo side: 0 west, 1 east, with its port. -/
def sidePort (side : Fin 2) : SeamId := if side = 0 then 1 else 0

/-- R128, R273: BOLT declares the side. -/
def State.sideDeclared (s : State) (side : Fin 2) : Bool :=
  (s.role != 0) && ((s.entry.map fun e => bitAt e.seams (sidePort side).val).getD false)

/-- R404: the halo width that this device receives on a side. -/
def State.haloWidth (s : State) (side : Fin 2) : Nat :=
  (s.entry.map fun e => if side = 0 then e.westHalo else e.eastHalo).getD 0

/-- R381: the neighbour's address on a side. -/
def State.sideAddress (s : State) (side : Fin 2) : Addr := if side = 0 then s.address - 1 else s.address + 1

/-- R404: the halo width that the neighbour on a side receives from this device. -/
def State.haloSent (s : State) (side : Fin 2) : Nat :=
  ((s.pat.boltEntry (s.sideAddress side)).map fun e => if side = 0 then e.eastHalo else e.westHalo).getD 0

/-- R365: the flits of a halo line of h pixels of d bits. -/
def haloFlits (h d : Nat) : Nat := 1 + ceilDiv (ceilDiv (h * d) 8 - 40) 48

/-- R273: the ring entry of line s on a side, if it names that line. -/
def State.haloEntry (s : State) (side : Fin 2) (q : LineSeq) : Option HaloEntry :=
  match s.bolt.halo[side].ring.find? (·.1 == q.toNat % s.pat.bobbinDepth) with
  | some (_, e) => if e.seq == q then some e else none
  | none => none

/-- R273: an entry written at its ring position. -/
def State.putHalo (s : State) (side : Fin 2) (e : HaloEntry) : State :=
  let k := e.seq.toNat % s.pat.bobbinDepth
  { s with bolt := { s.bolt with halo := Vector.upd s.bolt.halo side fun h =>
    { h with ring := (k, e) :: h.ring.filter (·.1 != k) } } }

/-- R322: the number of places of a history segment's contents: key and value widths. -/
def Hist.elements (h : Hist) : Nat := h.keyW + h.valW

/-- R408: the flits of a history reply. -/
def Hist.replyFlits (h : Hist) : Nat := 1 + ceilDiv (h.elements - 32) 48

end Sys2Proof.Machine
end

