-- ==== Sys2Proof/Machine/Tile.lean ====
section
/-! DEFINITION. Tile descriptors: loop order, element addresses, blocks, words and banks (R253 to R259, R312, R323). -/

namespace Sys2Proof.Machine

/-- Codes of R253: spaces and forms. -/
def spScratch : Nat := 0
def spCommons : Nat := 1
def spHbm : Nat := 2
def spBobbin : Nat := 3
def spWest : Nat := 4
def spEast : Nat := 5

/-- Dimensions in the order of the descriptor: M, N, K, H, W. -/
def dimM : Nat := 0
def dimN : Nat := 1
def dimK : Nat := 2
def dimH : Nat := 3
def dimW : Nat := 4

/-- R256: the dimensions from innermost to outermost that the rest of a code lists. -/
def permTake : List Nat → Nat → List Nat → List Nat
  | f :: fs, q, l => let x := l.getD (q / f) 0; x :: permTake fs (q % f) (l.erase x)
  | [], _, l => l

/-- R256: the dimension at each position of a permutation code. -/
def permDims (p : Nat) : List Nat := permTake [24, 6, 2, 1] p [dimK, dimW, dimH, dimN, dimM]

/-- R256: the position of a dimension. -/
def permPos (p dim : Nat) : Nat := (permDims p).idxOf dim

/-- R226: idx of a loop level; 0 where it is not open. -/
def loopIdx (loops : List LoopLevel) (l : Nat) : Nat := (loops[l]?.map (·.idx)).getD 0

/-- R253: an extent and a stride. -/
def TileDesc.e (d : TileDesc) (k : Nat) : Nat := d.ext.getD k 0
def TileDesc.st (d : TileDesc) (k : Nat) : Int := d.stride.getD k 0

/-- R255: the number of elements. -/
def TileDesc.count (d : TileDesc) : Nat := d.e 0 * d.e 1 * d.e 2 * d.e 3 * d.e 4

/-- R255: where the tile starts along a dimension. -/
def TileDesc.org (d : TileDesc) (loops : List LoopLevel) (k : Nat) : Nat :=
  let l := d.first + permPos d.perm k
  (if l < 4 then loopIdx loops l else 0) * d.e k

/-- R257: block length, 1 where elements are not blocked, and block place in bytes. -/
def TileDesc.blockLen (d : TileDesc) : Nat :=
  if d.form = 0 then if d.fmt = fmtBX8 then 32 else 1 else 64
def TileDesc.place (d : TileDesc) : Nat :=
  if d.form = 0 then 33 else if d.form = 1 then 8 * d.budget else 128

/-- R257: the tile addresses whole blocks. -/
def TileDesc.isBlocked (d : TileDesc) : Bool := d.blockLen != 1

/-- R255: the coordinates (M, N, K, H, W) in transfer order: M, N, H, W, then K innermost. -/
def TileDesc.coords (d : TileDesc) : List (List Nat) :=
  (List.range (d.e dimM)).flatMap fun m => (List.range (d.e dimN)).flatMap fun n =>
    (List.range (d.e dimH)).flatMap fun h => (List.range (d.e dimW)).flatMap fun w =>
      (List.range (d.e dimK)).map fun k => [m, n, k, h, w]

/-- R255: the transfer index of coordinates. -/
def TileDesc.indexOf (d : TileDesc) (c : List Nat) : Nat :=
  let g i := c.getD i 0
  (((g dimM * d.e dimN + g dimN) * d.e dimH + g dimH) * d.e dimW + g dimW) * d.e dimK + g dimK

/-- R255, R257: the address of an element, or of its block: bytes, or 4-bit units for plain INT4. -/
def TileDesc.addr (d : TileDesc) (base : Int) (loops : List LoopLevel) (c : List Nat) : Int :=
  ((List.range 5).map fun k =>
    let p := d.org loops k + c.getD k 0
    (if d.isBlocked && k == d.blocked then ((p / d.blockLen : Nat) : Int) else (p : Int)) * d.st k).foldl (· + ·) base

/-- R257: the place of an element within its block. -/
def TileDesc.inBlock (d : TileDesc) (loops : List LoopLevel) (c : List Nat) : Nat :=
  (d.org loops d.blocked + c.getD d.blocked 0) % d.blockLen

/-- R258: the origin of a quad-striped tile. -/
def TileDesc.origin (d : TileDesc) (base : Int) (loops : List LoopLevel) : Int :=
  ((List.range 5).map fun k => (d.org loops k : Int) * d.st k).foldl (· + ·) base

/-- R258: the byte address of element (i, j) of a quad-striped tile. -/
def quadAddr (origin i j : Nat) : Nat :=
  (origin / 65536 + 2 * (i % 2) + j / 16) * 65536 + (origin % 65536 / 64 + i / 2) * 64 + 4 * (j % 16)

/-- Where one element or block lies: its first byte and its bytes. Half of a byte counts as the byte (R254). -/
def TileDesc.span (d : TileDesc) (base : Int) (loops : List LoopLevel) (c : List Nat) : Int × Nat :=
  if d.layout = 1 then
    ((quadAddr (d.origin base loops).toNat (c.getD 0 0) (c.getD 1 0) : Nat), 4)
  else
    let a := d.addr base loops c
    if d.isBlocked then (a, d.place)
    else if d.fmt = fmtI4 then (a / 2, 1)
    else (a, fmtBits d.fmt / 8)

/-- The coordinates of the first element of each block, or of each element, in transfer order. -/
def TileDesc.units (d : TileDesc) : List (List Nat) :=
  if d.isBlocked then d.coords.filter fun c => c.getD d.blocked 0 % d.blockLen == 0 else d.coords

/-- Neighbouring equal values once. -/
def dropRepeats : List Nat → List Nat
  | a :: b :: l => if a = b then dropRepeats (b :: l) else a :: dropRepeats (b :: l)
  | l => l

/-- Values in ascending order, each once. -/
def ascending (l : List Nat) : List Nat := dropRepeats ((dropRepeats l).insertionSort (· ≤ ·))

/-- R259: the 64-byte words that hold a byte of the tile, ascending. -/
def TileDesc.words (d : TileDesc) (base : Int) (loops : List LoopLevel) : List Nat :=
  ascending (d.units.flatMap fun c =>
    let (a, n) := d.span base loops c
    let lo := a.toNat / 64
    (List.range ((a.toNat + n + 63) / 64 - lo)).map (lo + ·))

/-- R264: the lowest and highest byte of the tile widened to whole words, as [lo, hi). -/
def TileDesc.range (d : TileDesc) (loops : List LoopLevel) : Nat × Nat :=
  let w := d.words d.base loops
  match w.head?, w.getLast? with
  | some a, some b => (64 * a, 64 * b + 64)
  | _, _ => (0, 0)

/-- R259: bytes of the expanded tile. -/
def TileDesc.expandedBytes (d : TileDesc) : Nat :=
  if d.form = 0 ∧ d.fmt = fmtBX8 then d.count / 32 * 33 else ceilDiv (d.count * fmtBits d.fmt) 8

/-- R312: the columns of a bobbin or halo tile: its first column and its number of columns. -/
def TileDesc.firstColumn (d : TileDesc) (patch : Nat) : Int := 64 * (patch : Int) + 32 - ((d.e dimW / 2 : Nat) : Int)

/-- A signed line offset (R254). -/
def TileDesc.lineOffset (d : TileDesc) : Int := signed 64 d.base

/-- R259: words of one line's pixels from column a for n columns, of w columns and b bits; the halo header word apart. -/
def lineWords (w b : Nat) (a : Int) (n : Nat) : Nat :=
  let lo := max a 0
  let hi := min (a + n) w
  if hi ≤ lo then 0 else ((hi.toNat * b + 511) / 512) - (lo.toNat * b / 512)

/-- R323: a view descriptor. -/
def TileDesc.isView (d : TileDesc) : Bool := d.space == spCommons && d.form == 1 && d.tid == 0xFFFFFFFF

/-- R126, R322, R323: the stride of a view entry: 3 × (K − 1) places rounded up to 64 bytes. -/
def Hist.place (h : Hist) : Nat := ceilDiv h.elements 64 * (8 * h.budget)
def Hist.viewBytes (h : Hist) : Nat := 3 * (h.revs - 1) * h.place
def Hist.viewStride (h : Hist) : Nat := ceilDiv h.viewBytes 64 * 64

/-! ### The commons map (R263) -/

/-- R273: bytes of a halo ring entry, and lines of a ring. -/
def haloStride (h d : Nat) : Nat := 64 + ceilDiv (h * d) 512 * 64
def Pattern.flatLines (p : Pattern) : Nat := 2 * ceilDiv (p.width * 6) 4096
def State.haloLines (s : State) (side : Fin 2) : Nat :=
  if s.sideDeclared side then ceilDiv (s.pat.bobbinDepth * haloStride (s.haloWidth side) s.pat.bits) 4096 else 0
def State.haloStart (s : State) (side : Fin 2) : Nat :=
  s.pat.flatLines + (if side = 0 then 0 else s.haloLines 0)
/-- R263, R323: the first line of the view ring and its lines. -/
def State.viewStart (s : State) : Nat := s.pat.flatLines + s.haloLines 0 + s.haloLines 1
def State.viewLines (s : State) : Nat :=
  match s.pat.hist with
  | some h => if s.pat.dlin.density = 0 then 0 else ceilDiv (s.pat.dlin.density * h.viewStride) 4096
  | none => 0
/-- R263: lines of the history area, which ends at line 2,047. -/
def Pattern.historyLines (p : Pattern) : Nat :=
  match p.hist with
  | some h => ceilDiv (h.resident * h.place) 4096
  | none => 0

/-- R323: the byte address of the view entry of an ordinal. -/
def State.viewEntry (s : State) (ordinal : Nat) : Nat :=
  4096 * s.viewStart + (match s.pat.hist with
    | some h => if s.pat.dlin.density = 0 then 0 else ordinal % s.pat.dlin.density * h.viewStride
    | none => 0)

/-! ### Which words a tile takes in an access -/

/-- What a body's tiles are read against: reference line, patch and ordinal (R312, R323). -/
structure BodyRef where
  ref : LineSeq := 0
  patch : Nat := 0
  ordinal : Nat := 0
  deriving DecidableEq, Repr, Inhabited

/-- R323: the base of a descriptor, the entry's start for a view descriptor in a body. -/
def State.baseOf (s : State) (d : TileDesc) (b : Option BodyRef) : Int :=
  if d.isView then match b with
    | some b => s.viewEntry b.ordinal
    | none => d.base
  else d.base

/-- R259: the stored words of a tile. For a bobbin or halo tile the words of its lines' pixels, with each header word of a
ring. -/
def State.tileWords (s : State) (d : TileDesc) (loops : List LoopLevel) (b : Option BodyRef) : Nat :=
  if d.count = 0 then 0
  else if d.space ≤ spHbm then (d.words (s.baseOf d b) loops).length
  else
    let a := d.firstColumn ((b.map (·.patch)).getD 0)
    if d.space = spBobbin then d.e dimH * lineWords s.pat.width s.pat.bits a (d.e dimW)
    else
      let side : Fin 2 := if d.space = spWest then 0 else 1
      let h := s.haloWidth side
      let c := if d.space = spWest then a + h else a - s.pat.width
      d.e dimH * (1 + lineWords h s.pat.bits c (d.e dimW))

end Sys2Proof.Machine
end

