-- ==== Sys2Proof/Machine/Stores.lean ====
section
/-! DEFINITION. The protected stores: scratch and commons with parity, HBM with its ECC, and the upsets that a read meets
(R196, R262, R271, R417). -/

namespace Sys2Proof.Machine

/-- What a read finds: a bad word of a panel's scratch, of the commons, or of HBM (R417). -/
inductive Found where
  | scratch (panel word : Nat)
  | commons (word : Nat)
  | hbm (word : Nat)
  deriving DecidableEq, Repr, Inhabited

/-- The number of ones in a byte. -/
def ones (b : Byte) : Nat := (List.range 8).countP fun i => b.getLsbD i

/-- R196: an upset of an odd number of bits makes a byte disagree with its parity bit, or agree again. -/
def toggleParity (bad : List Nat) (a : Nat) (flip : Byte) : List Nat :=
  if ones flip % 2 = 0 then bad else if bad.contains a then bad.erase a else a :: bad

/-- The bytes of one store after an upset. -/
def flipCell (m : List Host.Cell) (a : Nat) (flip : Byte) : List Host.Cell :=
  Memory.write 0 m a (Memory.read 0 m a ^^^ flip)

/-- One panel changed. -/
def State.updPanel (s : State) (p : PanelId) (f : Panel → Panel) : State :=
  { s with panels := Vector.upd s.panels p f }

/-- R263: bytes of one flat-field set in the commons. -/
def Pattern.flatSetBytes (p : Pattern) : Nat := ceilDiv (p.width * 6) 4096 * 4096

/-- Bytes with the byte at an offset changed by an upset. -/
def flipByte (bs : List Byte) (i : Nat) (flip : Byte) : List Byte := bs.modify i (· ^^^ flip)

/-- R263, R155: the coefficients after an upset of byte k of their set: six bytes per pixel, g, o and m. -/
def CoefSet.flip (c : CoefSet) (k : Nat) (flip : Byte) : CoefSet :=
  let i := k / 6
  let sh : Nat := flip.toNat * 2 ^ (8 * (k % 2))
  if k % 6 < 2 then { c with g := c.g.modify i (Nat.xor · sh) }
  else if k % 6 < 4 then { c with o := c.o.modify i fun v => signed 16 (Nat.xor (unsigned 16 v) sh) }
  else { c with m := c.m.modify i (Nat.xor · sh) }

/-- R157: coefficients with a change made. -/
def CoefChange.apply (c : CoefSet) (x : CoefChange) : CoefSet :=
  { g := x.g.getD c.g, o := x.o.getD c.o, m := x.m.getD c.m }

/-- R157, R263: the set that waits, as the oldest change wrote it over the set in use, after an upset of its byte k. -/
def CoefChange.flip (x : CoefChange) (c : CoefSet) (k : Nat) (flip : Byte) : CoefChange :=
  let n := (x.apply c).flip k flip
  if k % 6 < 2 then { x with g := some n.g } else if k % 6 < 4 then { x with o := some n.o } else { x with m := some n.m }

/-- R273: a halo entry after an upset of byte k of its place: the sequence number, the flags or a pixel. -/
def HaloEntry.flip (e : HaloEntry) (d k : Nat) (flip : Byte) : HaloEntry :=
  if k < 5 then { e with seq := e.seq ^^^ (flip.setWidth 40 <<< (8 * k)) }
  else if k = 5 then { e with flags := e.flags ^^^ flip.setWidth 4 }
  else if k < 64 then e
  else
    let n := e.pixels.length
    { e with pixels := unpackPixels d n (flipByte (packPixels d (ceilDiv (n * d) 8) e.pixels) (k - 64) flip) }

/-- R263: the halo side and the byte within its ring of a commons address. -/
def State.haloByte (s : State) (a : Nat) : Option (Fin 2 × Nat) :=
  let line := a / 4096
  ([0, 1] : List (Fin 2)).findSome? fun side =>
    if s.haloStart side ≤ line ∧ line < s.haloStart side + s.haloLines side then
      some (side, a - 4096 * s.haloStart side) else none

/-- R262: a byte of the commons changed, in whatever region it lies. -/
def State.flipCommons (s : State) (a : Nat) (flip : Byte) : State :=
  if a < 2 * s.pat.flatSetBytes then
    let set := a / s.pat.flatSetBytes
    let k := a % s.pat.flatSetBytes
    if set = s.intake.coefBank then { s with intake := { s.intake with coef := s.intake.coef.flip k flip } }
    else
      match s.intake.coefNext with
      | [] => { s with intake := { s.intake with coefPrev := s.intake.coefPrev.flip k flip } }
      | x :: rest => { s with intake := { s.intake with coefNext := x.flip s.intake.coef k flip :: rest } }
  else
    match s.haloByte a with
    | some (side, k) =>
      let st := haloStride (s.haloWidth side) s.pat.bits
      { s with bolt := { s.bolt with halo := Vector.upd s.bolt.halo side fun h =>
        { h with ring := updFirst (fun x : Nat × HaloEntry => x.1 == k / st) (fun (i, e) =>
          (i, e.flip s.pat.bits (k % st) flip)) h.ring } } }
    | none => { s with commons := { s.commons with mem := flipCell s.commons.mem a flip } }

/-- R262: an upset of a commons byte. -/
def State.upsetCommons (s : State) (a : Nat) (flip : Byte) : State :=
  { s with commons := { s.commons with badParity := toggleParity s.commons.badParity a flip } }.flipCommons a flip

/-- R196, R262, R271: an upset strikes; `p` is the panel whose scratch it may be. -/
def State.upset (s : State) (p : PanelId) (u : Upset) : State :=
  match u.store with
  | .scratch => s.updPanel p fun x =>
    { x with scratch := flipCell x.scratch u.addr u.flip, badParity := toggleParity x.badParity u.addr u.flip }
  | .commons => s.upsetCommons u.addr u.flip
  | .hbm =>
    let w := u.addr / 32
    let e : BitVec 256 := u.flip.setWidth 256 <<< (8 * (u.addr % 32))
    let old := ((s.hbm.errors.find? (·.1 == w)).map (·.2)).getD 0
    { s with hbm := { s.hbm with errors := (w, old ^^^ e) :: s.hbm.errors.filter (·.1 != w) } }

/-- Every upset that a command carries strikes. -/
def State.upsets (s : State) (p : PanelId) (u : List Upset) : State := u.foldl (fun s x => s.upset p x) s

/-! ### Scratch and commons -/

/-- Bytes of a range whose parity disagrees. -/
def badIn (bad : List Nat) (a n : Nat) : List Nat := bad.filter fun b => decide (a ≤ b ∧ b < a + n)

/-- R196: bytes of a panel's scratch, and the words of them with a parity error. -/
def Panel.readScratch (x : Panel) (p a n : Nat) : List Byte × List Found :=
  (Memory.readN 0 x.scratch a n, (ascending ((badIn x.badParity a n).map (· / 64))).map fun w => .scratch p w)

/-- Bytes of a panel's scratch written, each with its parity bit. -/
def Panel.writeScratch (x : Panel) (a : Nat) (bs : List Byte) : Panel :=
  { x with
    scratch := Memory.writeN 0 x.scratch a bs
    badParity := x.badParity.filter fun b => decide (b < a) || decide (a + bs.length ≤ b) }

/-- R262: bytes of the commons, and the words of them with a parity error. -/
def State.readCommons (s : State) (a n : Nat) : List Byte × List Found :=
  (Memory.readN 0 s.commons.mem a n, (ascending ((badIn s.commons.badParity a n).map (· / 64))).map .commons)

/-- Bytes of the commons written, each with its parity bit. -/
def State.writeCommons (s : State) (a : Nat) (bs : List Byte) : State :=
  { s with commons := { s.commons with
    mem := Memory.writeN 0 s.commons.mem a bs
    badParity := s.commons.badParity.filter fun b => decide (b < a) || decide (a + bs.length ≤ b) } }

/-- A written region of the commons that another field holds gets good parity. -/
def State.cleanCommons (s : State) (a n : Nat) : State :=
  { s with commons := { s.commons with
    badParity := s.commons.badParity.filter fun b => decide (b < a) || decide (a + n ≤ b) } }

/-! ### HBM -/

/-- The number of ones in a 256-bit error pattern. -/
def ones256 (e : BitVec 256) : Nat := (List.range 256).countP fun i => e.getLsbD i

/-- R271: one 256-bit word delivered: its bytes, whether it was corrected, and whether it is uncorrectable. Three or more
wrong bits end as the free values say (log 10, 11). -/
def State.readHbmWord (s : State) (w : Nat) : List Byte × Bool × Bool × State :=
  let good := Memory.readN 0 s.hbm.mem (32 * w) 32
  let e := ((s.hbm.errors.find? (·.1 == w)).map (·.2)).getD 0
  let raw := leBytes 32 ((BitVec.ofNat 256 (leNat good)) ^^^ e).toNat
  match ones256 e with
  | 0 => (good, false, false, s)
  | 1 => (good, true, false, s)
  | 2 => (raw, false, true, s)
  | _ =>
    let (n, s) := s.takeFree
    match Config.eccOutcome n with
    | 0 => (raw, false, false, s)
    | 1 => ((List.range 32).map fun i => Config.freeByte (32 * n + i), true, false, s)
    | _ => (raw, false, true, s)

/-- R271: the words that hold [a, a + n), with corrections counted; the bytes read and the uncorrectable words. -/
def State.readHbm (s : State) (a n : Nat) : List Byte × List Found × State :=
  if n = 0 then ([], [], s)
  else
    let w0 := a / 32
    let (bs, fs, s) := (List.range ((a + n + 31) / 32 - w0)).foldl (fun (bs, fs, s) i =>
      let (b, cor, bad, s) := State.readHbmWord s (w0 + i)
      let s := if cor then { s with hbm := { s.hbm with corrected := satAdd 32 s.hbm.corrected 1 } } else s
      (bs ++ b, if bad then fs ++ [Found.hbm (w0 + i)] else fs, s)) (([] : List Byte), ([] : List Found), s)
    ((bs.drop (a % 32)).take n, fs, s)

/-- Whole words of HBM written: their errors are gone. -/
def State.writeHbm (s : State) (a : Nat) (bs : List Byte) : State :=
  { s with hbm := { s.hbm with
    mem := Memory.writeN 0 s.hbm.mem a bs
    errors := s.hbm.errors.filter fun (w, _) => decide (32 * w + 32 ≤ a) || decide (a + bs.length ≤ 32 * w) } }

/-! ### Regions (R263, R269, R417) -/

/-- R239, R267: the staging and result bytes of the trees are static lines; R417: the region code of a commons line. -/
def State.commonsRegion (s : State) (line : Nat) : Nat :=
  if line < s.pat.flatLines then 0
  else if line < s.viewStart then 1
  else if line < s.viewStart + s.viewLines then 5
  else if 2048 - s.pat.historyLines ≤ line then 4
  else if s.commons.pins.any (fun p => p.lines.contains line) then 3 else 2

/-- R269: starts of the HBM regions: FLAT and history. -/
def up4k (a : Nat) : Nat := ceilDiv a 4096 * 4096
def Pattern.flatBase (p : Pattern) : Nat := up4k p.footprint
def Pattern.flatLen (p : Pattern) : Nat :=
  ((p.table.find? fun e => e.tag == 0x54414C46).map (·.length)).getD 0
def Pattern.historyBase (p : Pattern) : Nat := up4k (p.flatBase + p.flatLen)

/-- R417: the region code of an HBM word. -/
def Pattern.hbmRegion (p : Pattern) (word : Nat) : Nat :=
  if 32 * word < p.flatBase then 0 else if 32 * word < p.historyBase then 1 else 2

end Sys2Proof.Machine
end

