-- ==== Sys2Proof/Machine/Stitch.lean ====
section
/-! DEFINITION. Stitch instructions: the 64-bit words of panel and control programs (R227, R236, R251). -/

namespace Sys2Proof.Machine

/-- A decoded stitch instruction. Descriptor fields keep their 12 bits: 0xFFE names VQ, 0xFFF none. -/
inductive Stitch where
  | nop (n : Nat)
  | loadt (src dst target array off : Nat)
  | storet (src dst : Nat)
  | streamw (src dst target array off : Nat)
  | drain (array bank toggle target dst : Nat)
  | mm (array bank toggle clear fmtA fmtB k offA offB : Nat)
  | cimv (lattice bits sign width src dst row col : Nat)
  | vector (op dst s1 s2 away cls imm : Nat)
  | loop (n len : Nat)
  | sigk (target token inc : Nat)
  | waitk (token count : Nat)
  | combine (src dst index g tree : Nat)
  | pin (src : Nat)
  | free (src : Nat)
  | vote (domain : Nat)
  | unvote (domain : Nat)
  | slot (id len cost : Nat)
  | verdict (src : Nat)
  | halt
  | pllsw
  | waite (mask : Nat)
  | stage (src field : Nat)
  | commit
  deriving DecidableEq, Repr, Inhabited

/-- R227: VQ and no operand. -/
def descVq : Nat := 0xFFE
def descNone : Nat := 0xFFF

/-- R236: the vector opcodes with an operation. -/
def vectorOp (op : Nat) : Bool :=
  decide (0x20 ≤ op ∧ op ≤ 0x36) || decide (0x38 ≤ op ∧ op ≤ 0x3B)

/-- R227, R236, R251: the instruction of a word; an opcode that no table lists has none. -/
def decodeStitch (w : BitVec 64) : Option Stitch :=
  let v := w.toNat
  let f hi lo := field v hi lo
  match f 63 56 with
  | 0x00 => some (.nop (f 23 0))
  | 0x01 => some (.loadt (f 55 44) (f 43 32) (f 31 30) (f 29 28) (f 27 19))
  | 0x02 => some (.storet (f 55 44) (f 43 32))
  | 0x03 => some (.streamw (f 55 44) (f 43 32) (f 31 30) (f 29 28) (f 27 19))
  | 0x08 => some (.drain (f 55 54) (f 53 53) (f 52 52) (f 51 51) (f 43 32))
  | 0x10 => some (.mm (f 55 54) (f 53 53) (f 52 52) (f 51 51) (f 50 47) (f 46 43) (f 42 32) (f 31 23) (f 22 14))
  | 0x11 => some (.cimv (f 55 55) (f 54 52 + 1) (f 51 51) (f 50 49) (f 47 36) (f 35 24) (f 23 15) (f 14 8))
  | 0x40 => some (.loop (f 55 40 + 1) (f 39 28))
  | 0x50 => some (.sigk (f 55 51) (f 50 46) (f 45 38))
  | 0x51 => some (.waitk (f 50 46) (f 45 30))
  | 0x60 => some (.combine (f 55 44) (f 43 32) (f 31 28) (f 27 24 + 1) (f 23 20))
  | 0x70 => some (.pin (f 55 44))
  | 0x71 => some (.free (f 55 44))
  | 0x78 => some (.vote (f 55 40))
  | 0x79 => some (.unvote (f 55 40))
  | 0x7C => some (.slot (f 55 40) (f 39 28) (f 27 0))
  | 0x7D => some (.verdict (f 55 44))
  | 0x7F => some .halt
  | 0x80 => some .pllsw
  | 0x81 => some (.waite (f 55 48))
  | 0x82 => some (.stage (f 55 44) (f 31 16))
  | 0x83 => some .commit
  | op =>
    if vectorOp op then some (.vector op (f 55 44) (f 43 32) (f 31 20) (f 19 19) (f 18 18) (f 15 0)) else none

/-- The bits of each opcode's fields (R227, R251): those outside are reserved (R8). -/
def stitchMask (op : Nat) : Nat :=
  let bits hi lo := (2 ^ (hi + 1 - lo) - 1) * 2 ^ lo
  bits 63 56 + match op with
  | 0x00 => bits 23 0
  | 0x01 => bits 55 19
  | 0x02 => bits 55 32
  | 0x03 => bits 55 19
  | 0x08 => bits 55 51 + bits 43 32
  | 0x10 => bits 55 14
  | 0x11 => bits 55 8
  | 0x40 => bits 55 28
  | 0x50 => bits 55 38
  | 0x51 => bits 50 30
  | 0x60 => bits 55 20
  | 0x70 => bits 55 44
  | 0x71 => bits 55 44
  | 0x78 => bits 55 40
  | 0x79 => bits 55 40
  | 0x7C => bits 55 0
  | 0x7D => bits 55 44
  | 0x81 => bits 55 48
  | 0x82 => bits 55 44 + bits 31 16
  | _ => if vectorOp op then bits 55 18 + bits 15 0 else 0

/-- R226, R243: the length of the body that a LOOP or SLOT opens. -/
def Stitch.bodyLen : Stitch → Option Nat
  | .loop _ l => some l
  | .slot _ l _ => some l
  | _ => none

end Sys2Proof.Machine
end

