-- ==== Sys2Proof/Machine/Timing.lean ====
section
/-! DEFINITION. The timing model of the stitch programs: issue, hazards, costs, scratch accesses and bank conflicts
(R228 to R249). -/

namespace Sys2Proof.Machine

/-- R249: where an instruction's body and level stand: worst case for a proof. -/
structure TimeCtx where
  /-- core clock in MHz (R230) and core cycles of a lattice phase. -/
  mhz : Nat := 400
  body : Option BodyRef := none
  /-- a proof: tiles of a body count their words in the worst patch. -/
  worst : Bool := false
  deriving DecidableEq, Repr, Inhabited

/-- Table: lattice phase: 40 ns in core cycles. -/
def latticePhase (mhz : Nat) : Nat := mhz * 40 / 1000

/-- R256, R227: the descriptor of a field. -/
def Pattern.tile (p : Pattern) (d : Nat) : TileDesc := p.tiles.getD d {}

/-- R259: the stored words of a tile in a context. -/
def State.wordsIn (s : State) (c : TimeCtx) (loops : List LoopLevel) (d : TileDesc) : Nat :=
  if c.worst then
    ((List.range (max 1 (ceilDiv s.pat.width 64))).map fun p =>
      s.tileWords d loops (some { patch := p })).foldl max 0
  else s.tileWords d loops c.body

/-- Byte ranges that meet end to end joined. -/
def joinRanges (l : List (Nat × Nat)) : List (Nat × Nat) :=
  l.foldr (fun (a, b) acc => match acc with
    | (c, d) :: t => if b = c then (a, d) :: t else (a, b) :: acc
    | [] => [(a, b)]) []

/-- R247: the byte ranges a tile addresses. -/
def State.tileRanges (s : State) (c : TimeCtx) (loops : List LoopLevel) (d : TileDesc) : List (Nat × Nat) :=
  joinRanges (d.units.map fun x =>
    let (a, n) := d.span (s.baseOf d c.body) loops x
    (a.toNat, a.toNat + n))

/-- R247: the resources of a tile. -/
def State.tileRes (s : State) (c : TimeCtx) (loops : List LoopLevel) (d : TileDesc) : List Res :=
  if d.space = spScratch then (s.tileRanges c loops d).map fun (a, b) => .scratch a b
  else if d.space = spCommons then (s.tileRanges c loops d).map fun (a, b) => .commons a b
  else if d.space = spHbm then let (a, b) := d.range loops; [.hbm a b]
  else []

/-- A source or destination field: VQ or a tile. -/
def State.fieldRes (s : State) (c : TimeCtx) (loops : List LoopLevel) (f : Nat) : List Res :=
  if f = descVq then [.vq] else if f = descNone then [] else s.tileRes c loops (s.pat.tile f)

/-- R247: two resources overlap. -/
def Res.meets (a b : Res) : Bool :=
  match a, b with
  | .scratch l h, .scratch l' h' => decide (l < h' ∧ l' < h)
  | .commons l h, .commons l' h' => decide (l < h' ∧ l' < h)
  | .hbm l h, .hbm l' h' => decide (l < h' ∧ l' < h)
  | .fileA x l h, .fileA x' l' h' => x == x' && decide (l < h' ∧ l' < h)
  | .fileB x l h, .fileB x' l' h' => x == x' && decide (l < h' ∧ l' < h)
  | .acc x, .acc y => x == y
  | .vq, .vq => true
  | .token x, .token y => x == y
  | _, _ => false

/-- Two lists of resources have an overlap. -/
def resMeet (a b : List Res) : Bool := a.any fun x => b.any fun y => x.meets y

/-- R229: bytes of a tile's row in an operand file. -/
def TileDesc.rowBytes (d : TileDesc) (target : Nat) : Nat :=
  let rows := if target = 1 then d.e dimM else d.e dimN
  let n := if rows = 0 then 0 else d.count / rows
  if d.fmt = fmtBX8 then n / 32 * 33 else ceilDiv (n * fmtBits d.fmt) 8

/-- R232: bytes that K elements of a format take in an operand file row. -/
def kBytes (fmt k : Nat) : Nat := if fmt = fmtBX8 then k / 32 * 33 else ceilDiv (k * fmtBits fmt) 8

/-- R200: input cycles of an MM. -/
def inputCycles (a b k : Nat) : Nat :=
  if a = fmtI4 ∧ b = fmtI4 then ceilDiv k 2
  else if fmtBits a = 16 ∨ fmtBits b = 16 then 4 * k else k

/-- R232: the accumulator bank in use: the field, with the toggle by idx[0]. -/
def bankOf (bank toggle : Nat) (loops : List LoopLevel) : Nat :=
  if toggle = 1 then (bank + loopIdx loops 0) % 2 else bank

/-- R229: the destination of a LOADT or STREAMW. -/
def State.loadDest (s : State) (c : TimeCtx) (loops : List LoopLevel) (src dst target array off : Nat) : List Res :=
  let n := (s.pat.tile src).rowBytes target
  if target = 1 then [.fileA array off (off + n)] else if target = 2 then [.fileB array off (off + n)]
  else s.fieldRes c loops dst

/-- R239: W, the words of a COMBINE's result tile D. -/
def State.combineWords (s : State) (loops : List LoopLevel) (d : Nat) : Nat :=
  ((s.pat.tile d).words (s.pat.tile d).base loops).length

/-- R267: a COMBINE's staging in the commons, g times W words directly after the last word of D. -/
def State.stagingRange (s : State) (loops : List LoopLevel) (d g : Nat) : Nat × Nat :=
  let (_, hi) := (s.pat.tile d).range loops
  (hi, hi + 64 * (g * s.combineWords loops d))

/-- R225, R247: the unit of an instruction and the resources it reads and writes. -/
def State.need (s : State) (c : TimeCtx) (loops : List LoopLevel) : Stitch → PUnit × List Res × List Res
  | .loadt a d tg x off => (.move, s.fieldRes c loops a, s.loadDest c loops a d tg x off)
  | .storet a d => (.move, s.fieldRes c loops a, s.fieldRes c loops d)
  | .streamw a d tg x off => (.stream, s.fieldRes c loops a, s.loadDest c loops a d tg x off)
  | .drain x b tog tgt d =>
    (.array x, [.acc (2 * x + bankOf b tog loops)], if tgt = 0 then [.vq] else s.fieldRes c loops d)
  | .mm x b tog clear fa fb k oa ob =>
    let bank := Res.acc (2 * x + bankOf b tog loops)
    (.array x, [.fileA x oa (oa + kBytes fa k), .fileB x ob (ob + kBytes fb k)] ++ (if clear = 0 then [bank] else []),
      [bank])
  | .cimv l _ _ _ a d _ _ => (.lattice l, s.fieldRes c loops a, s.fieldRes c loops d)
  | .vector _ d a b _ _ _ => (.vector, s.fieldRes c loops a ++ s.fieldRes c loops b, s.fieldRes c loops d)
  | .combine a d _ g _ =>
    let (l, h) := s.stagingRange loops d g
    (.move, s.fieldRes c loops a, s.fieldRes c loops d ++ [.commons l h])
  | .waitk k _ => (.seq, [], [.token k])
  | .verdict a => (.seq, s.fieldRes c loops a, [])
  | .stage a _ => (.seq, s.fieldRes c loops a, [])
  | _ => (.seq, [], [])

/-- R233: the same-bank case: `o` is an MM on the bank of an MM with clear 0, and the last instruction on its array. -/
def chains (sq : Sequencer) (o : Outst) : Stitch → List LoopLevel → Bool
  | .mm x b tog clear _ _ _ _ _, loops =>
    clear == 0 && o.unit == .array x && o.mmBank == some (bankOf b tog loops) && sq.onArray.contains (x, o.issue)
  | _, _ => false

/-- R242, R243: an instruction that waits for the E of every earlier one. -/
def Stitch.waitsAll : Stitch → Bool
  | .halt => true
  | .slot _ _ _ => true
  | _ => false

/-- R246, R247: the earliest issue cycle; none while it waits on a COMBINE whose E is not yet known. -/
def issueCycle (sq : Sequencer) (ins : Stitch) (loops : List LoopLevel) (unit : PUnit) (reads writes : List Res) :
    Option Nat :=
  sq.outst.foldl (fun t o =>
    match t with
    | none => none
    | some t =>
      let hazard := (resMeet o.writes reads || resMeet o.writes writes || resMeet o.reads writes) &&
        !chains sq o ins loops
      if (hazard || ins.waitsAll) && o.openTree then none
      else some (max (max t (if o.unit == unit then o.free else 0)) (if hazard then o.done else 0)))
    (some (max sq.floor (match sq.lastIssue with
      | some l => l + 1
      | none => 0)))

/-! ### Costs -/

/-- Reads or writes of words in order, one per cycle from a cycle, of a class. -/
def placeWords (from_ cls : Nat) (ws : List Nat) : List (Nat × Nat × Nat) :=
  ws.zipIdx.map fun (w, i) => (from_ + i, w / 1024, cls)

/-- R238: words of one vector, each bank's own words one per cycle from a cycle (log 25). -/
def placeBanks (from_ cls : Nat) (ws : List Nat) : List (Nat × Nat × Nat) :=
  ws.zipIdx.map fun (w, i) => (from_ + ((ws.take i).countP fun x => x / 1024 == w / 1024), w / 1024, cls)

/-- R238: the largest number of words in one bank. -/
def maxPerBank (ws : List Nat) : Nat := (ws.map fun w => ws.countP fun x => x / 1024 == w / 1024).foldl max 0

/-- The scratch words of a tile. -/
def State.scratchWords (s : State) (c : TimeCtx) (loops : List LoopLevel) (f : Nat) : List Nat :=
  let d := s.pat.tile f
  if f = descVq ∨ f = descNone ∨ d.space ≠ spScratch then [] else d.words (s.baseOf d c.body) loops

/-- R238: the words of vector j of a tile's elements. -/
def State.vectorWords (s : State) (c : TimeCtx) (loops : List LoopLevel) (f lo n : Nat) : List Nat :=
  let d := s.pat.tile f
  if f = descVq ∨ f = descNone then []
  else ascending (((d.coords.drop lo).take n).flatMap fun x =>
    let (a, k) := d.span (s.baseOf d c.body) loops x
    let w := a.toNat / 64
    (List.range ((a.toNat + k + 63) / 64 - w)).map (w + ·))

/-- R236: cycles per vector, or per vector of a row. -/
def vectorCycles (op : Nat) : Nat :=
  if op ≤ 0x28 then 1 else if op = 0x29 then 2 else if op ≤ 0x2E then 4 else if op = 0x2F then 8
  else if op = 0x30 then 5 else if op = 0x31 then 10 else if op = 0x32 then 17 else if op = 0x33 then 25
  else if op = 0x34 then 11 else if op = 0x35 then 1 else if op = 0x36 then 2 else 7

/-- R236: a row operation. -/
def rowOp (op : Nat) : Bool := decide (0x38 ≤ op)

/-- R236: cycles of a row of v vectors. -/
def rowCycles (op v : Nat) : Nat := if op = 0x3A then 21 * v + 4 else if op = 0x3B then 19 * v + 11 else 7 * v

/-- R236: S2 is a source vector; for VREQ, VLUT and VNORM it is a table read apart. -/
def vectorS2 (op : Nat) : Bool := decide (op ≤ 0x24) || op == 0x2F

/-- R237: words of the VREQ parameter entries. -/
def State.paramWords (s : State) (c : TimeCtx) (loops : List LoopLevel) (op s2 : Nat) : List Nat :=
  if op = 0x28 then s.scratchWords c loops s2 else []

/-- The element count of a vector source: a tile's, or the whole of VQ (R234). -/
def State.srcCount (s : State) (f dst vqLeft : Nat) : Nat :=
  if f = descVq then (if dst = descVq then vqLeft else (s.pat.tile dst).count) else (s.pat.tile f).count

/-- R238: busy cycles and accesses of an elementwise instruction. A word that two operands hold is one word (log 64). -/
def State.elementTime (s : State) (c : TimeCtx) (loops : List LoopLevel) (op d s1 s2 n t : Nat) :
    Nat × List (Nat × Nat × Nat) :=
  let wp := s.paramWords c loops op s2
  (List.range (ceilDiv n 64)).foldl (fun (b, acc) j =>
    let src (f : Nat) := if (s.pat.tile f).space = spScratch then s.vectorWords c loops f (64 * j) 64 else []
    let rd := ascending (src s1 ++ (if vectorS2 op then src s2 else []))
    let wr := src d
    (b + max (vectorCycles op) (maxPerBank (ascending (rd ++ wr))),
      acc ++ placeBanks (t + b) 1 rd ++ placeBanks (t + b + 6) 2 wr))
    (wp.length, placeWords t 1 wp)

/-- R238: busy cycles and accesses of a row instruction, rows being the inner dimension K of S1 (log 26, 27). -/
def State.rowTime (s : State) (c : TimeCtx) (loops : List LoopLevel) (op d s1 t : Nat) :
    Nat × List (Nat × Nat × Nat) :=
  let sd := s.pat.tile s1
  let k := sd.e dimK
  let rows := if k = 0 then 0 else sd.count / k
  let v := ceilDiv k 64
  (List.range rows).foldl (fun (b, acc) r =>
    let wide := op == 0x3A || op == 0x3B
    let per := (List.range v).map fun j =>
      let n := min 64 (k - 64 * j)
      let rd := s.vectorWords c loops s1 (r * k + 64 * j) n
      let wr := if wide then s.vectorWords c loops d (r * k + 64 * j) n else []
      (rd, wr, maxPerBank (ascending (rd ++ wr)) - 6)
    let extra := (per.map fun (_, _, x) => x).sum
    let (_, ra) := per.foldl (fun (p, a) (rd, _, x) => (p + 7 + x, a ++ placeBanks (t + p) 1 rd)) (b, [])
    let len := rowCycles op v + extra
    let wa :=
      if wide then
        (per.zipIdx.map fun ((_, wr, _), j) => placeBanks (t + b + len - (v - j) + 6) 2 wr).flatten
      else placeBanks (t + b + len + 5) 2 (s.vectorWords c loops d r 1)
    (b + len, acc ++ ra ++ wa)) (0, [])

/-- R230: cycles of an HBM miss of n bytes at a core clock in MHz. -/
def missCycles (mhz n : Nat) : Nat := ceilDiv (mhz * (76800 + 10 * n)) 384000

/-- R230, R264: how a STREAMW finds its range among the pins at a cycle. -/
inductive StreamCase where
  | miss (fills : Bool)
  | hit
  | joined (done : Nat)
  deriving DecidableEq, Repr, Inhabited

/-- R230: the case of a range at cycle t. -/
def streamCase (pins : List PinRange) (lo hi t : Nat) : StreamCase :=
  match pins.find? fun p => p.lo == lo && p.hi == hi && !p.freeing with
  | none => .miss false
  | some p =>
    match p.st with
    | .unfilled => .miss true
    | .filling => if p.doneAt ≤ t then .hit else .joined p.doneAt
    | .filled => .hit

/-- R228 to R245: busy cycles, E and scratch accesses of an instruction issued at t. A COMBINE's E is set when its tree
completes (R239); a HALT's is the latest before it (R242). -/
def State.timeOf (s : State) (c : TimeCtx) (loops : List LoopLevel) (pins : List PinRange) (latest vqLeft t : Nat)
    (ins : Stitch) : Nat × Nat × List (Nat × Nat × Nat) :=
  match ins with
  | .nop n => (n + 1, t + n + 1, [])
  | .loadt a d tg _ _ =>
    let sd := s.pat.tile a
    let ws := s.wordsIn c loops sd
    let we := if tg = 0 then s.wordsIn c loops (s.pat.tile d) else ceilDiv sd.expandedBytes 64
    let b := max ws we
    let lp := if sd.space = spScratch then 6 else 30
    let wr := if tg = 0 then placeWords (t + b - we) 4 (s.scratchWords c loops d) else []
    (b, t + b + lp, placeWords t 0 (s.scratchWords c loops a) ++ wr)
  | .storet a d =>
    let dd := s.pat.tile d
    let ws := s.wordsIn c loops (s.pat.tile a)
    let we := s.wordsIn c loops dd
    let b := max ws we
    let lp := if dd.space = spScratch then 6 else 30
    (b, t + b + lp,
      placeWords t 3 (s.scratchWords c loops a) ++ placeWords (t + b - we) 2 (s.scratchWords c loops d))
  | .streamw a d tg _ _ =>
    let sd := s.pat.tile a
    let (lo, hi) := sd.range loops
    let ws := s.wordsIn c loops sd
    let we := if tg = 0 then s.wordsIn c loops (s.pat.tile d) else ceilDiv sd.expandedBytes 64
    let wds := if tg = 0 then s.scratchWords c loops d else []
    let b := max ws we
    match streamCase pins lo hi t with
    | .miss _ => let e := t + missCycles c.mhz (hi - lo); (e - t, e, placeWords (e - we) 4 wds)
    | .hit => (b, t + b + 30, placeWords (t + b - we) 4 wds)
    | .joined f => let e := f + b + 30; (e - t, e, placeWords (e - 30 - we) 4 wds)
  | .drain _ _ _ tgt d =>
    let o := ((s.pat.tile d).origin (s.pat.tile d).base loops).toNat
    let accs := (List.range 16).flatMap fun i => (List.range 4).map fun q => (t + 1 + i, o / 65536 + q, 2)
    (16, t + 18, if tgt = 0 then [] else accs)
  | .mm _ _ _ _ fa fb k _ _ => let n := inputCycles fa fb k; (n, t + n + 64, [])
  | .cimv _ bits _ _ a d _ _ =>
    let sd := s.pat.tile a
    let dd := s.pat.tile d
    let k := sd.e dimK
    let v := if k = 0 then 0 else sd.count / k
    let p := 8 * bits * latticePhase c.mhz
    let accs := (List.range v).flatMap fun j =>
      placeWords (t + j * p) 0 (s.vectorWords c loops a (j * k) k) ++
      placeWords (t + (j + 1) * p) 2 (s.vectorWords c loops d (j * dd.e dimK) (dd.e dimK))
    (v * p, t + v * p + 20, accs)
  | .vector op d s1 s2 _ _ _ =>
    let (b, accs) :=
      if rowOp op then s.rowTime c loops op d s1 t
      else s.elementTime c loops op d s1 s2 (s.srcCount s1 d vqLeft) t
    (b, t + b + 8, accs)
  | .combine a d _ _ _ =>
    let w := s.combineWords loops d
    (w, t + w, placeWords t 3 (s.scratchWords c loops a))
  | .verdict a => let b := 4 + s.wordsIn c loops (s.pat.tile a); (b, t + b, [])
  | .halt => (1, max latest t, [])
  | _ => (1, t + 1, [])

/-! ### Bank conflicts (R197, R248) -/

/-- An access of an outstanding instruction: its place in R248's order, and where it stands among its instruction's. -/
structure BankAccess where
  cycle : Nat := 0
  bank : Nat := 0
  cls : Nat := 0
  issue : Nat := 0
  index : Nat := 0
  deriving DecidableEq, Repr, Inhabited

/-- The accesses of all outstanding instructions. -/
def allAccesses (l : List Outst) : List BankAccess :=
  l.flatMap fun o => o.accs.zipIdx.map fun ((c, b, k), i) =>
    { cycle := c, bank := b, cls := k, issue := o.issue, index := i }

/-- R248: `a` is served before `x` where both fall on one bank in one cycle: by class, then by issue, then in the order of
the instruction's own accesses (log 25). -/
def BankAccess.before (a x : BankAccess) : Bool :=
  a.cycle == x.cycle && a.bank == x.bank &&
    (decide (a.cls < x.cls) || (a.cls == x.cls &&
      (decide (a.issue < x.issue) || (a.issue == x.issue && decide (a.index < x.index)))))

/-- R248: the earliest access that waits for another. -/
def conflict (l : List BankAccess) : Option BankAccess :=
  l.foldl (fun best x =>
    if !(l.any fun a => a.before x) then best
    else match best with
      | none => some x
      | some y => if x.cycle < y.cycle then some x else best) none

/-- R248: the waiting access, every later one of its instruction, its B and its E move one cycle. -/
def Outst.wait (o : Outst) (cycle index : Nat) : Outst :=
  { o with
    accs := o.accs.zipIdx.map fun ((x, y, k), i) => if cycle < x ∨ i = index then (x + 1, y, k) else (x, y, k)
    free := o.free + 1, done := o.done + 1 }

/-- R248: the procedure repeats until no cycle holds two accesses to one bank. -/
def resolveBanks : Nat → List Outst → List Outst
  | 0, l => l
  | fuel + 1, l =>
    match conflict (allAccesses l) with
    | none => l
    | some x => resolveBanks fuel (updFirst (fun o : Outst => o.issue == x.issue) (·.wait x.cycle x.index) l)

/-- Enough repetitions: in each cycle with a conflict one access stays, and fewer than all others leave it. -/
def resolveFuel (l : List Outst) : Nat := (allAccesses l).length ^ 2 + 1

/-- R233: the array that an instruction occupies. -/
def PUnit.array? : PUnit → Option Nat
  | .array x => some x
  | _ => none

/-- R246: an instruction issued at t joins the outstanding ones; completed ones leave the record. -/
def Sequencer.issueAt (sq : Sequencer) (o : Outst) : Sequencer :=
  let live := sq.outst.filter fun p => p.openTree || decide (o.issue < p.done)
  let l := live ++ [o]
  let l := resolveBanks (resolveFuel l) l
  { sq with
    lastIssue := some o.issue, outst := l
    onArray := match o.unit.array? with
      | some x => (x, o.issue) :: sq.onArray.filter (·.1 != x)
      | none => sq.onArray
    latest := (l.map (·.done)).foldl max sq.latest }

/-! ### COMBINE trees (R239) -/

/-- R239: ceil(log₂ g). -/
def treeLevels (g : Nat) : Nat := log2Ceil g 5

/-- R239: E of a tree of g contributions of W words whose transfers end at the cycles given. -/
def treeDone (g words : Nat) (ends : List Nat) : Nat := ends.foldl max 0 + 24 + 8 * treeLevels g + words

/-- R239, R248: where the transfer of the COMBINE issued at a cycle ends, as bank conflicts have moved it. -/
def Sequencer.transferEnd (sq : Sequencer) (issue old : Nat) : Nat :=
  ((sq.outst.find? (·.issue == issue)).map (·.free)).getD old

/-- R239: the E of the COMBINE issued at a cycle is known. -/
def Sequencer.closeCombine (sq : Sequencer) (issue e : Nat) : Sequencer :=
  let outst := updFirst (fun o : Outst => o.issue == issue) (fun o => { o with done := e, openTree := false }) sq.outst
  { sq with outst := outst, latest := (outst.map (·.done)).foldl max sq.latest }

/-! ### Tokens (R240, R246) -/

/-- R240, R246: the cycle by which increments (token, increment, cycle) of a token have brought its counter to a total. -/
def reachedAt : List (Nat × Nat × Nat) → Nat → Nat → Nat
  | (k, n, c) :: l, token, total =>
    if k ≠ token then reachedAt l token total
    else if total ≤ n then (if total = 0 then 0 else c) else max c (reachedAt l token (total - n))
  | [], _, _ => 0

/-- R240: a count taken from the increments of a token. -/
def takeCount : List (Nat × Nat × Nat) → Nat → Nat → List (Nat × Nat × Nat)
  | (k, n, c) :: l, token, count =>
    if k ≠ token then (k, n, c) :: takeCount l token count
    else if count < n then (k, n - count, c) :: l
    else takeCount l token (count - n)
  | [], _, _ => []

end Sys2Proof.Machine
end

