-- ==== Sys2Proof/Machine/PanelOps.lean ====
section
/-! DEFINITION. What every panel instruction shares: fetch, issue, body references, what reads find, loops, and reading
and writing a tile's elements (R225 to R229, R243, R246, R312, R313, R421, R437). -/

namespace Sys2Proof.Machine

/-! ### Slot bodies -/

/-- R122: the group of a panel, and its program. -/
def Pattern.entryOf (p : Pattern) (n : Nat) : PanlEntry := p.panl.getD n {}
def Pattern.groupOf (p : Pattern) (n : Nat) : Nat := (p.entryOf n).group

/-- R122: the panels of a group. -/
def Pattern.groupPanels (p : Pattern) (g : Nat) : List PanelId :=
  (List.finRange 16).filter fun n => decide (0 < (p.entryOf n.val).count) && p.groupOf n.val == g

/-- The numbers of the groups that have a program, ascending. -/
def Pattern.groupNumbers (p : Pattern) : List Nat :=
  ascending (((List.range 16).filter fun n => decide (0 < (p.entryOf n).count)).map p.groupOf)

/-- A group's place in State.look: its lowest panel. -/
def State.groupSlot (s : State) (g : Nat) : Option (Fin 16) := (s.pat.groupPanels g).head?

/-- The slot run of a group, by its number. -/
def State.groupRun (s : State) (g : Nat) : Option SlotRun := (s.groupSlot g).bind fun i => s.look.groups[i].run

/-- One group changed. -/
def State.updGroup (s : State) (g : Nat) (f : Group → Group) : State :=
  match s.groupSlot g with
  | some i => { s with look := { s.look with groups := Vector.upd s.look.groups i f } }
  | none => s

/-- The slot run changed. -/
def State.updRun (s : State) (g : Nat) (f : SlotRun → SlotRun) : State :=
  s.updGroup g fun x => { x with run := x.run.map f }

/-- R243, R421: the slot run whose body the panel runs. -/
def State.bodyRun (s : State) (p : PanelId) : Option SlotRun :=
  match s.panels[p].span with
  | some (a, b, _) =>
    if a ≤ s.panels[p].seq.pc ∧ s.panels[p].seq.pc < b then
      match s.groupRun (s.pat.groupOf p.val) with
      | some r => if r.tag.isSome && r.panels.contains p.val then some r else none
      | none => none
    else none
  | none => none

/-- R312, R323: what the tiles of a body read against. -/
def SlotRun.bodyRef (r : SlotRun) : BodyRef := { ref := r.ref, patch := r.patch, ordinal := r.ordinal }

/-- The context of an instruction that a panel issues now. -/
def State.runCtx (s : State) (p : PanelId) : TimeCtx :=
  { mhz := levelMhz s.power.level, body := (s.bodyRun p).map (·.bodyRef) }

/-! ### What reads find -/

/-- R421: the instance that a group runs is marked once, with what the mark waits for. -/
def State.markGroup (s : State) (g : Nat) (id : BitVec 32) (hold : Nat) (keys : List Nat) : State :=
  match s.groupRun g with
  | none => s
  | some r =>
    if r.tag.isNone || r.mark.isSome then s
    else
      let s := { s with look := { s.look with marked := satAdd 32 s.look.marked 1 } }
      s.updRun g fun r => { r with mark := some id, holdOn := hold, holdKeys := keys }

/-- R421: a body's read marks its instance. -/
def State.markRun (s : State) (p : PanelId) (id : BitVec 32) (hold : Nat) (keys : List Nat) : State :=
  if (s.bodyRun p).isSome then s.markGroup (s.pat.groupOf p.val) id hold keys else s

/-- The group whose instance runs for a window. -/
def State.groupOfTag (s : State) (tag : Tag) : Option Nat :=
  s.pat.groupNumbers.find? fun g => ((s.groupRun g).bind (·.tag)) == some tag

/-- R421: the instance that runs for a window is marked. -/
def State.markTag (s : State) (tag : Tag) (id : BitVec 32) (hold : Nat) (keys : List Nat) : State :=
  match s.groupOfTag tag with
  | some g => s.markGroup g id hold keys
  | none => s

/-- R417: the ordinal in a FAULT detail, 0xFFFFFFFF outside a body. -/
def State.faultOrdinal (s : State) (p : PanelId) : Nat := ((s.bodyRun p).map (·.ordinal)).getD 0xFFFFFFFF

/-- R424: an uncorrectable word of the weights or FLAT region waits for its repair, with the flash domain held on. -/
def State.queueRepair (s : State) (word : Nat) (id : BitVec 32) : State :=
  if s.hbm.repairs.any (·.1 == word) then s
  else
    ({ s with hbm := { s.hbm with repairs := s.hbm.repairs ++ [(word, id)] } }).addVotes .repair
      [domFlash, domHbm] false

/-- R417, R418: a detection of commons parity. -/
def State.detectCommons (s : State) (word ordinal : Nat) : BitVec 32 × State :=
  let s := { s with faults := { s.faults with commons := satAdd 32 s.faults.commons 1 } }
  s.detect 0x21 (word / 8192)
    (word / 64 + 2 ^ 16 * (word % 64) + 2 ^ 24 * s.commonsRegion (word / 64) + 2 ^ 32 * ordinal) word

/-- R417, R418: a detection of an uncorrectable HBM word. -/
def State.detectHbm (s : State) (word : Nat) : BitVec 32 × State :=
  let s := { s with faults := { s.faults with hbm := satAdd 32 s.faults.hbm 1 } }
  let r := s.pat.hbmRegion word
  let (id, s) := s.detect 0x22 r (32 * word) word
  (id, if r = 2 then s else s.queueRepair word id)

/-- R425: a stream line with commons parity waits for its refill. -/
def State.queueRefill (s : State) (line : Nat) : State :=
  { s with commons := { s.commons with
    pins := s.commons.pins.map fun q => if q.lines.contains line then { q with bad := q.bad ++ [line] } else q } }

/-- R417, R421, R437: one finding of a panel's read. A halo-ring word marks nothing: its entry reads as missing. -/
def State.found (s : State) (p : PanelId) : Found → State
  | .scratch q w =>
    let s := { s with faults := { s.faults with scratch := satAdd 32 s.faults.scratch 1 } }
    let (id, s) := s.detect 0x20 q (w + 2 ^ 16 * s.panels[p].seq.pc + 2 ^ 32 * s.faultOrdinal p) w
    s.markRun p id 0 []
  | .commons w =>
    let region := s.commonsRegion (w / 64)
    let (id, s) := s.detectCommons w (s.faultOrdinal p)
    if region = 3 then (s.queueRefill (w / 64)).markRun p id 2 [w / 64]
    else if region = 1 then s.updRun (s.pat.groupOf p.val) fun r => { r with haloBad := true }
    else s.markRun p id 0 []
  | .hbm w =>
    let (id, s) := s.detectHbm w
    if s.pat.hbmRegion w = 2 then s else s.markRun p id 3 [w]

/-- Everything a panel's read found, in order. -/
def State.founds (s : State) (p : PanelId) (l : List Found) : State := l.foldl (fun s f => s.found p f) s

/-! ### Program flow -/

/-- R226: the end of a loop body returns to its start or closes its level; levels opened before `base` stay. -/
def wrapLoops (base : Nat) : Nat → Nat → List LoopLevel → Nat × List LoopLevel
  | 0, pc, l => (pc, l)
  | fuel + 1, pc, l =>
    match l with
    | x :: rest =>
      if base ≤ x.first ∧ pc = x.last + 1 then
        if x.idx + 1 < x.count then (x.first, { x with idx := x.idx + 1 } :: rest)
        else wrapLoops base fuel pc rest
      else (pc, l)
    | [] => (pc, l)

/-- The sequencer goes to an instruction, loops taken into account; inside a body only the body's own loops wrap. -/
def Sequencer.goto (sq : Sequencer) (base pc : Nat) : Sequencer :=
  let (pc, l) := wrapLoops base 4 pc sq.loops
  { sq with pc := pc, loops := l }

/-- The next instruction of a panel. -/
def Panel.advance (x : Panel) : Panel :=
  let base := match x.span with
    | some (a, _, _) => a
    | none => 0
  { x with seq := x.seq.goto base (x.seq.pc + 1) }

/-- R225, R242, R243: the instruction that a panel is about to issue. Past the program's end it halts (log 28); at the end
of a slot's body it waits for the span to end. -/
def State.fetchPanel (s : State) (p : PanelId) : Option Stitch :=
  let x := s.panels[p]
  if s.running && s.isOn (domPanel p.val) && x.seq.active && !x.seq.halted &&
      !(match x.span with
        | some (_, b, _) => x.seq.pc == b
        | none => false) then
    match (s.pat.entryOf p.val).words[x.seq.pc]? with
    | some w => decodeStitch w
    | none => some .halt
  else none

/-- A panel's number as an index. -/
def panelNo (p : Nat) : PanelId := ⟨p % 16, Nat.mod_lt _ (by decide)⟩

/-- R230, R240, R249: cycle c of a panel's count in the count that all panels share. -/
def State.shared (s : State) (p : PanelId) (c : Nat) : Nat :=
  s.panels[p].seq.origin * levelMhz s.power.level / 10 ^ 6 + c

/-- R230, R240, R249: a cycle of the shared count in a panel's own. -/
def State.own (s : State) (p : PanelId) (c : Nat) : Nat := c - s.panels[p].seq.origin * levelMhz s.power.level / 10 ^ 6

/-- R239, R248: the transfers of a tree end where bank conflicts have moved them. -/
def State.moveParts (s : State) (t : Tree) : Tree :=
  { t with parts := t.parts.map fun (i, n, c, e) =>
    let p := panelNo n
    (i, n, c, s.shared p (s.panels[p].seq.transferEnd c (s.own p e))) }

/-- R239: all contributions are in: every contributor's E is known. -/
def State.closeTree (s : State) (t : Tree) : State :=
  if t.parts.length < t.g then s
  else
    let e := treeDone t.g t.words (t.parts.map (·.2.2.2))
    t.parts.foldl (fun s (_, n, c, _) =>
      s.updPanel (panelNo n) fun x => { x with seq := x.seq.closeCombine c (s.own (panelNo n) e) }) s

/-- R230, R248: a fill ends where bank conflicts have moved the E of its STREAMW. -/
def State.moveFill (s : State) (q : PinRange) : PinRange :=
  if q.st = .filling then
    let p := panelNo q.filler.1
    match s.panels[p].seq.outst.find? (·.issue == q.filler.2) with
    | some o => { q with doneAt := s.shared p o.done }
    | none => q
  else q

/-- R230, R239, R248: fills and trees under way after an issue that may have moved their transfers. -/
def State.refreshMoves (s : State) : State :=
  let s := { s with commons := { s.commons with
    trees := s.commons.trees.map s.moveParts, pins := s.commons.pins.map s.moveFill } }
  s.commons.trees.foldl State.closeTree s

/-- R246: the instruction joins the outstanding ones at its issue cycle; none while a hazard without a known end holds it. -/
def State.issuePanel (s : State) (p : PanelId) (ins : Stitch) : Option (Nat × State) :=
  let x := s.panels[p]
  let c := s.runCtx p
  let (unit, rd, wr) := s.need c x.seq.loops ins
  match issueCycle x.seq ins x.seq.loops unit rd wr with
  | none => none
  | some t =>
    let t := match ins with
      | .slot _ _ _ => max t x.seq.latest
      | .waitk k n => max t (reachedAt x.seq.came k n)
      | _ => t
    let pins := s.commons.pins.map fun q => { q with doneAt := s.own p q.doneAt }
    let (b, e, accs) := s.timeOf c x.seq.loops pins x.seq.latest x.vq.length t ins
    let mmBank := match ins with
      | .mm _ bank tog _ _ _ _ _ _ => some (bankOf bank tog x.seq.loops)
      | _ => none
    let openTree := match ins with
      | .combine _ _ _ _ _ => true
      | _ => false
    let o : Outst :=
      { pc := x.seq.pc, unit := unit, issue := t, free := t + b, done := e, reads := rd, writes := wr,
        mmBank := mmBank, accs := accs, openTree := openTree }
    let floor := match ins with
      | .nop n => t + n + 1
      | _ => 0
    let s := s.updPanel p fun x => { x with seq := { (x.seq.issueAt o) with floor := max x.seq.floor floor } }
    some (t, s.refreshMoves)

/-- Every byte of a tile lies in its store (R252). -/
def State.tileIn (s : State) (c : TimeCtx) (loops : List LoopLevel) (f : Nat) : Bool :=
  let d := s.pat.tile f
  if f = descVq ∨ f = descNone ∨ spHbm < d.space then true
  else
    let cap : Int := if d.space = spScratch then 1572864 else if d.space = spCommons then 8388608 else 2 ^ 34
    d.units.all fun x => let (a, n) := d.span (s.baseOf d c.body) loops x; decide (0 ≤ a ∧ a + n ≤ cap)

/-- The descriptor fields of an instruction that name memory. -/
def Stitch.fields : Stitch → List Nat
  | .loadt a d tg _ _ => if tg = 0 then [a, d] else [a]
  | .storet a d => [a, d]
  | .streamw a d tg _ _ => if tg = 0 then [a, d] else [a]
  | .drain _ _ _ tgt d => if tgt = 0 then [] else [d]
  | .cimv _ _ _ _ a d _ _ => [a, d]
  | .vector _ d a b _ _ _ => [d, a, b]
  | .combine a d _ _ _ => [a, d]
  | .pin a => [a]
  | .free a => [a]
  | .verdict a => [a]
  | .stage a _ => [a]
  | _ => []

/-- One instruction of a panel: it issues if it is the one at the program counter and nothing holds it, meets its upsets,
and has its effect g at its issue cycle. -/
def panelStep (p : PanelId) (u : List Upset) (s : State) (effect : Stitch → Option (Nat → State → State)) : Result :=
  match s.fetchPanel p with
  | none => .next s
  | some ins =>
    match effect ins with
    | none => .next s
    | some g =>
      if ins.fields.all fun f => s.tileIn (s.runCtx p) s.panels[p].seq.loops f then
        match (s.upsets p u).issuePanel p ins with
        | none => .next s
        | some (t, s) => .next ((g t s).updPanel p (·.advance)).settle
      else .fault .noSuchAddress

/-! ### Elements of a tile -/

/-- An element as its bits; for BX8 the mantissa byte and 256 times the shared exponent. -/
abbrev Elem := Nat

/-- R208 to R211: the value of an element. -/
def elemValue (fmt : Nat) (x : Elem) : Num :=
  if fmt = fmtBX8 then bx8Value (x / 256) (BitVec.ofNat 8 x) else decodeBits fmt x

/-- R211, R292, R287: the elements of a block in their order. -/
def State.expandBlock (s : State) (d : TileDesc) (b : List Byte) : List Elem :=
  if d.form = 1 then (decodeFixed (s.tables.own d.tid) d.fmt d.budget b).map (symBack d.fmt)
  else if d.form = 2 then decodeExp (((s.tables.find d.tid).map (·.lens)).getD (flatLens d.fmt)) d.fmt b
  else (b.drop 1).map fun m => (b.headD 0).toNat * 256 + m.toNat

/-- The transfer index of the block of coordinates among the tile's blocks. -/
def TileDesc.blockIndex (d : TileDesc) (c : List Nat) : Nat :=
  let j := d.blocked
  { d with ext := d.ext.set j (d.e j / d.blockLen) }.indexOf (c.set j (c.getD j 0 / d.blockLen))

/-- Elements in transfer order from the bytes of the tile's elements or blocks. -/
def State.elemsOf (s : State) (d : TileDesc) (base : Int) (loops : List LoopLevel) (units : List (List Byte)) :
    List Elem :=
  if d.isBlocked then
    let blocks := units.map (s.expandBlock d)
    d.coords.map fun c => (blocks.getD (d.blockIndex c) []).getD (d.inBlock loops c) 0
  else if d.fmt = fmtI4 then
    (d.coords.zip units).map fun (c, b) =>
      if d.addr base loops c % 2 = 0 then leNat b % 16 else leNat b / 16 % 16
  else units.map leNat

/-- The bytes of each element or block of a memory tile, and what the read of its words finds. -/
def State.readUnits (s : State) (p : PanelId) (d : TileDesc) (base : Int) (loops : List LoopLevel) :
    List (List Byte) × List Found × State :=
  let x := s.panels[p]
  if d.space = spScratch then
    (d.units.map fun c => let (a, n) := d.span base loops c; Memory.readN 0 x.scratch a.toNat n,
      ((d.words base loops).filter fun w => !(badIn x.badParity (64 * w) 64).isEmpty).map (.scratch p.val), s)
  else if d.space = spCommons then
    (d.units.map fun c => let (a, n) := d.span base loops c; Memory.readN 0 s.commons.mem a.toNat n,
      ((d.words base loops).filter fun w => !(badIn s.commons.badParity (64 * w) 64).isEmpty).map .commons, s)
  else
    let (lo, hi) := d.range loops
    let (bs, fs, s) := s.readHbm lo (hi - lo)
    (d.units.map fun c => let (a, n) := d.span base loops c; sliceB bs (a.toNat - lo) n, fs, s)

/-- R312: a pixel column of a bobbin line or of a halo entry; columns outside read 0. -/
def pixelAt (px : List Nat) (c : Int) : Elem := if c < 0 then 0 else px.getD c.toNat 0

/-- R312: the elements of a bobbin or halo tile in transfer order from the pixels of its lines: every other coordinate reads
the same pixels. -/
def TileDesc.fromLines (d : TileDesc) (rows : List (List Elem)) : List Elem :=
  d.coords.map fun c => (rows.getD (c.getD dimH 0) []).getD (c.getD dimW 0) 0

/-- R229, R312, R313: a bobbin tile: its pixels, and whether a line was gone or lost, or flagged damaged. -/
def State.readBobbin (s : State) (d : TileDesc) (b : BodyRef) : List Elem × Bool × Bool :=
  let a := d.firstColumn b.patch
  let (rows, gone, dam) := (List.range (if d.count = 0 then 0 else d.e dimH)).foldl (fun (rows, gone, dam) i =>
    let q := b.ref + BitVec.ofInt 40 (d.lineOffset + i)
    let l := ((s.bobbin.find? (·.1 == q.toNat % s.pat.bobbinDepth)).map (·.2)).getD {}
    (rows ++ [(List.range (d.e dimW)).map fun j => if s.pat.width ≤ (a + j).toNat then 0 else pixelAt l.pixels (a + j)],
      gone || (s.bobLine q).isNone,
      dam || ((s.bobLine q).isSome && (l.has lineDamaged || l.has lineOversize || l.has lineOverRate))))
    (([] : List (List Elem)), false, false)
  (d.fromLines rows, gone, dam)

/-- R259, R273: the words of an entry that a tile reads from its column a on: the header word and those of its pixels. -/
def entryWords (place h bits : Nat) (a : Int) (n : Nat) : List Nat :=
  let lo := (max a 0).toNat * bits / 512
  (place / 64) :: (List.range (lineWords h bits a n)).map (place / 64 + 1 + lo + ·)

/-- R312: whether columns from a on, n of them, lie in a ring of h columns at all. -/
def inRing (h : Nat) (a : Int) (n : Nat) : Bool := decide (max a 0 < min (a + n) h)

/-- R273, R312, R313, R421: a halo tile: its pixels, whether an entry was missing or mismatched, whether one was damaged,
the awaiting lines with the fault id of the first, and the parity errors met. A tile without a column in the ring's range
reads zeros and finds nothing missing. -/
def State.readHalo (s : State) (d : TileDesc) (b : BodyRef) :
    List Elem × Bool × Bool × List Nat × BitVec 32 × List Found :=
  let side : Fin 2 := if d.space = spWest then 0 else 1
  let h := s.haloWidth side
  let st := haloStride h s.pat.bits
  let a := d.firstColumn b.patch + (if d.space = spWest then (h : Int) else -(s.pat.width : Int))
  let lines := if d.count = 0 ∨ !inRing h a (d.e dimW) then 0 else d.e dimH
  let (rows, bad, dam, aw, id, fs) := (List.range lines).foldl (fun (rows, bad, dam, aw, id, fs) i =>
    let q := b.ref + BitVec.ofInt 40 (d.lineOffset + i)
    let place := 4096 * s.haloStart side + q.toNat % s.pat.bobbinDepth * st
    let words := ((entryWords place h s.pat.bits a (d.e dimW)).filter fun w =>
      !(badIn s.commons.badParity (64 * w) 64).isEmpty).map Found.commons
    let zeros := List.replicate (d.e dimW) 0
    match s.haloEntry side q with
    | none => (rows ++ [zeros], true, dam, aw, id, fs ++ words)
    | some e =>
      if !words.isEmpty then (rows ++ [zeros], true, dam, aw, id, fs ++ words)
      else if e.flags.getLsbD 3 then
        (rows ++ [zeros], bad, dam, aw ++ [q.toNat], if aw.isEmpty then e.faultId else id, fs)
      else if e.flags.getLsbD 2 || !e.flags.getLsbD 0 then (rows ++ [zeros], true, dam, aw, id, fs)
      else
        (rows ++ [(List.range (d.e dimW)).map fun j => if (h : Int) ≤ a + j then 0 else pixelAt e.pixels (a + j)],
          bad, dam || e.flags.getLsbD 1, aw, id, fs))
    (([] : List (List Elem)), false, false, ([] : List Nat), (0 : BitVec 32), ([] : List Found))
  (d.fromLines rows, bad, dam, aw, id, fs)

/-- R313: a body's read of bytes of its view that hold a neighbour place which has not arrived. -/
def State.viewLacks (s : State) (p : PanelId) (d : TileDesc) (loops : List LoopLevel) : Bool :=
  match s.bodyRun p, s.pat.hist with
  | some r, some h =>
    let missing := ((s.look.ledger.find? fun w => some w.tag == r.tag).map (·.missing)).getD []
    let entry := s.viewEntry r.ordinal
    d.isView && d.units.any fun c =>
      let (a, n) := d.span (s.baseOf d (some r.bodyRef)) loops c
      missing.any fun k => decide (a < entry + (k + 1) * h.place ∧ (entry + k * h.place : Int) < a + n)
  | _, _ => false

/-- R313, R421: what a body's bobbin or halo read leaves in its slot run. -/
def State.noteRead (s : State) (p : PanelId) (gone bad dam : Bool) : State :=
  s.updRun (s.pat.groupOf p.val) fun r =>
    { r with linesLost := r.linesLost || gone, haloBad := r.haloBad || bad, damaged := r.damaged || dam }

/-- The elements of a source tile in transfer order, with everything that the read does to the state. -/
def State.readTile (s : State) (p : PanelId) (f : Nat) : List Elem × State :=
  let d := s.pat.tile f
  let loops := s.panels[p].seq.loops
  let body := (s.bodyRun p).map (·.bodyRef)
  if d.space ≤ spHbm then
    let base := s.baseOf d body
    let s := s.noteRead p false (s.viewLacks p d loops) false
    let (units, fs, s) := s.readUnits p d base loops
    (s.elemsOf d base loops units, s.founds p fs)
  else
    match body with
    | none => (List.replicate d.count 0, s)
    | some b =>
      if d.space = spBobbin then
        let (px, gone, dam) := s.readBobbin d b
        (px, s.noteRead p gone false dam)
      else
        let (px, bad, dam, aw, id, fs) := s.readHalo d b
        let s := (s.noteRead p false bad dam).founds p fs
        let side := if d.space = spWest then 0 else 1
        let s := s.updRun (s.pat.groupOf p.val) fun r => { r with awaited := r.awaited ++ aw.map fun q => (side, q) }
        (px, if aw.isEmpty then s else s.markRun p id 4 [])

/-- The words of a tile's elements or blocks as stored, for a copy. -/
def State.readStored (s : State) (p : PanelId) (f : Nat) : List (List Byte) × State :=
  let d := s.pat.tile f
  let loops := s.panels[p].seq.loops
  let s := s.noteRead p false (s.viewLacks p d loops) false
  let (units, fs, s') := s.readUnits p d (s.baseOf d ((s.bodyRun p).map (·.bodyRef))) loops
  (units, s'.founds p fs)

/-- Bytes written to a panel's scratch or to the commons. -/
def State.writeStore (s : State) (p : PanelId) (space a : Nat) (bs : List Byte) : State :=
  if space = spScratch then s.updPanel p (·.writeScratch a bs)
  else if space = spCommons then s.writeCommons a bs
  else s

/-- The stored bytes of each element or block written, in transfer order. -/
def State.writeStored (s : State) (p : PanelId) (f : Nat) (units : List (List Byte)) : State :=
  let d := s.pat.tile f
  let base := s.baseOf d ((s.bodyRun p).map (·.bodyRef))
  let loops := s.panels[p].seq.loops
  (d.units.zip units).foldl (fun s (c, b) =>
    let (a, _) := d.span base loops c
    if d.fmt = fmtI4 ∧ !d.isBlocked then
      let old := (Memory.read 0 (if d.space = spScratch then s.panels[p].scratch else s.commons.mem) a.toNat).toNat
      let v := leNat b % 16
      s.writeStore p d.space a.toNat
        [BitVec.ofNat 8 (if d.addr base loops c % 2 = 0 then old / 16 * 16 + v else old % 16 + 16 * v)]
    else s.writeStore p d.space a.toNat b) s

/-- The elements of each block of a tile, in block order, from elements in transfer order. -/
def TileDesc.gather {α : Type} [Inhabited α] (d : TileDesc) (l : List α) : List (List α) :=
  let j := d.blocked
  d.units.map fun c =>
    (List.range d.blockLen).map fun i => l.getD (d.indexOf (c.set j (c.getD j 0 + i))) default

/-- R213, R214: values in transfer order written to a plain tile in its format. -/
def State.writeValues (s : State) (p : PanelId) (f : Nat) (away : Bool) (vs : List Num) : State :=
  let d := s.pat.tile f
  if d.fmt = fmtBX8 then s.writeStored p f ((d.gather vs).map bx8Encode)
  else s.writeStored p f (vs.map fun v => leBytes (ceilDiv (fmtBits d.fmt) 8) (encodeBits d.fmt away v))

end Sys2Proof.Machine
end

