-- ==== Sys2Proof/Machine/Spans.lean ====
section
/-! DEFINITION. Serving groups, pending windows and the start of spans (R309, R310, R427). -/

namespace Sys2Proof.Machine

/-! ### Serving groups (R309, R310) -/

/-- The slot ids in a panel's program. -/
def PanlEntry.slotIds (e : PanlEntry) : List Nat :=
  e.words.filterMap fun w => match decodeStitch w with
    | some (.slot id _ _) => some id
    | _ => none

/-- R309: the panels of a group whose programs hold a slot id. -/
def Pattern.slotPanels (p : Pattern) (g id : Nat) : List Nat :=
  ((p.groupPanels g).filter fun n => (p.entryOf n.val).slotIds.contains id).map (·.val)

/-- R309: the group serves in a schedule: a slot id of its programs has an entry there. -/
def Pattern.serves (p : Pattern) (degraded : Bool) (g : Nat) : Bool :=
  (p.groupPanels g).any fun n => (p.entryOf n.val).slotIds.any fun id =>
    p.dlin.slots.any fun e => e.id == id && bitAt e.flags 0 == degraded

/-- R130: the pattern has a degraded schedule. -/
def Pattern.hasDegraded (p : Pattern) : Bool := p.voteDegraded != 0xFF && p.dlin.slots.any fun e => bitAt e.flags 0

/-- The serving groups of the schedule in force. -/
def State.servingGroups (s : State) : List Nat := s.pat.groupNumbers.filter (s.pat.serves s.power.degraded)

/-- R310: the group's hysteresis in µs: the largest among its panels. -/
def State.groupHyst (s : State) (g : Nat) : Nat :=
  ((s.pat.groupPanels g).map fun n => (s.voteEntry (domPanel n.val)).hyst).foldl max 0

/-- R443: a hysteresis that never runs out. -/
def neverHyst : Nat := 0xFFFFFFFF

/-- R310: every panel of the group declares a hysteresis that never runs out. -/
def State.onDuty (s : State) (g : Nat) : Bool :=
  let ps := s.pat.groupPanels g
  !ps.isEmpty && ps.all fun n => (s.voteEntry (domPanel n.val)).hyst == neverHyst

/-- R443: a hysteresis in µs, rounded up to whole ticks, has passed since an instant of the wall timebase. -/
def hystPassed (us from_ now : Nat) : Bool :=
  us != neverHyst && decide (ceilDiv (us * 32768) (10 ^ 6) * 10 ^ 12 ≤ (now - from_) * 32768)

/-- A group's field. -/
def State.group (s : State) (g : Nat) : Group :=
  match s.groupSlot g with
  | some i => s.look.groups[i]
  | none => {}

/-- R310, R487: the event unit votes the group's panels on; a flush starts no span. -/
def State.startSpan (s : State) (g : Nat) : State :=
  if (s.group g).inSpan || (s.group g).starting || s.hold.st == .flushing then s
  else
    let s := s.updGroup g fun x => { x with starting := true }
    s.addVotes (.group g) ((s.pat.groupPanels g).map fun n => domPanel n.val) false

/-- R310: a window of the schedule is pending: admitted and not yet taken, or replay-ready. -/
def State.windowPending (s : State) : Bool :=
  s.look.ledger.any fun w => w.degraded == s.power.degraded && w.st.pending

/-- R310, R427: a window is pending: every serving group of the schedule in force that is out of span starts one. -/
def State.startSpans (s : State) : State := s.servingGroups.foldl State.startSpan s

/-- R310, R427, R460: spans start where a window of the schedule in force is pending. -/
def State.wakeGroups (s : State) : State := if s.running && s.windowPending then s.startSpans else s

end Sys2Proof.Machine
end

