-- ==== Sys2Proof/Machine/Halo.lean ====
section
/-! DEFINITION. Halo and replay lines, the line watchdog, and the holds that replays wait for (R404 to R406, R422 to
R433). -/

namespace Sys2Proof.Machine

/-! ### Holds of held windows -/

/-- R422: codes of what a held window waits for. -/
def holdNow : Nat := 0
def holdView : Nat := 1
def holdStream : Nat := 2
def holdHbm : Nat := 3
def holdHalo : Nat := 4

/-- R422: the key of an awaiting entry: side and line. -/
def haloKey (side : Fin 2) (q : LineSeq) : Nat := side.val * 2 ^ 40 + q.toNat

/-- R422, R426: a held window whose hold has cleared becomes replay-ready; with HIST its view is refilled first. -/
def State.holdCleared (s : State) (w : Window) : Window :=
  if w.st == .held && w.holdKeys.isEmpty && s.pat.hist.isNone then { w with st := .replayReady } else w

/-- R422: a key of a kind of hold clears in every held window. -/
def State.clearKey (s : State) (kind key : Nat) : State :=
  let f (w : Window) : Window :=
    if w.st == .held && w.holdOn == kind then
      s.holdCleared { w with holdKeys := w.holdKeys.filter (· != key) }
    else w
  { s with look := { s.look with ledger := s.look.ledger.map f } }.wakeGroups

/-! ### Sending -/

/-- R161: the flags byte of a line as a halo message carries it. -/
def BobLine.flagsByte (l : BobLine) : Nat := l.flags.toNat

/-- R404: the columns that a side's neighbour receives, and none of an empty, oversize or over-rate line. -/
def State.haloPixels (s : State) (side : Fin 2) (l : BobLine) : List Nat :=
  if l.has lineEmpty || l.has lineOversize || l.has lineOverRate then []
  else
    let h := s.haloSent side
    if side = 0 then l.pixels.take h else l.pixels.drop (s.pat.width - h)

/-- R365: the payload of a halo or replay line. -/
def State.haloPayload (s : State) (side : Fin 2) (l : BobLine) : List Byte :=
  let px := s.haloPixels side l
  leBytes 5 l.seq.toNat ++ leBytes 1 l.flagsByte ++ leBytes 2 px.length
    ++ packPixels s.pat.bits (ceilDiv (s.haloSent side * s.pat.bits) 8) px

/-- R404, R433: a line sent on a side as a halo (0x10) or replay (0x11) line. -/
def State.sendLine (s : State) (side : Fin 2) (type : Nat) (l : BobLine) : State :=
  s.queueOn (sidePort side) vcLine type (s.sideAddress side) s.address (s.haloPayload side l) (some l.seq) none

/-- R404: halo lines of a numbered line, on each E/W link in the bolt. -/
def State.sendHalos (s : State) (l : BobLine) : State :=
  if s.inBolt then
    [0, 1].foldl (fun (s : State) (side : Fin 2) =>
      if s.sideDeclared side && s.linkIn (sidePort side) then s.sendLine side 0x10 l else s) s
  else s

/-- R433: how many lines have been numbered after n_ack, or in all when none was acknowledged. -/
def State.sinceAck (s : State) (q : SeamId) : Nat :=
  match s.seams[q].nAck with
  | some n => (s.intake.nextSeq - (n + 1)).toNat
  | none => s.intake.nextSeq.toNat

/-- R433: the lines of the bobbin after n_ack, in ascending order. -/
def State.replayList (s : State) (side : Fin 2) : List BobLine :=
  let m := min s.pat.bobbinDepth (s.sinceAck (sidePort side))
  (List.range m).filterMap fun i => s.bobLine (s.intake.nextSeq - BitVec.ofNat 40 m + BitVec.ofNat 40 i)

/-- R433: replay lines for every line after the last one acknowledged. -/
def State.sendReplays (s : State) (side : Fin 2) : State :=
  (s.replayList side).foldl (fun s l =>
    { s.sendLine side 0x11 l with faults := { s.faults with
      replaySent := satAdd 32 s.faults.replaySent 1 } }) s

/-! ### Receiving -/

/-- R405: the local line of a neighbour's line n on a port, and the offset switched when n has come. -/
def BoltLink.place (l : BoltLink) (n : LineSeq) : BoltLink × Option LineSeq :=
  let l := match l.deltaNext with
    | some (from_, d) => if 0 ≤ seqDiff from_ n then { l with delta := some d, deltaNext := none } else l
    | none => l
  (l, l.delta.map fun d => n + BitVec.ofInt 40 d)

/-- R406: the ring flags of a line with the sender's flags: present, and damaged for damaged, oversize or over-rate. -/
def ringFlags (sender : Nat) : BitVec 4 := if sender &&& 0x0D = 0 then 1#4 else 3#4

/-- R406: the entry that a halo or replay line makes for local line q. -/
def State.entryOf (s : State) (side : Fin 2) (q : LineSeq) (p : List Byte) : HaloEntry :=
  let h := s.haloWidth side
  let n := min (uAt p 6 2) h
  { seq := q, flags := ringFlags (uAt p 5 1)
    pixels := (unpackPixels s.pat.bits n (p.drop 8)) ++ List.replicate (h - n) 0 }

/-- The flags of a ring entry: bit 0 present, 1 damaged, 2 missing, 3 awaiting replay (R430). -/
def haloMissing : BitVec 4 := 4
def haloAwaiting : BitVec 4 := 8

/-- R431: the entry awaits a replay line. -/
def HaloEntry.awaiting (e : HaloEntry) : Bool := e.flags == haloAwaiting

/-- R431: awaiting entries for lines before q become missing. -/
def State.missBefore (s : State) (side : Fin 2) (q : LineSeq) : State :=
  let late := (s.bolt.halo[side].ring.map (·.2)).filter fun e => e.awaiting && decide (0 < seqDiff e.seq q)
  late.foldl (fun s e => (s.putHalo side { e with flags := haloMissing }).clearKey holdHalo (haloKey side e.seq)) s

/-- R431: every awaiting entry becomes missing: the neighbour numbers its lines anew and sends no replay. -/
def State.missAll (s : State) (side : Fin 2) : State :=
  ((s.bolt.halo[side].ring.map (·.2)).filter (·.awaiting)).foldl
    (fun s e => (s.putHalo side { e with flags := haloMissing }).clearKey holdHalo (haloKey side e.seq)) s

/-- R431: whether a message may still write the entry of line q: nothing final is there, and no later line. -/
def State.writable (s : State) (side : Fin 2) (q : LineSeq) : Bool :=
  match s.bolt.halo[side].ring.find? (·.1 == q.toNat % s.pat.bobbinDepth) with
  | some (_, e) => if e.seq == q then e.awaiting else decide (0 < seqDiff e.seq q)
  | none => true

/-- R406, R431: a line written into its ring entry; the watch on it and the holds on it end. -/
def State.storeHalo (s : State) (side : Fin 2) (q : LineSeq) (p : List Byte) : State :=
  let s := s.putHalo side (s.entryOf side q p)
  let s := { s with bolt := { s.bolt with halo := Vector.upd s.bolt.halo side fun h =>
    { h with watch := h.watch.filter (·.1 != q) } } }
  s.clearKey holdHalo (haloKey side q)

/-- The side of a port that carries LINE messages. -/
def portSide (q : SeamId) : Option (Fin 2) := match q with
  | 1 => some 0 | 0 => some 1 | _ => none

/-- The oldest message delivered at a port, if it is of a VC and type, with the port's queue without it. -/
def State.takeMessage (s : State) (q : SeamId) (vc type : Nat) : Option (Message × State) :=
  match s.seams[q].inbox with
  | m :: rest =>
    if m.vc = vc ∧ m.type = type then some (m, s.updSeam q fun p => { p with inbox := rest }) else none
  | [] => none

/-- R431: the neighbour's line n is not newer than the last one that came. -/
def BoltLink.restarted (l : BoltLink) (n : LineSeq) : Bool :=
  match l.lastLine with
  | some m => decide (seqDiff m n ≤ 0)
  | none => false

/-- R431: after a return, the first line of the link ends the wait of earlier lines; a halo line that comes first though its
number is not newer than the last shows a neighbour that was reset, and ends the wait of all (log 129). -/
def State.firstAfterReturn (s : State) (q : SeamId) (side : Fin 2) (line : LineSeq) (reset : Bool) : State :=
  if s.bolt.links[q].returning then
    (if reset then s.missAll side else s.missBefore side line).updLink q fun l => { l with returning := false }
  else s

/-- R413: a line's sums on one side, once the line and its ring entry are both there: own columns nearest the side and
the halo's columns nearest the boundary, for the first N_c normal lines at or ahead of P_c. -/
def State.sumSide (s : State) (side : Fin 2) (line : LineSeq) : State :=
  match s.bolt.calRun, s.bobLine line, s.haloEntry side line with
  | some (_, pc, nc), some l, some e =>
    let q := sidePort side
    let k := s.bolt.links[q]
    if l.normal && decide (0 ≤ posDiff pc l.stamp) && e.flags == 1 && decide (k.sumLines < nc) &&
        s.bolt.calSums.isNone && s.linkIn q then
      let h := min 32 (s.haloWidth side)
      let own := if side = 0 then l.pixels.take h else l.pixels.drop (s.pat.width - h)
      let nbr := if side = 0 then e.pixels.drop (s.haloWidth side - h) else e.pixels.take h
      s.updLink q fun k =>
        { k with sumOwn := k.sumOwn + own.sum, sumNbr := k.sumNbr + nbr.sum, sumLines := k.sumLines + 1 }
    else s
  | _, _, _ => s

/-- HALO_LINE (R405, R406, R431): the oldest message of the port, when it is a halo line. -/
def execHaloLine (q : SeamId) (s : State) : Result :=
  match portSide q, s.takeMessage q vcLine 0x10 with
  | some side, some (m, s) =>
    let n := BitVec.ofNat 40 (uAt m.payload 0 5)
    let reset := s.bolt.links[q].restarted n
    let (l, line) := s.bolt.links[q].place n
    let s := s.updLink q fun _ => { l with lastLine := some n }
    match line with
    | some line =>
      let s := s.firstAfterReturn q side line reset
      let s := s.missBefore side line
      .next (if s.writable side line then ((s.storeHalo side line m.payload).sumSide side line).settle else s)
    | none => .next s
  | _, _ => .next s

/-- REPLAY_LINE (R431, R433): it resolves an awaiting entry, or is discarded and counted. -/
def execReplayLine (q : SeamId) (s : State) : Result :=
  match portSide q, s.takeMessage q vcLine 0x11 with
  | some side, some (m, s) =>
    let s := { s with faults := { s.faults with
      replayReceived := satAdd 32 s.faults.replayReceived 1 } }
    let n := BitVec.ofNat 40 (uAt m.payload 0 5)
    let (l, line) := s.bolt.links[q].place n
    let s := s.updLink q fun _ => { l with lastLine := some n }
    let drop (s : State) := { s with faults := { s.faults with
      replayDiscarded := satAdd 32 s.faults.replayDiscarded 1 } }
    match line with
    | some line =>
      let s := s.firstAfterReturn q side line false
      .next (if s.writable side line then ((s.storeHalo side line m.payload).sumSide side line).settle
        else drop s)
    | none => .next (drop s)
  | _, _ => .next s

/-! ### The line watchdog -/

/-- R430: the retry credit of a line: the episodes that its link reported since the line entered, at most 2 µs. -/
def State.retryCredit (s : State) (q : SeamId) (entered : Nat) : Nat :=
  min 2000 (((s.seams[q].credits.filter fun c => decide (entered ≤ c.1)).map (·.2)).sum)

/-- R430: the deadline in ps of a line that entered the bobbin at an instant. -/
def State.lineDeadline (s : State) (side : Fin 2) (entered : Nat) : Nat :=
  entered + 10 ^ 12 / max 1 s.pat.dlin.lMax + 4 * usPs + 5120 * haloFlits (s.haloWidth side) s.pat.bits
    + 1000 * s.retryCredit (sidePort side) entered

/-- R430: the entry written for a line whose halo has not arrived by its deadline. -/
def State.lateEntry (s : State) (side : Fin 2) (line : LineSeq) : HaloEntry :=
  let p := s.seams[sidePort side]
  if p.failed then { seq := line, flags := haloAwaiting, faultId := p.faultId }
  else { seq := line, flags := haloMissing }

/-- LINE_DEADLINE (R430): the oldest watched line of a side has reached its deadline. -/
def execLineDeadline (east : Bool) (s : State) : Result :=
  let side : Fin 2 := if east then 1 else 0
  match s.bolt.halo[side].watch with
  | (line, entered) :: rest =>
    when (decide (s.lineDeadline side entered ≤ s.clock)) s fun s =>
      let credit := s.retryCredit (sidePort side) entered
      let s := { s with
        bolt := { s.bolt with halo := Vector.upd s.bolt.halo side fun h => { h with watch := rest } }
        faults := { s.faults with creditNs := satAdd 32 s.faults.creditNs credit } }
      if s.writable side line then
        let e := s.lateEntry side line
        { s.putHalo side e with faults := { s.faults with
          awaiting := satAdd 32 s.faults.awaiting (bit e.awaiting)
          missing := satAdd 32 s.faults.missing (bit (!e.awaiting)) } }
      else s
  | [] => .next s

end Sys2Proof.Machine
end

