-- ==== Sys2Proof/Machine/Latency.lean ====
section
/-! DEFINITION. The latency sweep (R400 to R403) and the relayed event records (R435). -/

namespace Sys2Proof.Machine

/-- R400: a latency probe's payload; kind 0 start, 1 link probe. -/
def probePayload (gen : BitVec 32) (kind index stamp : Nat) : List Byte :=
  leBytes 4 gen.toNat ++ leBytes 1 kind ++ leBytes 1 0 ++ leBytes 2 index ++ leBytes 4 stamp

/-- R400: SEAMCLK cycles of 6.4 ns at an instant, modulo 2³². -/
def seamCycles (clock : Nat) : Nat := clock / 6400 % 2 ^ 32

/-- R402, R413, R414: the position that the master gives for a switch or a start: its own plus ceil(C_max × 10 ms). -/
def State.switchAhead (s : State) : Pos := s.position + BitVec.ofNat 48 (countsIn s.pat.dlin.cMax (10 ^ 7))

/-- R401: the position master's address. -/
def State.master (s : State) : Addr := BitVec.ofNat 16 s.pat.boltMaster

/-- R401: the device's own part of a sweep begins on its links in the bolt. -/
def State.beginLatency (s : State) (gen : BitVec 32) : State :=
  let s := allPorts.foldl (fun s q => s.updLink q fun l =>
    { l with measured := l.inBolt, echoes := [], broke := false }) s
  { s with bolt := { s.bolt with latRun := some gen, latSent := 0, latAt := 0 } }

/-- R401: the start 1 s after READY has come due. -/
def BoltState.firstDue (b : BoltState) (clock : Nat) : Bool := (b.latDue.map fun t => decide (t ≤ clock)).getD false

/-- R401: a start is wanted, 1 s after READY or for a request, the last was 1 s ago and no sweep is in progress. -/
def BoltState.sweepDue (b : BoltState) (clock : Nat) : Bool :=
  b.latMaster.isNone && (b.latWanted || b.firstDue clock) && b.latUsed.2.all fun t => decide (t + 1000 * msPs ≤ clock)

/-- LATENCY_SWEEP_START (R401): the master starts a sweep. -/
def execLatencySweepStart (s : State) : Result :=
  when (s.running && s.isMaster && s.role != 0 && s.bolt.sweepDue s.clock) s fun s =>
    let g := s.bolt.latUsed.1 + 1
    let s := { s with bolt := { s.bolt with
      latUsed := (g, some s.clock), latWanted := false
      latDue := if s.bolt.firstDue s.clock then none else s.bolt.latDue
      latMaster := some (s.clock, true, 0) } }
    (s.broadcast vcTick 0x03 (probePayload g 0 0 0)).beginLatency g

/-- LATENCY_START (R401): a received start. -/
def execLatencyStart (q : SeamId) (s : State) : Result :=
  match s.takeMessage q vcTick 0x03 with
  | some (m, s') =>
    if uAt m.payload 4 1 = 0 then
      .next (if s'.inBolt then s'.beginLatency (BitVec.ofNat 32 (uAt m.payload 0 4)) else s')
    else .next s
  | none => .next s

/-- R398, R401: the sweep that the device takes part in; in selvage mode it takes part in none. -/
def State.sweepNow (s : State) : Option (BitVec 32) := if s.inBolt then s.bolt.latRun else none

/-- LINK_PROBE_SEND (R401): the next of 256 link probes, one every 4 µs, on every measured port in the bolt. -/
def execLinkProbeSend (s : State) : Result :=
  match s.sweepNow with
  | some g =>
    when (decide (s.bolt.latSent < 256) && (s.bolt.latSent == 0 || decide (s.bolt.latAt + 4 * usPs ≤ s.clock))) s
      fun s =>
        let i := s.bolt.latSent
        let s := allPorts.foldl (fun s q =>
          if s.linkIn q && s.bolt.links[q].measured then
            s.queueOn q vcTick 0x03 (s.neighbour q) s.address (probePayload g 1 i (seamCycles s.clock)) none none
          else s) s
        { s with bolt := { s.bolt with latSent := i + 1, latAt := s.clock } }
  | none => .next s

/-- LINK_PROBE (R401): a received link probe is echoed at once. -/
def execLinkProbe (q : SeamId) (s : State) : Result :=
  match s.takeMessage q vcTick 0x03 with
  | some (m, s') =>
    if uAt m.payload 4 1 = 1 then
      .next (if s'.inBolt then s'.queueOn q vcTick 0x04 m.source s'.address
        (m.payload.take 4 ++ sliceB m.payload 6 2 ++ leBytes 2 0 ++ sliceB m.payload 8 4
          ++ leBytes 4 ((s'.clock - m.atClock) / 6400)) none none else s')
    else .next s
  | none => .next s

/-- R401: a probe's round trip in SEAMCLK cycles, less the time that the echoing device held it. -/
def echoCycles (m : Message) : Nat :=
  (seamCycles m.atClock + 2 ^ 32 - uAt m.payload 8 4) % 2 ^ 32 - uAt m.payload 12 4

/-- LATENCY_ECHO (R401): the round trip less the echoer's residence, in SEAMCLK cycles. -/
def execLatencyEcho (q : SeamId) (s : State) : Result :=
  match s.takeMessage q vcTick 0x04 with
  | some (m, s) =>
    when (s.bolt.latRun == some (BitVec.ofNat 32 (uAt m.payload 0 4)) && s.bolt.links[q].measured) s fun s =>
      s.updLink q fun l => { l with echoes := l.echoes ++ [echoCycles m] }
  | none => .next s

/-- R401: the mean and the maximum one-way ns of a port: half of the cycles, 3.2 ns each. -/
def BoltLink.oneWay (l : BoltLink) : Nat × Nat :=
  if l.measured && !l.echoes.isEmpty then
    ((rne (32 * l.echoes.sum : Nat) (10 * l.echoes.length)).toNat,
     (rne (32 * l.echoes.foldl max 0 : Nat) 10).toNat)
  else (0, 0)

/-- R401: the device's part is complete: no measured link broke and no echo is missing. -/
def State.latencyComplete (s : State) : Bool :=
  allPorts.all fun q =>
    let l := s.bolt.links[q]
    !l.measured || (!l.broke && l.echoes.length == 256)

/-- R400: the payload of a report. -/
def State.latencyReport (s : State) (gen : BitVec 32) (complete : Bool) : List Byte :=
  let ports := (allPorts.map fun q => bit s.bolt.links[q].measured * 2 ^ (q.val + 1)).sum
  leBytes 4 gen.toNat ++ leBytes 1 0 ++ leBytes 1 (bit complete + ports)
    ++ allPorts.flatMap fun q =>
      let (a, b) := s.bolt.links[q].oneWay
      leBytes 2 a ++ leBytes 2 b

/-- R401: a report reaches the master's collection. -/
def State.noteReport (s : State) (p : List Byte) : State :=
  match s.bolt.latMaster with
  | some (t, ok, greatest) =>
    if BitVec.ofNat 32 (uAt p 0 4) == s.bolt.latUsed.1 then
      let m := [uAt p 8 2, uAt p 12 2, uAt p 16 2, uAt p 20 2].foldl max greatest
      { s with bolt := { s.bolt with latMaster := some (t, ok && bitAt (uAt p 5 1) 0, m) } }
    else s
  | none => s

/-- LATENCY_ECHO_TIMEOUT (R401): 1 ms after the last probe the device reports to the master. -/
def execLatencyEchoTimeout (s : State) : Result :=
  match s.sweepNow with
  | some g =>
    when (s.bolt.latSent == 256 && decide (s.bolt.latAt + msPs ≤ s.clock)) s fun s =>
      let p := s.latencyReport g s.latencyComplete
      let s := { s with bolt := { s.bolt with latSent := 257 } }
      if s.isMaster then s.noteReport p else s.sendTo vcTick 0x05 s.master p
  | none => .next s

/-- A result message of a kind at a port (R400). -/
def State.takeResult (s : State) (q : SeamId) (kind : Nat) : Option (Message × State) :=
  match s.takeMessage q vcTick 0x05 with
  | some (m, s') => if uAt m.payload 4 1 = kind then some (m, s') else none
  | none => none

/-- LATENCY_REPORT (R401): the master records a report. -/
def execLatencyReport (q : SeamId) (s : State) : Result :=
  match s.takeResult q 0 with
  | some (m, s) => .next (s.noteReport m.payload)
  | none => .next s

/-- R402: the flits of a history reply of the pattern, one without HIST. -/
def State.replyFlits (s : State) : Nat := (s.pat.hist.map (·.replyFlits)).getD 1

/-- R402: G₀. -/
def State.graceZero (s : State) : Nat :=
  max ((s.pat.hist.map (·.grace)).getD 0)
    (ceilDiv (s.pat.dlin.cMax * (238000 + 512 * s.replyFlits)) (10 ^ 11) + 2)

/-- R402: G for the greatest maximum λ in ns. -/
def State.graceFor (s : State) (lam : Nat) : Nat :=
  max s.graceZero (ceilDiv (s.pat.dlin.cMax * (100 * lam + 200000 + 512 * s.replyFlits)) (10 ^ 11) + 2)

/-- R402: the commit that is in force at a position: the newest whose P_w it has reached. -/
def State.committedAt (s : State) (q : Pos) : Option (Pos × Nat × List (Option (Nat × Nat))) :=
  s.bolt.graceNext.reverse.find? fun x => decide (0 ≤ posDiff x.1 q)

/-- R402: the grace window in force at a position. -/
def State.graceAt (s : State) (q : Pos) : Nat :=
  match s.committedAt q with
  | some (_, g, _) => g
  | none => s.bolt.grace

/-- R402: the adopted mean one-way latency in ns of a port, none where it has none. -/
def State.adoptedMean (s : State) (q : SeamId) : Option Nat :=
  match s.committedAt s.position with
  | some (_, _, ms) => (ms.getD q.val none).map (·.1)
  | none => s.bolt.links[q].mean

/-- R402: the mean one-way latency in ns of a port's link in force; ρ / 2 from training where none is adopted. -/
def State.linkMean (s : State) (q : SeamId) : Nat := (s.adoptedMean q).getD (s.seams[q].rho.getD 0 / 2)

/-- R402: a commit whose successor is in force at the device's position becomes the values before the first one held. -/
def State.settleLatency (s : State) : State :=
  match s.bolt.graceNext with
  | (_, g, ms) :: y :: rest =>
    if 0 ≤ posDiff y.1 s.position then
      let links := s.bolt.links.mapIdx fun i (l : BoltLink) =>
        let m := ms.getD i none
        { l with mean := m.map (·.1), maxOneWay := (m.map (·.2)).getD 0 }
      { s with bolt := { s.bolt with grace := g, links := links, graceNext := y :: rest } }
    else s
  | _ => s

/-- R402: what the device measured in the sweep of a generation, per port; nothing when it took no part (log 126). -/
def State.ownLatency (s : State) (gen : BitVec 32) : List (Option (Nat × Nat)) :=
  allPorts.map fun q =>
    let l := s.bolt.links[q]
    if s.bolt.latRun == some gen && l.measured && !l.echoes.isEmpty then some l.oneWay else none

/-- R402: the switch of a commit: its G and this device's own measurements from P_w on. -/
def State.adoptLatency (s : State) (gen : BitVec 32) (g : Nat) (pw : Pos) : State :=
  let own := s.ownLatency gen
  let s := s.settleLatency
  let s := { s with
    bolt := { s.bolt with latGen := gen, latRun := none, graceNext := s.bolt.graceNext ++ [(pw, g, own)] } }
  s.boltRecord 7 (gen.toNat % 2 ^ 16) 0xFFFF g

/-- R403: an aborted sweep leaves every previous value. -/
def State.abortLatency (s : State) (gen : BitVec 32) : State :=
  ({ s with bolt := { s.bolt with latRun := none } }).boltRecord 8 (gen.toNat % 2 ^ 16) 0xFFFF 0

/-- LATENCY_COLLECTION_END (R401, R402): 100 ms after the start the master commits or aborts. -/
def execLatencyCollectionEnd (s : State) : Result :=
  match s.bolt.latMaster with
  | some (t, ok, lam) =>
    when (decide (t + 100 * msPs ≤ s.clock)) s fun s =>
      let g := s.bolt.latUsed.1
      let s := { s with bolt := { s.bolt with latMaster := none } }
      if ok then
        let pw := s.switchAhead
        let gr := s.graceFor lam
        let s := s.broadcast vcTick 0x05
          (leBytes 4 g.toNat ++ leBytes 1 1 ++ leBytes 1 0 ++ leBytes 4 gr ++ leBytes 6 pw.toNat)
        (s.adoptLatency g gr pw).settle
      else
        ((s.broadcast vcTick 0x05 (leBytes 4 g.toNat ++ leBytes 1 2 ++ leBytes 1 0)).abortLatency g).settle
  | none => .next s

/-- LATENCY_COMMIT (R402): every device in the bolt adopts it. -/
def execLatencyCommit (q : SeamId) (s : State) : Result :=
  match s.takeResult q 1 with
  | some (m, s) =>
    let g := BitVec.ofNat 32 (uAt m.payload 0 4)
    when s.inBolt s fun s =>
      (s.adoptLatency g (uAt m.payload 6 4) (BitVec.ofNat 48 (uAt m.payload 10 6))).settle
  | none => .next s

/-- LATENCY_ABORT (R403). -/
def execLatencyAbort (q : SeamId) (s : State) : Result :=
  match s.takeResult q 2 with
  | some (m, s) =>
    let g := BitVec.ofNat 32 (uAt m.payload 0 4)
    when s.inBolt s fun s => (s.abortLatency g).settle
  | none => .next s

/-- R401: the master is to start a sweep for a request. -/
def State.wantLatency (s : State) : State := { s with bolt := { s.bolt with latWanted := true } }

/-- LATENCY_REQUEST (R401). -/
def execLatencyRequest (q : SeamId) (s : State) : Result :=
  match s.takeResult q 3 with
  | some (_, s) => .next (if s.isMaster then s.wantLatency else s)
  | none => .next s

/-- R401: a device that sees a link rejoin asks the master for a sweep. -/
def State.requestLatency (s : State) : State :=
  if s.isMaster then s.wantLatency
  else s.sendTo vcTick 0x05 s.master (leBytes 4 s.bolt.latGen.toNat ++ leBytes 1 3 ++ leBytes 1 0)

/-- EVENT_RECORD (R330, R435): at the collector a record newer than the last of its source enters with flag bit 2; an
"admitted" STATUS starts its source anew. -/
def execEventRecord (q : SeamId) (s : State) : Result :=
  match s.takeMessage q vcEvent 0x20 with
  | some (m, s) =>
    if !(s.role == 2 || s.role == 4) || !s.inBolt then .next s
    else
      let r := Record.ofBytes m.payload
      let fresh := r.type == 8 && r.sub == 1
      let newer := match s.events.lastOf.find? (·.1 == r.source) with
        | some (_, n) => decide (0 < (r.seqNo - n).toInt)
        | none => true
      if fresh || newer then
        let s := { s with events := { s.events with
          lastOf := (r.source, r.seqNo) :: s.events.lastOf.filter (·.1 != r.source) } }
        .next (s.submit { r with flags := r.flags ||| 4#8 }).settle
      else
        .next { s with faults := { s.faults with duplicates := satAdd 32 s.faults.duplicates 1 } }
  | none => .next s

end Sys2Proof.Machine
end

