-- ==== Sys2Proof/Machine/Calibration.lean ====
section
/-! DEFINITION. Cross-web gain matching: the calibration sweep (R412 to R414). -/

namespace Sys2Proof.Machine

/-- R412: a calibration sweep message's payload. -/
def sweepPayload (gen : BitVec 32) (kind : Nat) (complete : Bool) (p : Pos) (nc f : Nat) : List Byte :=
  leBytes 4 gen.toNat ++ leBytes 1 kind ++ leBytes 1 (bit complete) ++ leBytes 2 0 ++ leBytes 6 p.toNat
    ++ leBytes 2 0 ++ leBytes 4 nc ++ leBytes 4 f

/-- R413: the device's own part begins. -/
def State.beginCalibration (s : State) (gen : BitVec 32) (pc : Pos) (nc : Nat) : State :=
  let s := allPorts.foldl (fun s q => s.updLink q fun l =>
    { l with sumOwn := 0, sumNbr := 0, sumLines := 0, sumBroke := false }) s
  { s with bolt := { s.bolt with
    calRun := some (gen, pc, nc), calWest := none, calF := none, calSums := none, calDone := false
    calFirst := none, calOk := true, calLines := 0
    calSides := [0, 1].filter fun (side : Fin 2) => s.sideDeclared side && s.linkIn (sidePort side) } }

/-- CALIBRATION_SWEEP_START (R413): the master broadcasts a start, no more than once a minute. -/
def execCalibrationSweepStart (s : State) : Result :=
  when (s.running && s.isMaster && s.role != 0 && s.bolt.calWanted && s.bolt.calMaster.isNone &&
      (s.bolt.calLast.map fun t => decide (t + 60000 * msPs ≤ s.clock)).getD true) s fun s =>
    let g := s.bolt.calUsed + 1
    let pc := s.switchAhead
    let s := { s with bolt := { s.bolt with
      calUsed := g, calWanted := false, calLast := some s.clock, calMaster := some (true, none) } }
    (s.broadcast vcTick 0x06 (sweepPayload g 0 false pc 65536 0)).beginCalibration g pc 65536

/-- A sweep message of a kind at a port (R412). -/
def State.takeSweep (s : State) (q : SeamId) (kind : Nat) : Option (Message × State) :=
  match s.takeMessage q vcTick 0x06 with
  | some (m, s') => if uAt m.payload 4 1 = kind then some (m, s') else none
  | none => none

/-- CALIBRATION_START (R413). -/
def execCalibrationStart (q : SeamId) (s : State) : Result :=
  match s.takeSweep q 0 with
  | some (m, s) =>
    .next (if s.inBolt then
      s.beginCalibration (BitVec.ofNat 32 (uAt m.payload 0 4)) (BitVec.ofNat 48 (uAt m.payload 8 6))
        (uAt m.payload 0x10 4)
    else s)
  | none => .next s

/-- R413: every side that was in the bolt as the part began has its sums. -/
def State.sumsFull (s : State) (nc : Nat) : Bool :=
  s.bolt.calSides.all fun side => decide (nc ≤ s.bolt.links[sidePort side].sumLines)

/-- R413: 2²⁰ lines have passed since the line at P_c. -/
def State.sumsLate (s : State) : Bool :=
  match s.bolt.calFirst with
  | some n => decide ((2 : Int) ^ 20 ≤ seqDiff n s.intake.nextSeq)
  | none => false

/-- R413: every new cross-web coefficient lies in 8,192 to 24,576. -/
def CoefSet.inRange (c : CoefSet) (f : Nat) : Bool :=
  c.m.all fun m =>
    let v := rne (m * f : Nat) (2 ^ 24)
    decide (8192 ≤ v) && decide (v ≤ 24576)

/-- R413: the factor of the device from its west neighbour's; none when it computes none. -/
def State.ownFactor (s : State) : Option Nat :=
  if s.bolt.calSides.contains 0 then
    match s.bolt.calWest with
    | some (f, true) =>
      let l := s.bolt.links[sidePort 0]
      if l.sumOwn = 0 then none else some (rne (f * l.sumNbr : Nat) l.sumOwn).toNat
    | _ => none
  else some (2 ^ 24)

/-- R413: the factor and the report are sent: east the factor with its complete bit, to the master the report. -/
def State.finishCalibration (s : State) : State :=
  match s.bolt.calRun with
  | some (g, _, _) =>
    let f := s.ownFactor
    let broke := s.bolt.calSides.any fun side => s.bolt.links[sidePort side].sumBroke
    let ok := s.bolt.calOk && f.isSome && !broke && s.intake.coef.inRange (f.getD 0)
    let s := { s with bolt := { s.bolt with calF := f, calDone := true } }
    let s := if s.sideDeclared 1 && s.linkIn 0 then
        s.queueOn 0 vcTick 0x06 (s.neighbour 0) s.address
          (sweepPayload g 1 f.isSome 0 0 (f.getD 0)) none none
      else s
    let p := sweepPayload g 2 ok 0 0 (f.getD 0)
    if s.isMaster then
      { s with bolt := { s.bolt with calMaster := s.bolt.calMaster.map fun (c, t) => (c && ok, t) } }
    else s.sendTo vcTick 0x06 s.master p
  | none => s

/-- CALIBRATION_SUMS_DONE (R413): every side's N_c lines are summed, or 2²⁰ lines have passed; the device goes on when it
needs no west factor or has it. -/
def execCalibrationSumsDone (s : State) : Result :=
  match s.bolt.calRun with
  | some (_, _, nc) =>
    when (s.bolt.calSums.isNone && (s.sumsFull nc || s.sumsLate)) s fun s =>
      let s := { s with bolt := { s.bolt with
        calSums := some s.clock, calOk := s.sumsFull nc } }
      if !s.bolt.calSides.contains 0 || s.bolt.calWest.isSome then s.finishCalibration.settle else s
  | none => .next s

/-- CALIBRATION_FACTOR (R413): the west neighbour's factor. -/
def execCalibrationFactor (q : SeamId) (s : State) : Result :=
  match s.takeSweep q 1 with
  | some (m, s) =>
    let g := BitVec.ofNat 32 (uAt m.payload 0 4)
    when ((s.bolt.calRun.map (·.1)) == some g && q == 1 && !s.bolt.calDone) s fun s =>
      let s := { s with bolt := { s.bolt with
        calWest := some (uAt m.payload 0x14 4, bitAt (uAt m.payload 5 1) 0) } }
      if s.bolt.calSums.isSome then s.finishCalibration.settle else s
  | none => .next s

/-- CALIBRATION_FACTOR_TIMEOUT (R413): no west factor 1 s after the own sums; the report is incomplete. -/
def execCalibrationFactorTimeout (s : State) : Result :=
  when (s.bolt.calRun.isSome && !s.bolt.calDone && s.bolt.calWest.isNone &&
      (s.bolt.calSums.map fun t => decide (t + 1000 * msPs ≤ s.clock)).getD false) s fun s =>
    s.finishCalibration.settle

/-- CALIBRATION_REPORT (R413): the master records a report. -/
def execCalibrationReport (q : SeamId) (s : State) : Result :=
  match s.takeSweep q 2 with
  | some (m, s) =>
    when (BitVec.ofNat 32 (uAt m.payload 0 4) == s.bolt.calUsed) s fun s =>
      let ok := bitAt (uAt m.payload 5 1) 0
      { s with bolt := { s.bolt with calMaster := s.bolt.calMaster.map fun (c, t) => (c && ok, t) } }
  | none => .next s

/-- R157, R263: a change of coefficients is written into the set that is not in use, with good parity, and waits beside any
other that has not taken effect. -/
def State.changeCoefs (s : State) (x : CoefChange) : State :=
  let base := (1 - s.intake.coefBank) * s.pat.flatSetBytes
  { s.cleanCommons base s.pat.flatSetBytes with intake := { s.intake with
    coefNext := s.intake.coefNext ++ [x], badPrev := [] } }

/-- R157, R414: the new m, to be switched in from the first eligible line at or ahead of P_s. -/
def State.adoptCalibration (s : State) (gen : BitVec 32) (ps : Pos) : State :=
  let f := s.bolt.calF.getD (2 ^ 24)
  let s := s.changeCoefs
    { m := some (s.intake.coef.m.map fun m => (rne (m * f : Nat) (2 ^ 24)).toNat), since := some ps }
  let s := { s with bolt := { s.bolt with calGen := gen, calRun := none, calAborted := false } }
  s.boltRecord 9 (gen.toNat % 2 ^ 16) 0xFFFF f

/-- R414: an abort keeps the previous m. -/
def State.abortCalibration (s : State) (gen : BitVec 32) : State :=
  ({ s with bolt := { s.bolt with calRun := none, calAborted := true } }).boltRecord 10 (gen.toNat % 2 ^ 16) 0xFFFF 0

/-- CALIBRATION_COLLECTION_END (R414): 2 s after the last line of N_c at its own position the master commits or aborts. -/
def execCalibrationCollectionEnd (s : State) : Result :=
  match s.bolt.calMaster with
  | some (ok, some t) =>
    when (decide (t + 2000 * msPs ≤ s.clock)) s fun s =>
      let g := s.bolt.calUsed
      let s := { s with bolt := { s.bolt with calMaster := none } }
      if ok then
        let ps := s.switchAhead
        ((s.broadcast vcTick 0x06 (sweepPayload g 3 true ps 0 0)).adoptCalibration g ps).settle
      else ((s.broadcast vcTick 0x06 (sweepPayload g 4 false 0 0 0)).abortCalibration g).settle
  | _ => .next s

/-- CALIBRATION_COMMIT (R414). -/
def execCalibrationCommit (q : SeamId) (s : State) : Result :=
  match s.takeSweep q 3 with
  | some (m, s) =>
    let g := BitVec.ofNat 32 (uAt m.payload 0 4)
    when ((s.bolt.calRun.map (·.1)) == some g) s fun s =>
      (s.adoptCalibration g (BitVec.ofNat 48 (uAt m.payload 8 6))).settle
  | none => .next s

/-- CALIBRATION_ABORT (R414). -/
def execCalibrationAbort (q : SeamId) (s : State) : Result :=
  match s.takeSweep q 4 with
  | some (m, s) =>
    let g := BitVec.ofNat 32 (uAt m.payload 0 4)
    when ((s.bolt.calRun.map (·.1)) == some g) s fun s => (s.abortCalibration g).settle
  | none => .next s

/-- CALIBRATION_REQUEST (R413, R414): the master wants a new sweep. -/
def execCalibrationRequest (q : SeamId) (s : State) : Result :=
  match s.takeSweep q 5 with
  | some (_, s) =>
    when s.isMaster s fun s => { s with bolt := { s.bolt with calWanted := true } }
  | none => .next s

end Sys2Proof.Machine
end

