-- ==== Sys2Proof/Machine/PanelMove.lean ====
section
/-! DEFINITION. Instructions that move tiles, pins and fills, COMBINE trees, and the repairs of stored data
(R228 to R231, R239, R264 to R267, R424, R425). -/

namespace Sys2Proof.Machine

/-! ### Operand files -/

/-- R211: BX8 elements, 32 to a block, as stored bytes. -/
def packBx8 : Nat → List Elem → List Byte
  | 0, _ => []
  | fuel + 1, l =>
    if l.isEmpty then []
    else BitVec.ofNat 8 (l.headD 0 / 256) :: (l.take 32).map (BitVec.ofNat 8) ++ packBx8 fuel (l.drop 32)

/-- R208: two 4-bit elements to a byte, the first in bits 3:0. -/
def packNibbles : List Elem → List Byte
  | a :: b :: l => BitVec.ofNat 8 (a % 16 + 16 * b) :: packNibbles l
  | [a] => [BitVec.ofNat 8 (a % 16)]
  | [] => []

/-- The bytes of a row of expanded elements in their own format. -/
def packRow (fmt : Nat) (l : List Elem) : List Byte :=
  if fmt = fmtBX8 then packBx8 (l.length + 1) l
  else if fmt = fmtI4 then packNibbles l
  else l.flatMap fun x => leBytes (fmtBits fmt / 8) x

/-- R229, R255: the elements of each row of an A file, or of each column of a B file. -/
def TileDesc.fileRows (d : TileDesc) (target : Nat) (l : List Elem) : List (List Elem) :=
  let k := if target = 1 then dimM else dimN
  let cs := d.coords.zip l
  (List.range (d.e k)).map fun i => (cs.filter fun (c, _) => c.getD k 0 == i).map (·.2)

/-- R200, R229: expanded elements into an operand file; the rows or columns that the tile does not have hold zeros (log 30). -/
def State.loadFile (s : State) (p : PanelId) (d : TileDesc) (target array off : Nat) (l : List Elem) : State :=
  s.updPanel p fun x =>
    let rows := (d.fileRows target l).map (packRow d.fmt)
    let put (m : List Host.Cell) := (List.range 32).foldl (fun m i =>
      Memory.writeN 0 m (16384 * array + 512 * i + off)
        (rows.getD i (List.replicate (d.rowBytes target) 0))) m
    if target = 1 then { x with fileA := put x.fileA } else { x with fileB := put x.fileB }

/-- R255: elements in transfer order copied to a plain destination tile. -/
def State.copyElems (s : State) (p : PanelId) (src : TileDesc) (f : Nat) (l : List Elem) : State :=
  s.writeStored p f (l.map fun x => leBytes (ceilDiv (fmtBits src.fmt) 8) x)

/-! ### LOADT and STORET -/

/-- R228, R275: what a LOADT does: expand into an operand file, or copy. -/
def State.loadTile (s : State) (p : PanelId) (a d target array off : Nat) : State :=
  let sd := s.pat.tile a
  if target ≠ 0 then
    let (l, s) := s.readTile p a
    s.loadFile p sd target array off l
  else if sd.isBlocked then
    let (units, s) := s.readStored p a
    s.writeStored p d units
  else
    let (l, s) := s.readTile p a
    s.copyElems p sd d l

/-- LOADT (R228, R229). -/
def execLoadt (p : PanelId) (u : List Upset) (s : State) : Result :=
  panelStep p u s fun
    | .loadt a d tg x off => some fun _ s => s.loadTile p a d tg x off
    | _ => none

/-- R294: the line is in the calibration window. -/
def State.inWindow (s : State) (q : LineSeq) : Bool := decide (q.toNat < s.pat.window)

/-- R276, R290, R291, R294, R296: plain elements encoded into a form-1 tile at the store path. -/
def State.encodeTile (s : State) (p : PanelId) (f : Nat) (l : List Elem) : State :=
  let d := s.pat.tile f
  let run := s.bodyRun p
  let (lens, sel) := s.tables.choose d.tid d.fmt (run.map (·.ref))
  let syms := (d.gather l).map fun b => b.map (symOf d.fmt)
  let blocks := syms.map fun b => encodeFixed lens sel d.budget b
  let counted := match run with
    | some r => !r.replay && s.inWindow r.ref
    | none => false
  let s := if counted then { s with tables := s.tables.count d.tid syms.flatten } else s
  let s := s.updPanel p fun x => { x with encoded := blocks.foldl (fun e (_, k) => e.modify k (satAdd 32 · 1)) x.encoded }
  s.writeStored p f (blocks.map (·.1))

/-- STORET (R228): encoding where the destination is fixed-rate, otherwise a copy. -/
def execStoret (p : PanelId) (u : List Upset) (s : State) : Result :=
  panelStep p u s fun
    | .storet a d => some fun _ s =>
      let sd := s.pat.tile a
      if sd.form = 0 ∧ (s.pat.tile d).form = 1 then
        let (l, s) := s.readTile p a
        s.encodeTile p d l
      else s.loadTile p a d 0 0 0
    | _ => none

/-! ### STREAMW, pins and fills -/

/-- R264: the pin equal to a range. -/
def State.pinOf (s : State) (lo hi : Nat) : Option PinRange :=
  s.commons.pins.find? fun q => q.lo == lo && q.hi == hi && !q.freeing

/-- The pin of a range changed. -/
def State.updPin (s : State) (lo hi : Nat) (f : PinRange → PinRange) : State :=
  { s with commons := { s.commons with
    pins := updFirst (fun q : PinRange => q.lo == lo && q.hi == hi && !q.freeing) f s.commons.pins } }

/-- R264: the commons address of byte k of a pinned range. -/
def PinRange.address (q : PinRange) (k : Nat) : Nat := 4096 * q.lines.getD (k / 4096) 0 + k % 4096

/-- The bytes of the stream lines of a pin, and the words of [a, a + n) of the range with a parity error. -/
def State.readPin (s : State) (q : PinRange) (a n : Nat) : List Byte × List Found :=
  ((List.range n).map fun i => Memory.read 0 s.commons.mem (q.address (a - q.lo + i)),
    ((List.range (n / 64)).map fun i => q.address (a - q.lo + 64 * i) / 64).filterMap fun w =>
      if (badIn s.commons.badParity (64 * w) 64).isEmpty then none else some (Found.commons w))

/-- R230: the stored bytes of each element or block of a STREAMW's source, from the stream lines on a hit and otherwise
from HBM, with what the read finds. -/
def State.streamUnits (s : State) (p : PanelId) (f : Nat) : List (List Byte) × State :=
  let d := s.pat.tile f
  let loops := s.panels[p].seq.loops
  let (lo, hi) := d.range loops
  match s.pinOf lo hi with
  | some q =>
    if q.st = .filled then
      let (bs, fs) := s.readPin q lo (hi - lo)
      let units := d.units.map fun c => let (a, n) := d.span d.base loops c; sliceB bs (a.toNat - lo) n
      let s := s.founds p fs
      (units, match q.poison with
        | (w, id) :: _ => s.markRun p id 3 [w]
        | [] => s)
    else
      let (units, fs, s) := s.readUnits p d d.base loops
      (units, s.founds p fs)
  | none =>
    let (units, fs, s) := s.readUnits p d d.base loops
    (units, s.founds p fs)

/-- The E of the instruction that a panel issued at t. -/
def State.doneOf (s : State) (p : PanelId) (t : Nat) : Nat :=
  ((s.panels[p].seq.outst.find? (·.issue == t)).map (·.done)).getD t

/-- R230, R231, R421: a tile of HBM streamed into scratch or an operand file; a miss on a pinned range starts its fill, and the
fill notes the windows whose instances it serves. -/
def State.streamTile (s : State) (p : PanelId) (t a d tg x off : Nat) : State :=
  let sd := s.pat.tile a
  let loops := s.panels[p].seq.loops
  let (lo, hi) := sd.range loops
  let (units, s) := s.streamUnits p a
  let tag := ((s.bodyRun p).bind (·.tag)).toList
  let s := s.updPin lo hi fun q =>
    match q.st with
    | .unfilled =>
      { q with st := .filling, doneAt := s.shared p (s.doneOf p t), filler := (p.val, t), readers := q.readers ++ tag }
    | .filling => { q with readers := q.readers ++ tag }
    | .filled => q
  if tg ≠ 0 then s.loadFile p sd tg x off (s.elemsOf sd sd.base loops units)
  else if sd.isBlocked then s.writeStored p d units
  else s.copyElems p sd d (s.elemsOf sd sd.base loops units)

/-- STREAMW (R230, R272): it waits while HBM is not on. -/
def execStreamw (p : PanelId) (u : List Upset) (s : State) : Result :=
  panelStep p u s fun
    | .streamw a d tg x off => if s.isOn domHbm then some fun t s => s.streamTile p t a d tg x off else none
    | _ => none

/-- R231, R264: the lowest-numbered free stream lines. -/
def State.freeLines (s : State) : List Nat :=
  s.commons.stream.filter fun l => !(s.commons.pins.any fun q => q.lines.contains l)

/-- PIN (R231). -/
def execPin (p : PanelId) (s : State) : Result :=
  panelStep p [] s fun
    | .pin a => some fun _ s =>
      let (lo, hi) := (s.pat.tile a).range s.panels[p].seq.loops
      let n := ceilDiv (hi - lo) 4096
      let ls := s.freeLines.take n
      if (s.pinOf lo hi).isSome ∨ ls.length < n then s
      else
        let q : PinRange := { lo := lo, hi := hi, lines := ls, panel := p.val }
        { s with commons := { s.commons with pins := s.commons.pins ++ [q] } }
    | _ => none

/-- R231: a pin released; one whose fill is outstanding is released when the fill completes. -/
def State.release (s : State) (lo hi : Nat) : State :=
  match s.pinOf lo hi with
  | some q =>
    if q.st = .filling then s.updPin lo hi fun q => { q with freeing := true }
    else { s with commons := { s.commons with pins := s.commons.pins.erase q } }
  | none => s

/-- FREE (R231). -/
def execFree (p : PanelId) (s : State) : Result :=
  panelStep p [] s fun
    | .free a => some fun _ s =>
      let (lo, hi) := (s.pat.tile a).range s.panels[p].seq.loops
      s.release lo hi
    | _ => none

/-- Bytes written to the stream lines of a pin from offset k of its range. -/
def State.fillLines (s : State) (q : PinRange) (k : Nat) (bs : List Byte) : State :=
  (List.range (ceilDiv bs.length 64)).foldl (fun s i =>
    s.writeCommons (q.address (k + 64 * i)) ((bs.drop (64 * i)).take 64)) s

/-- The fault ids of uncorrectable words that a fill delivers: those under repair keep theirs. -/
def State.poisonOf (s : State) (fs : List Found) : List (Nat × BitVec 32) × State :=
  fs.foldl (fun (l, s) f =>
    match f with
    | .hbm w =>
      match s.hbm.repairs.find? (·.1 == w) with
      | some (_, id) => (l ++ [(w, id)], s)
      | none => let (id, s) := State.detectHbm s w; (l ++ [(w, id)], s)
    | _ => (l, s)) ([], s)

/-- R230: of two fills, the one that ends first. -/
def PinRange.first (a b : PinRange) : PinRange := if b.doneAt < a.doneAt then b else a

/-- R230: the fill under way that ends first (log 122). -/
def State.nextFill (s : State) : Option PinRange :=
  (s.commons.pins.filter (·.st == .filling)).foldl (fun b q => some ((b.map (·.first q)).getD q)) none

/-- R421: an uncorrectable word that a fill delivers marks the instances that started or joined the fill. -/
def State.markReaders (s : State) (q : PinRange) (poison : List (Nat × BitVec 32)) : State :=
  match poison with
  | (w, id) :: _ => q.readers.foldl (fun s tag => s.markTag tag id 3 [w]) s
  | [] => s

/-- STREAM_FILL_COMPLETE (R230, R231, R421): the fill that ends first ends in the stream lines; a range freed meanwhile is
released. -/
def execStreamFillComplete (u : List Upset) (s : State) : Result :=
  match s.nextFill with
  | none => .next s
  | some q =>
    let (bs, fs, s) := (s.upsets 0 u).readHbm q.lo (q.hi - q.lo)
    let (poison, s) := s.poisonOf fs
    let s := s.markReaders q poison
    if q.freeing then .next { s with commons := { s.commons with pins := s.commons.pins.erase q } }.settle
    else
      let s := s.fillLines q 0 bs
      .next (s.updPin q.lo q.hi fun q => { q with st := .filled, poison := poison, readers := [] }).settle

/-! ### Holds (R422) -/

/-- R422: a key of a kind of hold is resolved, in the ledger and in runs not yet ended; hold code 0 is a cleared hold. -/
def clearKeys (kind : Nat) (gone : Nat → Bool) (on : Nat) (keys : List Nat) : Nat × List Nat :=
  if on ≠ kind then (on, keys)
  else
    let k := keys.filter fun x => !gone x
    (if k.isEmpty then 0 else on, k)

/-- R426: a window whose hold has cleared is replay-ready at once when the pattern has no HIST section. -/
def Window.promote (hist : Bool) (w : Window) : Window :=
  if w.st = .held ∧ w.holdOn = 0 ∧ !hist then { w with st := .replayReady } else w

/-- R422: holds of a kind whose keys meet `gone` are cleared. -/
def State.clearHolds (s : State) (kind : Nat) (gone : Nat → Bool) : State :=
  let ledger := s.look.ledger.map fun w =>
    if w.st = .held then
      let (on, keys) := clearKeys kind gone w.holdOn w.holdKeys
      ({ w with holdOn := on, holdKeys := keys } : Window).promote s.pat.hist.isSome
    else w
  let groups := s.look.groups.map fun g =>
    { g with run := g.run.map fun r =>
      if r.mark.isSome then
        let (on, keys) := clearKeys kind gone r.holdOn r.holdKeys
        { r with holdOn := on, holdKeys := keys }
      else r }
  { s with look := { s.look with ledger := ledger, groups := groups } }.wakeGroups

/-- The windows held on a key close UNEXAMINED, cause 3; those whose instances still run do so at their end (R424). -/
def State.closeHeld (s : State) (kind key : Nat) : State :=
  let s := (s.look.ledger.filter fun w => w.st == .held && w.holdOn == kind && w.holdKeys.contains key).foldl
    (fun s w => s.closeWindow w.tag 4 3 0 w.ownFlags) s
  s.mapRuns fun r =>
    if r.mark.isSome && r.holdOn == kind && r.holdKeys.contains key then { r with holdOn := 5, holdKeys := [] } else r

/-- R425: the oldest bad line of a pinned range is filled again from HBM; an uncorrectable word there waits for its repair
instead (R424), and so do the windows that waited for the line, those whose instances still run among them. -/
def State.refillLine (s : State) (q : PinRange) : State :=
  let line := q.bad.headD 0
  let i := q.lines.idxOf line
  let a := q.lo + 4096 * i
  let n := min 4096 (q.hi - a)
  let (bs, fs, s) := s.readHbm a n
  let (poison, s) := s.poisonOf fs
  let s := s.fillLines q (4096 * i) bs
  let s := s.updPin q.lo q.hi fun q => { q with bad := q.bad.filter (· != line), poison := q.poison ++ poison }
  if poison.isEmpty then s.clearHolds 2 (· == line)
  else
    let ws := poison.map (·.1)
    let ledger := s.look.ledger.map fun x =>
      if x.st = .held ∧ x.holdOn = 2 ∧ x.holdKeys.contains line then { x with holdOn := 3, holdKeys := ws } else x
    { s with look := { s.look with ledger := ledger } }.mapRuns fun r =>
      if r.mark.isSome && r.holdOn == 2 && r.holdKeys.contains line then { r with holdOn := 3, holdKeys := ws } else r

/-- STREAM_LINE_REFILL (R425): the oldest stream line with a parity error. -/
def execStreamLineRefill (s : State) : Result :=
  match s.commons.pins.find? (!·.bad.isEmpty) with
  | none => .next s
  | some q => .next (s.refillLine q).settle

/-- R424: stream lines that a word filled hold it again, whole. -/
def State.refillWord (s : State) (w : Nat) : State :=
  let s := s.commons.pins.foldl (fun s q =>
    if q.st = .filled ∧ q.lo ≤ 32 * w ∧ 32 * w < q.hi then
      s.writeCommons (q.address (32 * w - q.lo)) (Memory.readN 0 s.hbm.mem (32 * w) 32)
    else s) s
  { s with commons := { s.commons with
    pins := s.commons.pins.map fun q => { q with poison := q.poison.filter (·.1 != w) } } }

/-- R424: the votes held for repairs end with the last of them. -/
def State.dropRepairVotes (s : State) : State :=
  if s.hbm.repairs.isEmpty then s.dropVotes .repair [domFlash, domHbm] false else s

/-- HBM_REPAIR_COMPLETE (R424): the oldest word under repair holds its source bytes again, or the repair failed with FAULT
0x23. A read of the slot waits behind the flash part's polling (R105). What HBM keeps beside the error patterns is what the
slot gave it (log 29). -/
def execHbmRepairComplete (ok : Bool) (s : State) : Result :=
  match s.hbm.repairs with
  | [] => .next s
  | (w, _) :: rest =>
    if s.adm.flashWaiting then .next s
    else
    let s := { s with hbm := { s.hbm with repairs := rest } }
    if ok then
      let s := { s with
        hbm := { s.hbm with errors := s.hbm.errors.filter (·.1 != w) }
        faults := { s.faults with repairs := satAdd 32 s.faults.repairs 1 } }
      .next ((s.refillWord w).clearHolds 3 (· == w)).dropRepairVotes.settle
    else
      let (_, s) := s.detect 0x23 (s.pat.hbmRegion w) (32 * w) w
      .next (s.assertFault.closeHeld 3 w).dropRepairVotes.settle

/-! ### COMBINE (R239, R267) -/

/-- R239, R267: the partial tile goes to its staging place in the commons, and the tree notes who gave it. -/
def State.combineTile (s : State) (p : PanelId) (t a d i g tr : Nat) : State :=
  let dd := s.pat.tile d
  let loops := s.panels[p].seq.loops
  let (_, hi) := dd.range loops
  let w := s.combineWords loops d
  let (l, s) := s.readTile p a
  let s := s.writeCommons (hi + 64 * (i * w)) (l.flatMap (leBytes 4))
  let fin := s.shared p (s.panels[p].seq.transferEnd t t)
  let tag := ((s.bodyRun p).bind (·.tag)).toList
  let tree : Tree := match s.commons.trees.find? (·.id == tr) with
    | some x => { x with parts := x.parts ++ [(i, p.val, t, fin)], tags := x.tags ++ tag }
    | none => { id := tr, g := g, desc := d, staging := hi, fmt := dd.fmt, words := w,
                addrs := dd.coords.map fun c => (dd.span dd.base loops c).1.toNat,
                parts := [(i, p.val, t, fin)], tags := tag }
  let s := { s with commons := { s.commons with trees := tree :: s.commons.trees.filter (·.id != tr) } }
  s.refreshMoves

/-- COMBINE (R239). -/
def execCombine (p : PanelId) (u : List Upset) (s : State) : Result :=
  panelStep p u s fun
    | .combine a d i g tr => some fun t s => s.combineTile p t a d i g tr
    | _ => none

/-- R239: one addition of the tree on the words of two contributions. -/
def treeAdd (fmt : Nat) (a b : List F32) : List F32 :=
  (a.zip b).map fun (x, y) =>
    if fmt = fmtFP32 then fadd x y else BitVec.ofInt 32 (sat32 (x.toInt + y.toInt))

/-- Bytes as 32-bit words. -/
def words32 (n : Nat) (b : List Byte) : List F32 := (List.range n).map fun i => BitVec.ofNat 32 (uAt b (4 * i) 4)

/-- R239, R267: the staged contributions of a tree added in the fixed order; the result tile is written once. A parity error in
the staging marks every contributing instance (R421, R438). -/
def State.reduceTree (s : State) (t : Tree) : State :=
  let n := t.words * 64
  let parts := (List.range t.g).map fun c => words32 t.addrs.length (s.readCommons (t.staging + c * n) n).1
  let fs := (s.readCommons t.staging (t.g * n)).2
  let res := (pairTree (treeAdd t.fmt) (treeLevels t.g) parts).headD []
  let ordinal := ((t.tags.head?.bind s.groupOfTag).bind fun g => (s.groupRun g).map (·.ordinal)).getD 0xFFFFFFFF
  let s := fs.foldl (fun s f => match f with
    | .commons w =>
      let (id, s) := s.detectCommons w ordinal
      t.tags.foldl (fun s tag => s.markTag tag id 0 []) s
    | _ => s) s
  let s := (t.addrs.zip res).foldl (fun s (a, x) => s.writeCommons a (leBytes 4 x.toNat)) s
  { s with commons := { s.commons with trees := s.commons.trees.filter (·.id != t.id) } }

/-- COMBINE_TREE_COMPLETE (R239): the tree has all its contributions. -/
def execCombineTreeComplete (tree : Fin 16) (s : State) : Result :=
  match s.commons.trees.find? fun t => t.id == tree.val && decide (t.g ≤ t.parts.length) with
  | none => .next s
  | some t => .next (s.reduceTree t).settle

end Sys2Proof.Machine
end

