-- ==== Sys2Proof/Machine/History.lean ====
section
/-! DEFINITION. The periodic-defect history: segments, seals, views, and the messages that carry segments across
seams (R297 to R299, R320 to R323, R408 to R411, R426, R437). -/

namespace Sys2Proof.Machine

/-! ### Numbering (R320, R321) -/

/-- R320: revolution and segment index of a position. -/
def Hist.segmentOf (h : Hist) (q : Nat) : Nat × Nat := (q / h.cRoll, q % h.cRoll / h.lSeg)

/-- R320: where segment (r, j) starts; r below 0 names a revolution before the numbering began. -/
def Hist.startOf (h : Hist) (r : Int) (j : Nat) : Pos := BitVec.ofInt 48 (r * h.cRoll + (j * h.lSeg : Nat))

/-- R320: the start of the segment of a position. -/
def Hist.startAt (h : Hist) (q : Pos) : Pos := let (r, j) := h.segmentOf q.toNat; h.startOf r j

/-- R130, R317: the slot entries of the schedule in force. -/
def State.slotsInForce (s : State) : List SlotEntry :=
  s.pat.dlin.slots.filter fun e => bitAt e.flags 0 == s.power.degraded

/-- R24: the arming allowance A. -/
def State.armingAllowance (s : State) : Nat := countsIn s.pat.dlin.cMax 4000 + 2

/-- R321: a segment's seal, L_seg + D_max + A past its start. -/
def State.sealOffset (s : State) (h : Hist) : Nat :=
  h.lSeg + (s.slotsInForce.map (·.deadline)).foldl max 0 + s.armingAllowance
def State.sealAt (s : State) (h : Hist) (start : Pos) : Pos := start + BitVec.ofNat 48 (s.sealOffset h)

/-- R321: a segment's expiry, K revolutions past its start. -/
def Hist.expiryOf (h : Hist) (start : Pos) : Pos := start + BitVec.ofNat 48 (h.revs * h.cRoll)

/-- R14: position a has reached b. -/
def reached (a b : Pos) : Bool := decide (0 ≤ posDiff b a)

/-- R322, R399: a segment of a side that starts before the position at READY, or for the local store at its last restart, comes
from the image. -/
def State.fromImage (s : State) (side : Nat) (start : Pos) : Bool :=
  decide (0 < posDiff start (if side = 0 then s.history.restart else s.history.readyPos))

/-! ### Stored segments (R297 to R299) -/

/-- R126: the TABL id of the history table (R298). -/
def histTid : Nat := 0xFFFFFFFF

/-- R321: an element list of z. -/
def Hist.zeros (h : Hist) : List Nat := List.replicate h.elements (symBack h.fmt (zeroSym h.fmt))

/-- R297: elements padded with z to whole blocks, as symbols. -/
def Hist.symbols (h : Hist) (el : List Nat) : List Nat :=
  let n := 64 * ceilDiv h.elements 64
  (el.map (symOf h.fmt) ++ List.replicate (n - el.length) (zeroSym h.fmt)).take n

/-- A list in pieces of 64. -/
def pieces64 {α : Type} : Nat → List α → List (List α)
  | 0, _ => []
  | n + 1, l => l.take 64 :: pieces64 n (l.drop 64)

/-- R298: the table that a segment's position selects. -/
def State.histTable (s : State) (h : Hist) (start : Pos) : List Nat × Bool :=
  match s.tables.find histTid with
  | none => (defaultLens h.fmt, false)
  | some c =>
    let late := match s.tables.ps with
      | some ps => reached start ps
      | none => false
    if c.shipped || (c.frozen && !c.keptDefault && late) then (c.lens, true) else (defaultLens h.fmt, false)

/-- R297: a segment's stored blocks. -/
def State.encodeSegment (s : State) (h : Hist) (start : Pos) (el : List Nat) : List Byte :=
  let (lens, sel) := s.histTable h start
  (pieces64 (ceilDiv h.elements 64) (h.symbols el)).flatMap fun b => (encodeFixed lens sel h.budget b).1

/-- R292: the elements of stored blocks. -/
def State.decodeSegment (s : State) (h : Hist) (b : List Byte) : List Nat :=
  let own := s.tables.own histTid
  ((List.range (ceilDiv h.elements 64)).flatMap fun i =>
    (decodeFixed own h.fmt h.budget (sliceB b (8 * h.budget * i) (8 * h.budget))).map (symBack h.fmt)).take h.elements

/-- R322: the stored blocks of a place that reads as z. -/
def Hist.zeroPlace (h : Hist) : List Byte :=
  (pieces64 (ceilDiv h.elements 64) (h.symbols [])).flatMap fun b =>
    (encodeFixed (defaultLens h.fmt) false h.budget b).1

/-- R322: the place of segment j in the initial image, z where the image has none. -/
def Hist.imagePlace (h : Hist) (j : Nat) : List Byte :=
  if h.image.isEmpty then h.zeroPlace else sliceB h.image (j * h.place) h.place

/-- A segment held, of a side: 0 local, 1 west, 2 east. -/
def State.segment (s : State) (side : Nat) (start : Pos) : Option Segment :=
  s.history.segs.find? fun x => x.side == side && x.start == start

/-- The segments changed. -/
def State.setSegs (s : State) (f : List Segment → List Segment) : State :=
  { s with history := { s.history with segs := f s.history.segs } }

/-- One segment put in place of what was held for it. -/
def State.putSegment (s : State) (x : Segment) : State :=
  s.setSegs fun l => x :: l.filter fun y => !(y.side == x.side && y.start == x.start)

/-! ### Contributions (R321) -/

/-- R321: the elementwise maximum of two elements. -/
def maxElem (fmt a b : Nat) : Nat :=
  let x := decodeBits fmt a
  let y := decodeBits fmt b
  if fmtInt fmt then (if x.lt y then b else a) else encodeBits fmt false (fval (fmax (fround x) (fround y)))

/-- R321, R344: a contribution merged into the segment of p_e, or discarded at or after the seal; a segment once sealed stays
sealed though the web runs back. -/
def State.contribute (s : State) (pe : Pos) (c : List Byte) : State :=
  match s.pat.hist with
  | none => s
  | some h =>
    let start := h.startAt pe
    if reached s.position (s.sealAt h start) || ((s.segment 0 start).map (·.sealed_)).getD false then
      { s with history := { s.history with discarded := satAdd 32 s.history.discarded 1 } }
    else
      let old : List Nat := match s.segment 0 start with
        | some x => x.merged.map BitVec.toNat
        | none => h.zeros
      let new := (old.zip c).map fun (a, b) => BitVec.ofNat 8 (maxElem h.fmt a (BitVec.toNat b))
      s.putSegment { start := start, merged := new, expiry := h.expiryOf start }

/-! ### Seal, expiry and drop -/

/-- The sides that a HIST message goes to: declared, and the link in the bolt. -/
def State.histSides (s : State) : List (Fin 2) :=
  if s.inBolt then [0, 1].filter fun (side : Fin 2) => s.sideDeclared side && s.linkIn (sidePort side) else []

/-- R408: a reply's payload. -/
def replyPayload (start stamp : Pos) (push : Bool) (el : List Nat) : List Byte :=
  leBytes 6 start.toNat ++ leBytes 6 stamp.toNat ++ leBytes 2 el.length ++ leBytes 1 (bit push) ++ leBytes 1 0
    ++ el.map (BitVec.ofNat 8)

/-- R409: a sealed segment pushed to the neighbours. -/
def State.pushSegment (s : State) (start : Pos) (el : List Nat) : State :=
  s.histSides.foldl (fun s side =>
    s.queueOn (sidePort side) vcHist 0x31 (s.sideAddress side) s.address (replyPayload start 0 true el) none none) s

/-- R298: the segment's position lies within the calibration window's stamps. -/
def State.countsSegment (s : State) (start : Pos) : Bool :=
  match s.tables.firstStamp with
  | none => false
  | some a => reached start a && match s.tables.lastStamp with
    | some b => reached b start
    | none => true

/-- R297, R298, R321, R409: a segment's elements, z where it has no contribution, are counted, encoded, stored and pushed. -/
def State.sealSegment (s : State) (h : Hist) (start : Pos) : State :=
  let el : List Nat := match s.segment 0 start with
    | some x => x.merged.map BitVec.toNat
    | none => h.zeros
  let b := s.encodeSegment h start el
  let s := if s.countsSegment start then { s with tables := s.tables.count histTid (h.symbols el) } else s
  let s := s.putSegment { start := start, sealed_ := true, stored := b, expiry := h.expiryOf start }
  s.pushSegment start (s.decodeSegment h b)

/-- SEGMENT_SEAL (R321): at the seal of a segment. With position lost none is sealed. -/
def execSegmentSeal (start : Pos) (s : State) : Result :=
  match s.pat.hist with
  | none => .next s
  | some h =>
    let sl := s.sealAt h start
    let held := ((s.segment 0 start).map (·.sealed_)).getD false
    when (s.running && !s.web.lost && h.startAt start == start && reached s.position sl &&
        !reached s.history.restart sl && !held && !reached s.position (h.expiryOf start)) s fun s => s.sealSegment h start

/-- R410: eviction notices to the neighbours. -/
def State.sendNotices (s : State) (x : Segment) : State :=
  s.histSides.foldl (fun s side =>
    s.queueOn (sidePort side) vcHist 0x33 (s.sideAddress side) s.address
      (leBytes 6 x.start.toNat ++ leBytes 6 x.expiry.toNat) none none) s

/-- SEGMENT_EXPIRY (R321, R409, R410): copies that have reached their expiry go; the home sends its notices once. -/
def execSegmentExpiry (start : Pos) (s : State) : Result :=
  let s := s.setSegs fun l => l.filter fun x => !(x.side != 0 && x.start == start && reached s.position x.expiry)
  match s.segment 0 start with
  | some x =>
    when (s.running && x.sealed_ && !x.noticed && reached s.position x.expiry) s fun s =>
      (s.putSegment { x with noticed := true }).sendNotices x
  | none => .next s

/-- HOME_SEGMENT_DROP (R410): at expiry + G the home drops the segment. -/
def execHomeSegmentDrop (start : Pos) (s : State) : Result :=
  match s.segment 0 start with
  | some x =>
    when (s.running && reached s.position (x.expiry + BitVec.ofNat 48 (s.graceAt s.position))) s fun s =>
      s.setSegs fun l => l.filter fun y => !(y.side == 0 && y.start == start)
  | none => .next s

/-! ### Messages (R408 to R410) -/

/-- R398: a device in the bolt accepts messages of a port whose link is in the bolt. -/
def State.inBoltOn (s : State) (q : SeamId) : Bool := s.inBolt && s.linkIn q

/-- R320: the index of the segment that starts at a position, which may lie behind the position 0. -/
def Hist.indexOf (h : Hist) (start : Pos) : Nat := (start.toInt % (max 1 h.cRoll : Nat)).toNat / max 1 h.lSeg

/-- R322, R410: the stored blocks of a segment that the home serves: a sealed one, or from before READY the image's place,
until its expiry + G (log 127). -/
def State.homeBlocks (s : State) (h : Hist) (start : Pos) : Option (List Byte) :=
  match s.segment 0 start with
  | some x => if x.sealed_ && !x.absent then some x.stored else none
  | none =>
    if s.fromImage 0 start && !reached s.position (h.expiryOf start + BitVec.ofNat 48 (s.graceAt s.position)) then
      some (h.imagePlace (h.indexOf start))
    else none

/-- The number of a neighbour's side among the segments. -/
def portSegs (q : SeamId) : Option Nat := (portSide q).map fun x => x.val + 1

/-- SEGMENT_REPLY (R409): a reply or push is kept as that side's copy, unless its expiry is reached or it is held. -/
def execSegmentReply (q : SeamId) (s : State) : Result :=
  match s.takeMessage q vcHist 0x31, s.pat.hist, portSegs q with
  | some (m, s), some h, some side =>
    let start : Pos := BitVec.ofNat 48 (uAt m.payload 0 6)
    let n := uAt m.payload 0x0C 2
    let el := (sliceB m.payload 0x10 n).map (·.toNat)
    when (s.inBoltOn q && !reached s.position (h.expiryOf start) && (s.segment side start).isNone) s fun s =>
      s.putSegment { start := start, side := side, sealed_ := true, stored := s.encodeSegment h start el,
                     expiry := h.expiryOf start }
  | some (_, s), _, _ => .next s
  | none, _, _ => .next s

/-- GONE (R410): the place of that side is absent. -/
def execGone (q : SeamId) (s : State) : Result :=
  match s.takeMessage q vcHist 0x32, s.pat.hist, portSegs q with
  | some (m, s), some h, some side =>
    let start : Pos := BitVec.ofNat 48 (uAt m.payload 0 6)
    when (s.inBoltOn q && (s.segment side start).isNone) s fun s =>
      s.putSegment { start := start, side := side, absent := true, expiry := h.expiryOf start }
  | some (_, s), _, _ => .next s
  | none, _, _ => .next s

/-- EVICTION_NOTICE (R410): the copy's expiry as the home says it. -/
def execEvictionNotice (q : SeamId) (s : State) : Result :=
  match s.takeMessage q vcHist 0x33, portSegs q with
  | some (m, s), some side =>
    let start : Pos := BitVec.ofNat 48 (uAt m.payload 0 6)
    when (s.inBoltOn q) s fun s =>
      s.setSegs fun l => updFirst (fun x : Segment => x.side == side && x.start == start)
        (fun x => { x with expiry := BitVec.ofNat 48 (uAt m.payload 6 6) }) l
  | some (_, s), none => .next s
  | none, _ => .next s

/-- R410: the segments of a side that the device lacks: seal + G behind its position, expiry ahead of it, from before READY
too. -/
def State.lacking (s : State) (h : Hist) (side : Nat) : List Pos :=
  let (r, _) := h.segmentOf s.position.toNat
  let g := BitVec.ofNat 48 (s.graceAt s.position)
  ((List.range (h.revs + 1)).flatMap fun i => (List.range h.segPerRev).map fun j =>
    h.startOf ((r : Int) - (h.revs - i : Nat)) j).filter fun a =>
      reached s.position (s.sealAt h a + g) && !reached s.position (h.expiryOf a) && (s.segment side a).isNone

/-- R410: reads of the segments lacking on a side, stamped with the position. -/
def State.readHistory (s : State) (side : Fin 2) : State :=
  match s.pat.hist with
  | none => s
  | some h =>
    if s.histSides.contains side then
      (s.lacking h (side.val + 1)).foldl (fun s a =>
        s.queueOn (sidePort side) vcHist 0x30 (s.sideAddress side) s.address
          (leBytes 6 a.toNat ++ leBytes 6 s.position.toNat) none none) s
    else s

/-! ### Views (R322, R323, R426, R437) -/

/-- A place of a view: side, segment start, segment index and whether R322 includes it. -/
structure ViewPlace where
  side : Nat := 0
  start : Pos := 0
  j : Nat := 0
  included : Bool := false
  deriving DecidableEq, Repr, Inhabited

/-- R322: the places of a window's view, in order. -/
def State.viewPlaces (s : State) (h : Hist) (w : Window) : List ViewPlace :=
  let (r, j) := h.segmentOf w.pe.toNat
  (List.range (h.revs - 1)).flatMap fun i =>
    let a := h.startOf ((r : Int) - (i + 1 : Nat)) j
    let sl := s.sealAt h a
    let near (side : Fin 2) : ViewPlace :=
      { side := side.val + 1, start := a, j := j,
        included := s.sideDeclared side && reached w.pe (sl + BitVec.ofNat 48 w.grace) }
    [near 0, { side := 0, start := a, j := j, included := reached w.pe sl }, near 1]

/-- R322, R437: the stored blocks of a place, and whether a neighbour place that is included has not arrived. A segment from
before READY comes from the image whatever is held for it, unless a fault has struck it. -/
def State.placeBytes (s : State) (h : Hist) (v : ViewPlace) : List Byte × Bool :=
  if !v.included then (h.zeroPlace, false)
  else
    let held := s.segment v.side v.start
    if s.fromImage v.side v.start && !(held.any (·.damaged)) then (h.imagePlace v.j, false)
    else match held with
      | some x => (if x.absent || !x.sealed_ then h.zeroPlace else x.stored, false)
      | none => (h.zeroPlace, v.side != 0)

/-- R271: the bits of a 256-bit word that its stored errors and the upsets of a fill leave wrong. -/
def State.wordErrors (s : State) (l : List Upset) (w : Nat) : BitVec 256 :=
  (l.filter fun u => u.store == .hbm && u.addr / 32 == w).foldl
    (fun e u => e ^^^ ((u.flip.setWidth 256 : BitVec 256) <<< (8 * (u.addr % 32))))
    (((s.hbm.errors.find? (·.1 == w)).map (·.2)).getD 0)

/-- What becomes of a word that a fill reads: good, detected as bad, or delivered as other bytes. -/
inductive WordFate where
  | good
  | bad
  | other (bytes : List Byte)
  deriving DecidableEq, Repr, Inhabited

/-- R271: a 256-bit word of good bytes that a fill reads with an error pattern. Three or more wrong bits end as the free values
say (log 10, 11). -/
def State.hbmFate (s : State) (good : List Byte) (e : BitVec 256) : WordFate × State :=
  let raw := leBytes 32 ((BitVec.ofNat 256 (leNat good)) ^^^ e).toNat
  let corrected (s : State) : State := { s with hbm := { s.hbm with corrected := satAdd 32 s.hbm.corrected 1 } }
  match ones256 e with
  | 0 => (.good, s)
  | 1 => (.good, corrected s)
  | 2 => (.bad, s)
  | _ =>
    let (n, s) := s.takeFree
    match Config.eccOutcome n with
    | 0 => (.other raw, s)
    | 1 => (.other ((List.range 32).map fun i => Config.freeByte (32 * n + i)), corrected s)
    | _ => (.bad, s)

/-- R262: a byte of the commons that a fill reads with the flips of its upsets: parity detects an odd number. -/
def commonsFate (good : List Byte) (l : List Upset) (w : Nat) : WordFate :=
  let us := l.filter fun u => u.store == .commons && u.addr / 64 == w
  let flips (a : Nat) : Byte := (us.filter (·.addr == a)).foldl (fun b u => b ^^^ u.flip) 0
  let fs := (List.range 64).map fun i => flips (64 * w + i)
  if fs.all (· == 0) then .good
  else if fs.any fun f => ones f % 2 == 1 then .bad
  else .other ((good.zip fs).map fun (a, b) => a ^^^ b)

/-- The stored blocks of the places of a view, laid end to end, with n bytes from an offset replaced. -/
def spliceB (bs : List Byte) (off : Nat) (new : List Byte) : List Byte :=
  bs.take off ++ (new.take (bs.length - off)) ++ bs.drop (off + new.length)

/-- R437: the places that a word of `len` bytes at offset `off` of the stored places touches. -/
def placesOfWord (h : Hist) (off len : Nat) : List Nat :=
  (List.range ((off + len - 1) / max 1 h.place + 1 - off / max 1 h.place)).map (off / max 1 h.place + ·)

/-- R437: the places of a view that a bad word strikes: each is absent from then on and its fault is recorded. The word is not
read for them again. -/
def State.strike (s : State) (h : Hist) (ps : List ViewPlace) (f : Found) (ks : List Nat) : State :=
  let hit := ks.filterMap fun k => ps[k]?
  if hit.all (!·.included) then s
  else
    let s := match f with
      | .commons w => (s.detectCommons w 0xFFFFFFFF).2.cleanCommons (64 * w) 64
      | .hbm w =>
        let s := (s.detectHbm w).2
        { s with hbm := { s.hbm with errors := s.hbm.errors.filter (·.1 != w) } }
      | .scratch _ _ => s
    (hit.filter (·.included)).foldl (fun s v => s.putSegment
      { start := v.start, side := v.side, sealed_ := true, absent := true, damaged := true
        expiry := h.expiryOf v.start }) s

/-- R262, R271, R437: the words of the history stores that upsets or stored errors strike as a fill reads the places `bs`,
which lie end to end from the start of the history area, or of the HBM region (log 32): the bytes as delivered. -/
def State.fillDamage (s : State) (h : Hist) (ps : List ViewPlace) (l : List Upset) (bs : List Byte) :
    List Byte × State :=
  let area := 4096 * (2048 - s.pat.historyLines)
  let hbm := s.pat.historyBase
  let cw := ascending ((l.filter fun u => u.store == .commons && decide (area ≤ u.addr)).map (·.addr / 64)
    ++ (s.commons.badParity.filter fun a => decide (area ≤ a ∧ a < area + bs.length)).map (· / 64))
  let hw := ascending ((l.filter fun u => u.store == .hbm && decide (hbm ≤ u.addr)).map (·.addr / 32)
    ++ (s.hbm.errors.filter fun x => decide (hbm ≤ 32 * x.1 ∧ 32 * x.1 < hbm + bs.length)).map (·.1))
  let (bs, s) := cw.foldl (fun (bs, s) w =>
    let off := 64 * w - area
    let stale := !(badIn s.commons.badParity (64 * w) 64).isEmpty
    match if stale then .bad else commonsFate (sliceB bs off 64) l w with
    | .good => (bs, s)
    | .bad => (bs, State.strike s h ps (.commons w) (placesOfWord h off 64))
    | .other new => (spliceB bs off new, s)) (bs, s)
  hw.foldl (fun (bs, s) w =>
    let off := 32 * w - hbm
    let (fate, s) := State.hbmFate s (sliceB bs off 32) (s.wordErrors l w)
    match fate with
    | .good => (bs, s)
    | .bad => (bs, State.strike s h ps (.hbm w) (placesOfWord h off 32))
    | .other new => (spliceB bs off new, s)) (bs, s)

/-- R323: a view entry of the ring written. -/
def State.writeView (s : State) (h : Hist) (w : Window) (places : List (List Byte)) : State :=
  s.writeCommons (s.viewEntry w.ordinal)
    (places.flatten ++ List.replicate (h.viewStride - h.viewBytes) 0)

/-- R437: a place of a view is included and a fault has made it absent. -/
def State.placeDamaged (s : State) (v : ViewPlace) : Bool :=
  v.included && ((s.segment v.side v.start).map (·.damaged)).getD false

/-- R262, R410, R437: the stored blocks of a segment as the home reads them for a neighbour, checked as a fill's are (log 32);
none when a fault has struck them. -/
def State.readHome (s : State) (h : Hist) (start : Pos) (b : List Byte) : Option (List Byte) × State :=
  let v : ViewPlace := { start := start, included := true }
  let (bs, s) := s.fillDamage h [v] [] b
  (if s.placeDamaged v then none else some bs, s)

/-- R410: the answer to a read of a segment that the home has: the reply, or GONE for a read stamped at or ahead of the
expiry, or of a segment that a fault has struck. -/
def State.answerRead (s : State) (h : Hist) (q : SeamId) (m : Message) (start stamp : Pos) (b : List Byte) : State :=
  let gone (s : State) : State := s.queueOn q vcHist 0x32 m.source s.address (m.payload.take 12) none none
  if reached stamp (h.expiryOf start) then gone s
  else
    match s.readHome h start b with
    | (some b, s) =>
      s.queueOn q vcHist 0x31 m.source s.address (replyPayload start stamp false (s.decodeSegment h b)) none none
    | (none, s) => gone s

/-- SEGMENT_READ (R410): the reply, or GONE. -/
def execSegmentRead (q : SeamId) (s : State) : Result :=
  match s.takeMessage q vcHist 0x30, s.pat.hist with
  | some (m, s), some h =>
    when (s.inBoltOn q) s fun s =>
      let start : Pos := BitVec.ofNat 48 (uAt m.payload 0 6)
      let stamp : Pos := BitVec.ofNat 48 (uAt m.payload 6 6)
      (match s.homeBlocks h start with
      | some b => s.answerRead h q m start stamp b
      | none => s.queueOn q vcHist 0x32 m.source s.address (m.payload.take 12) none none).settle
  | some (_, s), none => .next s
  | none, _ => .next s

/-- R323, R426, R437: the view of a window filled: its entry, the neighbour copies included, damage and missing places. A
replay finds missing what the first run found missing (R428). -/
def State.fillView (s : State) (h : Hist) (w : Window) (u : List Upset) : Window × State :=
  let ps := s.viewPlaces h w
  let got := ps.map (s.placeBytes h)
  let first := w.st == .waiting
  let missing := if first then (got.zipIdx.filter (·.1.2)).map (·.2) else w.missing
  let bytes := got.zipIdx.map fun (x, i) => if missing.contains i then h.zeroPlace else x.1
  let (bs, s) := s.fillDamage h ps u bytes.flatten
  let damaged := ps.map s.placeDamaged
  let s := s.writeView h w ((List.range ps.length).map fun i =>
    if damaged.getD i false then h.zeroPlace else sliceB bs (i * h.place) h.place)
  let places := (ps.filter fun v => v.side != 0 && v.included &&
    ((s.segment v.side v.start).map fun x => !x.absent).getD false).map fun v => (v.side, v.start)
  ({ w with
    st := if first then .ready else .replayReady
    places := if first then places else w.places
    viewDamaged := w.viewDamaged || damaged.any id
    missing := missing }, s)

/-- R426: a held window cannot have its view again: its entry belongs to a later window, or an included neighbour place
has been dropped. -/
def State.refillLost (s : State) (w : Window) : Bool :=
  decide (w.ordinal + s.pat.dlin.density < s.look.nextOrdinal) ||
    w.places.any fun (side, a) => (s.segment side a).isNone

/-- VIEW_FILL_COMPLETE (R323, R426): a waiting window becomes ready; a held one whose hold has cleared becomes replay-ready,
or closes with cause 3. -/
def execViewFillComplete (tag : Tag) (u : List Upset) (s : State) : Result :=
  match s.look.ledger.find? (·.tag == tag), s.pat.hist with
  | some w, some h =>
    if w.st == .held && (w.holdOn == 0 || w.holdKeys.isEmpty) && s.refillLost w then
      .next (s.closeWindow tag 4 3 0 w.ownFlags).settle
    else if w.st == .waiting || (w.st == .held && (w.holdOn == 0 || w.holdKeys.isEmpty)) then
      let (w', s) := s.fillView h w u
      .next ({ s with look := { s.look with
        ledger := updFirst (fun x : Window => x.tag == tag) (fun _ => w') s.look.ledger } }.wakeGroups).settle
    else .next s
  | _, _ => .next s

end Sys2Proof.Machine
end

