-- ==== Sys2Proof/Machine/Web.lean ====
section
/-! DEFINITION. The moving web: encoder edges, the cross-check, index pulses, rate windows, stop and restart
(R9 to R31). -/

namespace Sys2Proof.Machine

/-- R9: the place of a state (A, B) in the forward cycle of "A leads B": 00, 10, 11, 01. -/
def quadPlace (a b : Bool) : Nat :=
  match a, b with
  | false, false => 0 | true, false => 1 | true, true => 2 | false, true => 3

/-- R9, R10: what a transition is: no change, illegal, or a legal edge with its direction. -/
inductive Quad where
  | same | illegal | legal (forward : Bool)
  deriving DecidableEq, Repr

/-- Table: quadrature states and transitions. -/
def quadStep (bLeads a b a' b' : Bool) : Quad :=
  match (quadPlace a' b' + 4 - quadPlace a b) % 4 with
  | 0 => .same
  | 1 => .legal (!bLeads)
  | 2 => .illegal
  | _ => .legal bLeads

/-- R9: one count in a direction, modulo 2⁴⁸. -/
def countStep (c : Pos) (forward : Bool) : Pos := if forward then c + 1 else c - 1

/-- R20, R28: a counting edge at the present instant. -/
def EdgeClock.note (e : EdgeClock) (forward : Bool) (clock wall : Nat) : EdgeClock :=
  { last := some clock, prev := e.last, forward := forward, lastWall := wall }

/-- R31, R346: the pending fires whose target the position has reached going forward fall due. -/
def Markers.reach (m : Markers) (pos : Pos) : Markers :=
  { m with fires := m.fires.map fun f =>
    if f.stage == .pending && f.target == pos then { f with stage := .due } else f }

/-- R18, R26, R30, R31, R389: what a count of the position brings about, the position having moved. -/
def State.countEvent (s : State) (forward : Bool) : State :=
  let s := { s with web := { s.web with travel := s.web.travel + 1 }, bolt := { s.bolt with moved := true } }
  let s := if forward then { s with markers := s.markers.reach s.position } else s
  if s.running then
    let w := s.web
    { s with web := { w with
      rateEdges := w.rateEdges + 1
      rateSigned := w.rateSigned + (if forward then 1 else -1)
      highWater := if forward && decide (0 < posDiff w.highWater s.position) then s.position
        else w.highWater } }
  else s

/-- R9, R393: a legal edge of a decoder. On the source of a device with local position a swallowed forward edge is
no count, and an edge after which a step may be inserted is noted. A swallowed edge is no counting edge for the stop
interval, the travel, the rates and the stamp timer (log 105). -/
def State.legalEdge (s : State) (d : DecId) (forward : Bool) : State :=
  let s := { s with web := { s.web with enc := Vector.upd s.web.enc d fun e =>
    { e with count := countStep e.count forward } } }
  if d == s.source && !s.tickFed && forward && s.bolt.swallow then
    { s with bolt := { s.bolt with swallow := false, beta := s.bolt.beta - 1 } }
  else
    let s := { s with web := { s.web with enc := Vector.upd s.web.enc d fun e =>
      { e with edges := e.edges.note forward s.clock s.time.wall } } }
    if d == s.source && !s.tickFed then
      let s := { s with bolt := { s.bolt with
        insertDue := forward && decide (s.bolt.kappa ≤ -256)
        sinceStep := if forward then s.bolt.sinceStep + 1 else s.bolt.sinceStep } }
      s.countEvent forward
    else s

/-- R12: both A and B changed. -/
def State.illegalEdge (s : State) (d : DecId) : State :=
  let s := { s with web := { s.web with enc := Vector.upd s.web.enc d fun e =>
    { e with illegal := if e.illegal == 0xFFFF#16 then e.illegal else e.illegal + 1 } } }
  let s := s.addUncertainty d 2
  if d == s.source then s.checkSlip else s

/-- R11: a pulse of a pin shorter than this many ns is rejected. -/
def pulseNs : Nat := 5

/-- R11: the level that a decoder takes from a pin that was at an old one: a new level kept for less than 5 ns is a pulse,
which it rejects (log 107). -/
def takenLevel (old : Bool) (p : PinLevel) : Bool := if p.heldNs < pulseNs then old else p.high

/-- ENCODER_EDGE (R9 to R13): the decoder takes its new state; while PORST_N holds the counters at zero it counts
nothing. -/
def execEncoderEdge (d : DecId) (pa pb : PinLevel) (s : State) : Result :=
  let e := s.web.enc[d]
  let a := takenLevel e.a pa
  let b := takenLevel e.b pb
  if a == e.a && b == e.b then .next s
  else
  let q := quadStep s.web.bLeads e.a e.b a b
  let s := { s with web := { s.web with enc := Vector.upd s.web.enc d fun e => { e with a := a, b := b } } }
  if !s.pins.porstN then .next s
  else
    match q with
    | .same => .next s
    | .legal f => .next (s.legalEdge d f).settle
    | .illegal => .next (s.illegalEdge d).settle

/-- R16: the other decoder. -/
def State.other (s : State) : DecId := if s.source == 0 then 1 else 0

/-- R16: the difference between the other decoder's movement and the expected one. -/
def State.spanDifference (s : State) : Int :=
  posDiff s.web.spanOther s.web.enc[s.other].count
    - rne (posDiff s.web.spanSource s.sourceCounter * s.pat.intk.k) 256

/-- CROSS_CHECK_SPAN (R16): the check at the end of a span of 65,536 counts; the unit identifier is the other decoder
(log 17). -/
def execCrossCheckSpan (s : State) : Result :=
  when (s.running && s.pat.intk.other == 1 &&
      decide (65536 ≤ (posDiff s.web.spanSource s.sourceCounter).natAbs)) s fun s =>
    let d := s.spanDifference
    let t := s.pat.intk.tol
    let s := { s with web := { s.web with
      spanSource := s.sourceCounter, spanOther := s.web.enc[s.other].count } }
    if decide ((t : Int) < d.natAbs) then
      let s := s.addUncertainty s.source d.natAbs
      let s := s.faultRecord 1 s.other.val
        (unsigned 32 (clampInt (-2 ^ 31) (2 ^ 31 - 1) d) + 2 ^ 32 * (t % 2 ^ 32))
      s.checkSlip.settle
    else s

/-- R17: INTK's counts per revolution of a decoder; 0 when no pattern runs. -/
def State.perRevolution (s : State) (d : DecId) : Nat :=
  if !s.sinceReady then 0 else if d == 0 then s.pat.intk.n0 else s.pat.intk.n1

/-- R17: a latched index pulse. -/
def State.latchIndex (s : State) (d : DecId) : State :=
  let e := s.web.enc[d]
  let n := s.perRevolution d
  let dev : Int := (posDiff e.lastIndex e.count).natAbs - (n : Int)
  let s := { s with web := { s.web with enc := Vector.upd s.web.enc d fun e =>
    { e with lastIndex := e.count, indexSeen := true } } }
  if n ≠ 0 ∧ e.indexSeen ∧ 2 < dev.natAbs then
    let s := s.addUncertainty d dev.natAbs
    let s := s.faultRecord 2 d.val (unsigned 32 (clampInt (-2 ^ 31) (2 ^ 31 - 1) dev))
    if d == s.source then s.checkSlip else s
  else s

/-- INDEX_PULSE (R11, R17): a pulse below 5 ns is rejected; from 5 ns to 50 ns whether it is latched is free. -/
def execIndexPulse (d : DecId) (widthNs : Nat) (s : State) : Result :=
  if widthNs < pulseNs || !s.pins.porstN then .next s
  else if widthNs < 50 then
    let (n, s) := s.takeFree
    .next (if Config.shortPulse n then (s.latchIndex d).settle else s)
  else .next (s.latchIndex d).settle

/-- R26: the windows' counters start again 1 ms later. -/
def Web.nextWindow (w : Web) : Web :=
  { w with
    rateStart := w.rateStart + msPs, rateEdges := 0, rateSigned := 0, rateLines := 0,
    lastRate := clampInt (-2 ^ 31) (2 ^ 31 - 1) (w.rateSigned * 1000) }

/-- R26: the STATUS records that a window over a limit forms, each once in an episode. -/
def State.overRate (s : State) (counts lines : Nat) (overC overL : Bool) : State :=
  let first := !s.web.episode
  let seenC := !first && s.web.overspeedSeen
  let seenL := !first && s.web.lineOverSeen
  let s := { s with
    pins := { s.pins with riskRate := true }
    web := { s.web with
      episode := true, goodWindows := 0,
      overspeedSeen := seenC || overC, lineOverSeen := seenL || overL } }
  let p := bodyAt 0x10 48 s.position.toNat
  let s := if overC && !seenC then s.status 2 0 (p ||| bodyAt 0x18 32 counts) else s
  if overL && !seenL then s.status 3 0 (p ||| bodyAt 0x18 32 lines) else s

/-- RATE_WINDOW (R26): the end of a 1 ms window. -/
def execRateWindow (s : State) : Result :=
  when (s.running && decide (s.web.rateStart + msPs ≤ s.time.wall)) s fun s =>
    let c := s.web.rateEdges
    let l := s.web.rateLines
    let overC := decide (s.pat.dlin.cMax < c * 1000)
    let overL := decide (s.pat.dlin.lMax < l * 1000)
    let s := { s with web := s.web.nextWindow }
    let s :=
      if overC || overL then s.overRate c l overC overL
      else if s.web.episode then
        if 100 ≤ s.web.goodWindows + 1 then
          let s := { s with web := { s.web with episode := false, goodWindows := 0 } }
          let s := s.statusPos 4 0
          { s with pins := { s.pins with riskRate := false } }
        else { s with web := { s.web with goodWindows := s.web.goodWindows + 1 } }
      else s
    s.settle

/-- WEB_STOPPED (R28): no counting edge for the stop interval S; the entry event of R452 follows. -/
def execWebStopped (s : State) : Result :=
  when (s.running && !s.web.stopped && decide (s.edges.lastWall + s.pat.dlin.stopUs * usPs ≤ s.time.wall)) s
    fun s =>
      let s := { s with web := { s.web with
        stopped := true, stopEntry := s.sourceCounter, stopSince := s.time.wall } }
      (((s.statusPos 5 0).controlEvent 3).raiseEntry 2).settle

/-- R449: the encoder-motion wake; the web client restores when it had withdrawn its run votes (log 18). -/
def State.motionWake (s : State) : State :=
  let s := s.raiseWake 0x10 s.source.val [domControl]
  if s.power.web == .rest || s.power.web == .deep then s.restore 0x10 else s

/-- WEB_MOVING (R28, R449): the position source has moved R counts from its value at entry. -/
def execWebMoving (s : State) : Result :=
  when (s.running && s.web.stopped &&
      decide (s.pat.dlin.restart ≤ (posDiff s.web.stopEntry s.sourceCounter).natAbs)) s fun s =>
    let s := { s with web := { s.web with stopped := false } }
    ((((s.statusPos 6 0).controlEvent 4).raiseEntry 3).motionWake).settle

/-- R429: the closing cause of the horizon: slack for a window held or replay-ready. -/
def Window.horizonCause (w : Window) : Nat :=
  if w.st == .held || w.st == .replayReady then 3 else 2

/-- HORIZON_CLOSURE (R23, R308, R319, R429): the position has reached p_e + H with the window open, in the stopped state too. -/
def execHorizonClosure (tag : Tag) (s : State) : Result :=
  match s.look.ledger.find? (·.tag == tag) with
  | some w =>
    when ((s.running || (s.sinceReady && s.adm.dev == .stopped)) &&
        decide (posDiff s.position (w.pe + BitVec.ofNat 48 s.pat.dlin.horizon) ≤ 0)) s
      fun s => (s.closeWindow tag 4 w.horizonCause 0 w.ownFlags).settle
  | none => .next s

end Sys2Proof.Machine
end

