-- ==== Sys2Proof/Machine/Lookback.lean ====
section
/-! DEFINITION. Serving groups, spans, SLOT and VERDICT: how windows are taken, run, closed or held for replay (R243 to
R245, R309 to R314, R421 to R428). -/

namespace Sys2Proof.Machine

/-! ### Spans (R310) -/

/-- R225, R310: a panel's sequencer at instruction 0. -/
def Panel.restart (now : Nat) (x : Panel) : Panel :=
  { x with seq := { active := true, origin := now }, vq := [], vqFmt := 4, span := none }

/-- R310: every sequencer of a group at instruction 0, in the state of R225. -/
def State.restartGroup (s : State) (g : Nat) : State :=
  (s.pat.groupPanels g).foldl (fun s p => s.updPanel p (Panel.restart s.clock)) s

/-- SPAN_START (R310): every panel of a group voted on is on: its sequencers start together. -/
def execSpanStart (g : Nat) (s : State) : Result :=
  let ps := s.pat.groupPanels g
  when (s.running && (s.group g).starting && !ps.isEmpty && ps.all fun n => s.isOn (domPanel n.val)) s fun s =>
    (s.restartGroup g).updGroup g fun x =>
      { x with starting := false, inSpan := true, ending := false, run := none, busyWall := s.time.wall }

/-- R310: the span ends once every sequencer has stopped: pins freed, votes withdrawn. A window that has come meanwhile starts
the next span. -/
def State.finishSpan (s : State) (g : Nat) : State :=
  let ps := s.pat.groupPanels g
  if (s.group g).ending && ps.all fun n => !s.panels[n].seq.active || s.panels[n].seq.halted then
    let s := (s.commons.pins.filter fun q => ps.any fun n => n.val == q.panel).foldl
      (fun s q => s.release q.lo q.hi) s
    let s := ps.foldl (fun s n => s.updPanel n fun x => { x with seq := { x.seq with active := false } }) s
    let s := s.updGroup g fun x => { x with inSpan := false, ending := false, run := none }
    (s.dropVotes (.group g) (ps.map fun n => domPanel n.val) false).wakeGroups
  else s

/-- R310: a panel whose next instruction is a SLOT. -/
def State.atSlot (s : State) (p : PanelId) : Bool :=
  match s.fetchPanel p with
  | some (.slot _ _ _) => true
  | _ => false

/-- R310, R460: the span of a group ends: its panels stop at their next SLOT; those at one stop now. -/
def State.endSpan (s : State) (g : Nat) : State :=
  let s := s.updGroup g fun x => { x with ending := true }
  let s := (s.pat.groupPanels g).foldl (fun s n =>
    if s.atSlot n then s.updPanel n fun x => { x with seq := { x.seq with active := false } } else s) s
  s.finishSpan g

/-- SPAN_END (R310): no window pending and none taken for the group's hysteresis. -/
def execSpanEnd (g : Nat) (s : State) : Result :=
  let x := s.group g
  when (s.running && x.inSpan && !x.ending && !s.onDuty g && !s.windowPending &&
      hystPassed (s.groupHyst g) (max x.busyWall s.look.pendingWall) s.time.wall) s fun s => (s.endSpan g).settle

/-! ### SLOT (R243, R311, R427) -/

/-- R311, R427: the window that an instance takes: the ready one of lowest ordinal, else the replay-ready one; whether it is
a replay. -/
def State.pick (s : State) : Option (Window × Bool) :=
  let least (st : WinState) : Option Window :=
    (s.look.ledger.filter fun w => w.st == st && w.degraded == s.power.degraded).foldl (fun b w =>
      match b with
      | none => some w
      | some x => if w.ordinal < x.ordinal then some w else b) none
  match least .ready with
  | some w => some (w, false)
  | none => (least .replayReady).map fun w => (w, true)

/-- R311: the slot run of an instance that a group's first panel issues. -/
def State.takeWindow (s : State) (g id cost : Nat) : State :=
  match s.pick with
  | none => s.updGroup g fun x => { x with run := some { slotId := id, cost := cost } }
  | some (w, replay) =>
    let s := { s with look := { s.look with
      ledger := updFirst (fun x : Window => x.tag == w.tag) (fun x => { x with st := .taken }) s.look.ledger
      pendingWall := s.time.wall
      replays := satAdd 32 s.look.replays (bit replay) } }
    s.updGroup g fun x => { x with
      busyWall := s.time.wall
      run := some { tag := some w.tag, ref := w.refLine, patch := w.patch, ordinal := w.ordinal, pe := w.pe,
                    slotId := id, cost := cost, replay := replay } }

/-- R244: the panel joins the run of its group's instance. -/
def State.joinRun (s : State) (p : PanelId) (id len cost t : Nat) : State :=
  let g := s.pat.groupOf p.val
  let s := if (s.groupRun g).isSome then s else s.takeWindow g id cost
  let s := s.updRun g fun r => { r with panels := r.panels ++ [p.val] }
  let present := ((s.groupRun g).map fun r => r.tag.isSome).getD false
  s.updPanel p fun x =>
    let pc := x.seq.pc
    { x with
      span := some (pc + 1, pc + 1 + len, t + cost)
      seq := { x.seq with pc := if present then pc + 1 else pc + 1 + len, floor := max x.seq.floor (t + 2) } }

/-- R244: the panel has issued this instance's SLOT already, so the next instance waits for the others. -/
def State.runBusy (s : State) (p : PanelId) (id : Nat) : Bool :=
  match s.groupRun (s.pat.groupOf p.val) with
  | some r => r.slotId != id || r.panels.contains p.val
  | none => false

/-- SLOT (R243, R311): the instance takes a window and its body runs, or the body is skipped. In an ending span it does not
issue and the sequencer stops (R310). -/
def execSlot (p : PanelId) (s : State) : Result :=
  match s.fetchPanel p with
  | some (.slot id len cost) =>
    let g := s.pat.groupOf p.val
    if (s.group g).ending then
      .next ((s.updPanel p fun x => { x with seq := { x.seq with active := false } }).finishSpan g).settle
    else if s.runBusy p id then .next s
    else match s.issuePanel p (.slot id len cost) with
      | none => .next s
      | some (t, s) => .next (s.joinRun p id len cost t).settle
  | _ => .next s

/-! ### The end of an instance (R308, R313, R314, R422, R423) -/

/-- R326: closing record flags: bit 3 damaged input, 4 replay, 5 no verdict. -/
def closingFlags (damaged replay silent : Bool) : BitVec 8 := BitVec.ofNat 8 (8 * bit damaged + 16 * bit replay + 32 * bit silent)

/-- R422 to R424: a marked instance closes nothing: its window is held, or closes with cause 3 when the fault has already
replayed it, four have, or the repair that it waits for has failed. -/
def State.endMarked (s : State) (r : SlotRun) (w : Window) (id : BitVec 32) : State :=
  if w.faultIds.contains id || 4 ≤ w.faultIds.length || r.holdOn == 5 then
    s.closeWindow w.tag 4 3 0 (closingFlags (r.damaged || w.viewDamaged) r.replay false)
  else
    let w' : Window := { w with
      st := .held, faultIds := w.faultIds ++ [id], holdOn := r.holdOn, holdKeys := r.holdKeys }
    let s := { s with look := { s.look with
      ledger := updFirst (fun x : Window => x.tag == w.tag) (fun _ => w'.promote s.pat.hist.isSome) s.look.ledger } }
    s.wakeGroups

/-- R422: awaiting entries that have resolved since they were read hold nothing. -/
def State.runKeys (s : State) (r : SlotRun) : SlotRun :=
  if r.holdOn = 4 then
    let keys := (r.awaited.filter fun (side, q) =>
      match s.haloEntry (if side = 0 then 0 else 1) (BitVec.ofNat 40 q) with
      | some e => e.awaiting
      | none => false).map fun (side, q) => side * 2 ^ 40 + q
    { r with holdKeys := keys, holdOn := if keys.isEmpty then 0 else 4 }
  else r

/-- R308: the horizon closure has been made once the position has reached p_e + H. -/
def State.pastHorizon (s : State) (pe : Pos) : Bool := reached s.position (pe + BitVec.ofNat 48 s.pat.dlin.horizon)

/-- R439: counters of a replay's closure. -/
def State.countReplay (s : State) (r : SlotRun) (closed lost : Bool) : State :=
  { s with look := { s.look with
    replayClosed := satAdd 32 s.look.replayClosed (bit (r.replay && closed))
    replayLost := satAdd 32 s.look.replayLost (bit (r.replay && lost)) } }

/-- R313, R314: the closing record of an instance whose window is open. Cause 5 goes before cause 4 (R428). -/
def State.closeInstance (s : State) (r : SlotRun) (w : Window) : State :=
  let fl := closingFlags (r.damaged || w.viewDamaged) r.replay
  if s.pastHorizon w.pe then
    let s := s.closeWindow w.tag 4 w.horizonCause 0 w.ownFlags
    { s with look := { s.look with dupClosures := satAdd 32 s.look.dupClosures 1 } }
  else if r.linesLost then (s.closeWindow w.tag 4 5 0 (fl false)).countReplay r false true
  else if r.haloBad then (s.closeWindow w.tag 4 4 0 (fl false)).countReplay r false true
  else match r.verdict with
    | some (1, c, sc) =>
      let s := (s.closeWindow w.tag 2 c (unsigned 16 sc) (fl false)).countReplay r true false
      match r.contribution with
      | some b => s.contribute w.pe b
      | none => s
    | some (2, _, sc) => (s.closeWindow w.tag 3 0 (unsigned 16 sc) (fl false)).countReplay r true false
    | _ => (s.closeWindow w.tag 3 0 0 (fl true)).countReplay r true false

/-- R313: all panels have ended the span: the instance ends. -/
def State.endInstance (s : State) (g : Nat) (r : SlotRun) : State :=
  let s := s.updGroup g fun x => { x with run := none }
  match r.tag with
  | none => s
  | some tag =>
    let r := s.runKeys r
    match s.look.ledger.find? (·.tag == tag), r.mark with
    | some w, some id => s.endMarked r w id
    | some w, none => s.closeInstance r w
    | none, none => { s with look := { s.look with dupClosures := satAdd 32 s.look.dupClosures 1 } }
    | none, some _ => s

/-- R243, R313: a panel at the end b of its slot's body goes on there, no earlier than cycle c; the last panel of the group ends
the instance. -/
def State.leaveSlot (s : State) (p : PanelId) (b c : Nat) : State :=
  let g := s.pat.groupOf p.val
  let s := s.updPanel p fun x =>
    { x with span := none, seq := { (x.seq.goto 0 b) with floor := max x.seq.floor c } }
  let s := s.updRun g fun r => { r with ended := r.ended ++ [p.val] }
  match s.groupRun g with
  | some r =>
    if (s.pat.slotPanels g r.slotId).all fun n => r.ended.contains n then (s.endInstance g r).settle else s
  | none => s

/-- SLOT_SPAN_END (R243, R313). -/
def execSlotSpanEnd (p : PanelId) (s : State) : Result :=
  let x := s.panels[p]
  match x.span with
  | some (_, b, c) => when (x.seq.active && x.seq.pc == b) s fun s => s.leaveSlot p b c
  | none => .next s

/-! ### VERDICT (R245, R314, R344) -/

/-- R344: what the verdict words say: kind, class and score, the contribution, and whether one was too short. -/
def verdictWords (h : Option Hist) (b : List Byte) : (Nat × Nat × Int) × Option (List Byte) × Bool :=
  let k := uAt b 0 1
  let v := (k, uAt b 1 1, sAt b 2 2)
  match h with
  | some h =>
    if bitAt (uAt b 4 1) 0 && k == 1 then
      if 64 + h.elements ≤ b.length then (v, some (sliceB b 64 h.elements), false) else (v, none, true)
    else (v, none, false)
  | none => (v, none, bitAt (uAt b 4 1) 0 && k == 1)

/-- R314, R344: the first VERDICT of an instance gives its verdict; a later one is counted. -/
def State.verdict (s : State) (p : PanelId) (b : List Byte) : State :=
  let g := s.pat.groupOf p.val
  match s.groupRun g with
  | some r =>
    if b.isEmpty then s
    else if r.verdict.isSome then { s with look := { s.look with dupVerdicts := satAdd 32 s.look.dupVerdicts 1 } }
    else
      let (v, c, short) := verdictWords s.pat.hist b
      let s := s.updRun g fun r => { r with verdict := some v, contribution := c }
      if short && r.mark.isNone then
        { s with history := { s.history with discarded := satAdd 32 s.history.discarded 1 } }
      else s
  | none => s

/-- R344: the bytes of the words that a VERDICT names. -/
def State.verdictBytes (s : State) (p : PanelId) (f : Nat) : List Byte × State :=
  let d := s.pat.tile f
  let b := (s.bodyRun p).map (·.bodyRef)
  let loops := s.panels[p].seq.loops
  let ws := d.words (s.baseOf d b) loops
  let (_, s') := s.readStored p f
  let m := if d.space = spScratch then s.panels[p].scratch else s.commons.mem
  (ws.flatMap fun w => Memory.readN 0 m (64 * w) 64, s')

/-- VERDICT (R245, R314). -/
def execVerdict (p : PanelId) (u : List Upset) (s : State) : Result :=
  panelStep p u s fun
    | .verdict a => some fun _ s =>
      let (b, s) := s.verdictBytes p a
      s.verdict p b
    | _ => none

end Sys2Proof.Machine
end

