-- ==== Sys2Proof/Machine/PanelControl.lean ====
section
/-! DEFINITION. Instructions that every sequencer has, NOP, LOOP, tokens, votes and HALT, and the control sequencer's own
PLLSW and WAITE (R225, R226, R240 to R242, R251, R444, R452). -/

namespace Sys2Proof.Machine

/-- A sequencer's panel, none for the control sequencer. -/
def panelOf (q : UnitId) : Option PanelId := if h : q.val < 16 then some ⟨q.val, h⟩ else none

/-- R251: the instruction that the control sequencer is about to issue. Past the program's end it halts (log 28). -/
def State.fetchControl (s : State) : Option Stitch :=
  let q := s.control.seq
  if s.running && s.isOn domControl && q.active && !q.halted && s.control.waiting.isNone then
    match s.pat.ctrl[q.pc]? with
    | some w => decodeStitch w
    | none => some .halt
  else none

/-- The control sequencer changed. -/
def State.updControl (s : State) (f : Sequencer → Sequencer) : State :=
  { s with control := { s.control with seq := f s.control.seq } }

/-- One instruction of the control sequencer, with its effect; one per control cycle, so no cycle is kept. -/
def controlIssue (s : State) (effect : Stitch → Option (State → State)) : Result :=
  match s.fetchControl with
  | none => .next s
  | some ins =>
    match effect ins with
    | none => .next s
    | some g => .next ((g (s.noteFirst.updControl fun q => q.goto 0 (q.pc + 1)))).settle

/-- An instruction that panels and the control sequencer share: its effect on either. -/
def unitStep (q : UnitId) (s : State) (effect : Stitch → Option (State → State)) : Result :=
  match panelOf q with
  | some p => panelStep p [] s fun i => (effect i).map fun g _ => g
  | none => controlIssue s effect

/-- NOP (R242): the sequencer is busy for n + 1 cycles. -/
def execNop (q : UnitId) (s : State) : Result :=
  unitStep q s fun
    | .nop _ => some fun s => s
    | _ => none

/-- R226: a loop level pushed; `pc` is the LOOP's own place. -/
def Sequencer.pushLoop (x : Sequencer) (pc n len : Nat) : Sequencer :=
  { x with loops := { count := n, idx := 0, first := pc + 1, last := pc + len } :: x.loops }

/-- LOOP (R226): a level whose body runs n times. -/
def execLoop (q : UnitId) (s : State) : Result :=
  match panelOf q with
  | some p => panelStep p [] s fun
    | .loop n len => some fun _ s =>
      s.updPanel p fun x => { x with seq := x.seq.pushLoop x.seq.pc n len }
    | _ => none
  | none =>
    let pc := s.control.seq.pc
    controlIssue s fun
      | .loop n len => some fun s => s.updControl fun x => x.pushLoop pc n len
      | _ => none

/-- R240, R249: an increment sent to a panel's or the control sequencer's counter 8 cycles after a cycle of the shared count;
one for a panel that is not on is lost. -/
def State.sendToken (s : State) (cycle target k inc : Nat) : State :=
  if h : target < 16 then
    let p : PanelId := ⟨target, h⟩
    if s.isOn (domPanel target) then
      let at_ := s.own p (cycle + 8)
      s.updPanel p fun x => { x with seq := { x.seq with flying := x.seq.flying ++ [(k, inc, at_)] } }
    else s
  else if target = 16 then s.updControl fun x => { x with flying := x.flying ++ [(k, inc, cycle + 8)] }
  else s

/-- R249: the present cycle of the count that all panels share. -/
def State.cycleNow (s : State) : Nat := s.clock * levelMhz s.power.level / 10 ^ 6

/-- R251: the cycle of the panels' clock that follows the present. -/
def State.nextCycle (s : State) : Nat := s.cycleNow + 1

/-- SIGK (R240, R251). -/
def execSigk (q : UnitId) (s : State) : Result :=
  match panelOf q with
  | some p => panelStep p [] s fun
    | .sigk t k inc => some fun c s => s.sendToken (s.shared p c) t k inc
    | _ => none
  | none => controlIssue s fun
    | .sigk t k inc => some fun s => s.sendToken s.nextCycle t k inc
    | _ => none

/-- R240: the oldest increment in flight reaches its counter. -/
def Sequencer.arrive (x : Sequencer) : Sequencer :=
  match x.flying with
  | (k, n, c) :: rest =>
    { x with
      flying := rest, came := x.came ++ [(k, n, c)]
      tokens := x.tokens.modify k fun v => (v + n) % 65536 }
  | [] => x

/-- R240, R249, R467: the cycle of arrival of a sequencer's oldest increment in flight has come. -/
def Sequencer.tokenDue (x : Sequencer) (now : Nat) : Bool :=
  match x.flying with
  | (_, _, c) :: _ => decide (c ≤ now)
  | [] => false

/-- TOKEN_ARRIVAL (R240). -/
def execTokenArrival (q : UnitId) (s : State) : Result :=
  match panelOf q with
  | some p =>
    when (s.panels[p].seq.tokenDue (s.own p s.cycleNow)) s fun s => s.updPanel p fun x => { x with seq := x.seq.arrive }
  | none => when (s.control.seq.tokenDue s.cycleNow) s fun s => s.updControl Sequencer.arrive

/-- R240: the count is subtracted from the counter. -/
def Sequencer.consume (x : Sequencer) (k n : Nat) : Sequencer :=
  { x with tokens := x.tokens.modify k (· - n), came := takeCount x.came k n }

/-- WAITK (R240): it issues once the counter is at least its count. -/
def execWaitk (q : UnitId) (s : State) : Result :=
  match panelOf q with
  | some p =>
    let tokens := s.panels[p].seq.tokens
    panelStep p [] s fun
      | .waitk k n =>
        if n ≤ tokens.getD k 0 then some fun _ s => s.updPanel p fun x => { x with seq := x.seq.consume k n } else none
      | _ => none
  | none =>
    let tokens := s.control.seq.tokens
    controlIssue s fun
      | .waitk k n => if n ≤ tokens.getD k 0 then some fun s => s.updControl fun x => x.consume k n else none
      | _ => none

/-- R444: the client of a sequencer's VOTE and UNVOTE. -/
def voteClient (q : UnitId) : Client := if q.val < 16 then .panel q.val else .control

/-- VOTE (R241). -/
def execVote (q : UnitId) (s : State) : Result :=
  unitStep q s fun
    | .vote d => some fun s => s.addVote (voteClient q) d false
    | _ => none

/-- UNVOTE (R241). -/
def execUnvote (q : UnitId) (s : State) : Result :=
  unitStep q s fun
    | .unvote d => some fun s => s.dropVote (voteClient q) d false
    | _ => none

/-- R310: every sequencer of a group in span has completed HALT: all restart, or the span that ends is over. -/
def State.groupHalted (s : State) (g : Nat) : State :=
  let ps := s.pat.groupPanels g
  let x := s.group g
  if x.ending then s.finishSpan g
  else if x.inSpan && ps.all fun n => s.panels[n].seq.halted then s.restartGroup g
  else s

/-- A panel's HALT has completed (R242). -/
def execHaltPanel (p : PanelId) (s : State) : Result :=
  match panelStep p [] s fun
    | .halt => some fun _ s => s.updPanel p fun x => { x with seq := { x.seq with halted := true } }
    | _ => none with
  | .next t =>
    .next (if t.panels[p].seq.halted && !s.panels[p].seq.halted then (t.groupHalted (s.pat.groupOf p.val)).settle
      else t)
  | r => r

/-- R242, R444, R452: the control sequencer's HALT: its own vote goes, and a pending entry point starts. -/
def execHaltControl (s : State) : Result :=
  controlIssue s fun
    | .halt => some fun s =>
      ((s.updControl fun x => { x with active := false, halted := true }).dropVote .controlSelf domControl false).startPending
    | _ => none

/-- HALT (R242). -/
def execHalt (q : UnitId) (s : State) : Result :=
  match panelOf q with
  | some p => execHaltPanel p s
  | none => execHaltControl s

/-- PLLSW (R251, R466): the PLL is requested; the sequencer switches to it at lock, when the core clock runs. -/
def execPllsw (s : State) : Result :=
  controlIssue s fun
    | .pllsw => some fun s =>
      let s := s.requestPll
      let s := { s with control := { s.control with wantPll := true } }
      if s.power.locked && s.power.coreMhz != 0 then s.joinPll else s
    | _ => none

/-- WAITE (R251, R444): it goes on if a selected event has occurred since the last WAITE; otherwise it waits, without its own
vote. -/
def execWaite (s : State) : Result :=
  controlIssue s fun
    | .waite mask => some fun s =>
      let m : BitVec 5 := BitVec.ofNat 5 mask
      if m &&& s.control.events = 0 then
        ({ s with control := { s.control with waiting := some m } }).dropVote .controlSelf domControl false
      else { s with control := { s.control with events := 0 } }
    | _ => none

end Sys2Proof.Machine
end

