-- ==== Sys2Proof/Machine/Ready.lean ====
section
/-! DEFINITION. Admission step 13: READY rises (R15, R18, R19, R30, R61, R94, R225, R310, R444, R445, R457). -/

namespace Sys2Proof.Machine

/-- R94, R327: the "admitted" STATUS record. -/
def State.admittedRecord (s : State) : State :=
  let other := if s.adm.slot = some 0 then s.adm.codeB.1 else s.adm.codeA.1
  s.status 1 0
    (bodyAt 0x10 64 (leNat (sliceB s.pat.head.fingerprint 0 8)) ||| bodyAt 0x18 8 (s.adm.slot.getD 0xFF)
      ||| bodyAt 0x19 8 s.wake.cause ||| bodyAt 0x1A 8 (bit s.adm.warm + 2 * bit s.adm.partly)
      ||| bodyAt 0x1B 8 other)

/-- R13, R18, R26, R28, R30: the position logic as READY starts it; the other decoder's uncertainty goes on. -/
def State.startWeb (s : State) : State :=
  let s := { s with web := { s.web with
    enc := Vector.upd s.web.enc s.source (fun (e : Encoder) => { e with events := [] }),
    lost := false, stopped := false, rateStart := s.time.wall, rateEdges := 0, rateSigned := 0, rateLines := 0
    episode := false, goodWindows := 0, overspeedSeen := false, lineOverSeen := false, lastRate := 0 } }
  { s with web := { s.web with
    highWater := s.position
    spanSource := s.sourceCounter
    spanOther := s.web.enc[(if s.source == 0 then 1 else 0 : DecId)].count } }

/-- R444, R445, R515: the votes as READY makes them follow VOTE. -/
def State.startVotes (s : State) : State :=
  let mine := (s.power.votes.filter fun v => v.client == .admission).map (·.domain)
  let kept := s.power.votes.filter fun v => v.client != .admission
  let s := { s with power := { s.power with votes := kept } }
  let s := s.addVotes .web s.runSet false
  let s := { s with power := { s.power with web := .run } }
  let s := match s.entryPoint 0 with
    | some pc => s.startControl pc
    | none => s
  mine.foldl State.startHysteresis s

/-- R457: from READY the level in force is the VOTE normal level; the clock rises once VID has settled, and falls at once. -/
def State.startLevel (s : State) : State :=
  let l := s.pat.voteNormal
  let up := decide (s.power.coreMhz < levelMhz l)
  { s with power := { s.power with
    level := l, trim := 0, clockPending := up, coreMhz := if up then s.power.coreMhz else levelMhz l
    vidSince := s.clock } }

/-- R94, R147, R285, R322, R401, R491: what counts from READY on starts. -/
def State.startCounting (s : State) : State :=
  { s with
    intake := { s.intake with nextSeq := 0, port := s.intake.port.map (fun (p : CsiPort) => { p with waiting := true }) },
    tables := { s.tables with windowOpen := true, counting := true }
    history := { s.history with readyPos := s.position, restart := s.position }
    bolt := { s.bolt with readyAt := s.clock, latDue := if s.isMaster then some (s.clock + 1000 * msPs) else none }
    flash := { s.flash with runFrom := s.time.wall } }

/-- R94: READY rises. -/
def State.raiseReady (s : State) : State :=
  let s := { s with adm := { s.adm with dev := .running, step := 13 } }
  let s := s.startWeb.startCounting
  let s := (s.bump 7 1).bump 18 (bit (s.wake.cause == 4))
  let s := s.startLevel.admittedRecord.startVotes
  (s.servingGroups.filter s.onDuty).foldl State.startSpan s

end Sys2Proof.Machine
end

