-- ==== Sys2Proof/Machine/Seam.lean ====
section
/-! DEFINITION. Seam links: training, the flit layer, retry, low-power states and failure (R349 to R380). -/

namespace Sys2Proof.Machine

/-! ### HELLO -/

/-- R383: the most recent normal line in the bobbin. -/
def State.anchor (s : State) : Option BobLine :=
  (s.bobbin.map (·.2)).foldl (fun best l =>
    if l.flags &&& 0x8F#8 ≠ 0 then best
    else match best with
      | none => some l
      | some b => if 0 < seqDiff b.seq l.seq then some l else best) none

/-- R382: the state code of a HELLO. -/
def helloState (mode : Nat) : Nat := if mode = 2 then 1 else if mode = 3 then 2 else 0

/-- R382: the payload of a HELLO on a port. -/
def State.helloPayload (s : State) (q : SeamId) : List Byte :=
  let (aSeq, aOk, aStamp) := match s.anchor with
    | some l => (l.seq.toNat, 1, l.stamp.toNat)
    | none => (0, 0, 0)
  leBytes 2 s.address.toNat ++ leBytes 1 q.val ++ leBytes 1 s.role
    ++ leBytes 1 (helloState s.bolt.mode + 16 * s.bolt.reason) ++ leBytes 1 s.pat.head.major
    ++ leBytes 1 s.pat.head.minor ++ leBytes 1 (Config.stepping.toNat / 256)
    ++ sliceB s.pat.head.fingerprint 0 8 ++ leBytes 8 Config.dieSerial.toNat
    ++ leBytes 5 aSeq ++ leBytes 1 aOk ++ leBytes 6 aStamp
    ++ leBytes 4 s.bolt.latGen.toNat ++ leBytes 4 s.bolt.calGen.toNat ++ leBytes 4 0

/-- R383: a HELLO queued on a port. -/
def State.sendHello (s : State) (q : SeamId) : State :=
  let s := s.queueOn q vcTick 0x01 (s.neighbour q) s.address (s.helloPayload q) none none
  s.updLink q fun l => { l with helloLine := s.intake.nextSeq, helloDue := false }

/-- R383: a HELLO on every port whose link is up. -/
def State.helloAll (s : State) : State :=
  allPorts.foldl (fun s q => if s.seams[q].link == .up then s.sendHello q else s) s

/-! ### Failure -/

/-- R380: messages of a VC that the retry buffer still holds, whole or in part. -/
def Seam.unackedOn (p : Seam) (vc : Nat) : Nat :=
  let fs := (p.retry.map (·.flit)).filter fun f => f.kind == 0 && f.vc == vc
  fs.countP (·.last) + match fs.getLast? with
    | some f => bit (!f.last)
    | none => 0

/-- R374: the length in ns of an episode that ends now. -/
def Episode.lengthNs (e : Episode) (clock : Nat) : Nat := (clock - e.since) / 1000

/-- R374: an episode of a length in ns, up to the budget, reported to the watchdog. -/
def Seam.report (p : Seam) (clock ns : Nat) : Seam := { p with credits := p.credits ++ [(clock, min 2000 ns)] }

/-- R373, R374: the present episode ends and its length is reported. -/
def Seam.endEpisode (p : Seam) (clock : Nat) : Seam :=
  match p.episode with
  | some e => { p.report clock (e.lengthNs clock) with episode := none }
  | none => p

/-- R371: a flit is discarded: NAK is set, from the first discard on. -/
def Seam.refuseFlit (p : Seam) (clock : Nat) : Seam :=
  if p.nak then p else { p with nak := true, nakSince := clock }

/-- R371, R374: a flit is accepted again: the time since the first discard is the partner's episode as this end sees it
(log 124). -/
def Seam.endNak (p : Seam) (clock : Nat) : Seam :=
  if p.nak then { p.report clock ((clock - p.nakSince) / 1000) with nak := false } else p

/-- R380: the port after a declared failure. -/
def Seam.fail (p : Seam) (cause : Nat) (clock : Nat) (id : BitVec 32) : Seam :=
  { (p.endEpisode clock).endNak clock with
    link := .idleFailed, stateSince := clock, leftDetect := none, quick := false
    retry := [], resend := [], partly := Vector.replicate 4 none, queued := Vector.replicate 4 []
    control := [], nak := false, ignore := none, sleep := .none, stalled := Vector.replicate 4 none
    unacked := p.resendStore, cause := cause, faultId := id, failed := true
    failures := satAdd 16 p.failures 1 }

/-- R379, R380, R417: a link declares itself failed. A link that was in the bolt leaves it with a BOLT record, reason 8
(log 19), and breaks the sweeps that used it (R401, R413). -/
def State.failLink (s : State) (q : SeamId) (cause : Nat) : State :=
  let p := s.seams[q]
  let detail := p.unackedOn 0 + 2 ^ 16 * p.unackedOn 1 + 2 ^ 32 * p.unackedOn 2 + 2 ^ 48 * p.unackedOn 3
  let (id, s) := s.detect 0x24 (q.val + 256 * cause) detail q.val
  let was := s.linkIn q
  let s := { s with faults := { s.faults with linkFailures := satAdd 32 s.faults.linkFailures 1 } }
  let s := s.updSeam q fun p => p.fail cause s.clock id
  let s := s.updLink q fun l =>
    { l with inBolt := false, everIn := l.everIn || was, broke := l.broke || was, sumBroke := l.sumBroke || was }
  if was then
    s.boltRecord 4 8 (s.neighbour q).toNat (leNat (sliceB s.pat.head.fingerprint 0 8))
  else s

/-! ### Training -/

/-- R357: a port moves to a training state. -/
def Seam.enter (p : Seam) (l : LinkState) (clock : Nat) : Seam := { p with link := l, stateSince := clock }

/-- R379: TRAIN blocks on a link that is up fail it with cause 9. -/
def State.trainWhileUp (s : State) (q : SeamId) : State := (s.failLink q 9).settle

/-- LINK_SIGNAL_DETECT (R357, R378): DETECT leaves for LOCK; a sleeping port raises the seam wake. -/
def execLinkSignalDetect (q : SeamId) (s : State) : Result :=
  let p := s.seams[q]
  match p.link with
  | .detect =>
    when s.power.seamclk s fun s => s.updSeam q fun p =>
      { p.enter .lock s.clock with leftDetect := some s.clock }
  | .standby => .next (s.raiseWake 0x12 q.val [domSeam q.val]).settle
  | .off => .next (s.raiseWake 0x12 q.val [domSeam q.val]).settle
  | _ => .next s

/-- LANE_LOCK (R357, R358): every lane is locked. -/
def execLaneLock (q : SeamId) (inverted : BitVec 4) (s : State) : Result :=
  match s.seams[q].link with
  | .lock => .next (s.updSeam q fun p => { p.enter .identify s.clock with inverted := inverted })
  | .up => .next (s.trainWhileUp q)
  | _ => .next s

/-- LANE_IDENTIFY (R358): the lane map and the partner's port are accepted, or fail with cause 2 or 3. -/
def execLaneIdentify (q : SeamId) (lanes : List Nat) (partner : Fin 4) (s : State) : Result :=
  match s.seams[q].link with
  | .identify =>
    if lanes = [0, 1, 2, 3] ∨ lanes = [3, 2, 1, 0] then
      if partner = oppositePort q then
        .next (s.updSeam q fun p => { p.enter .deskew s.clock with reversed := lanes == [3, 2, 1, 0] })
      else .next (s.failLink q 3).settle
    else .next (s.failLink q 2).settle
  | .up => .next (s.trainWhileUp q)
  | _ => .next s

/-- LANE_DESKEW (R357, R378): skew of at most 20 ns; a port leaving STANDBY measures only without a stored ρ. -/
def execLaneDeskew (q : SeamId) (skewPs : Nat) (s : State) : Result :=
  match s.seams[q].link with
  | .deskew =>
    when (decide (skewPs ≤ 20000)) s fun s => s.updSeam q fun p =>
      p.enter (if p.quick && p.rho.isSome then .ready else .measure) s.clock
  | .up => .next (s.trainWhileUp q)
  | _ => .next s

/-- ROUND_TRIP_MEASURE (R359): ρ is the largest of sixteen round trips of 6.4 ns; above 600 ns it fails with cause 4. ρ is
kept to the nearest ns (log 20). -/
def execRoundTripMeasure (q : SeamId) (trips : List Nat) (s : State) : Result :=
  match s.seams[q].link with
  | .measure =>
    if trips.length ≠ 16 then .next s
    else
      let m := trips.foldl max 0
      if 6000 < 64 * m then .next (s.failLink q 4).settle
      else .next (s.updSeam q fun p =>
        { p.enter .ready s.clock with rho := some ((rne (64 * m : Nat) 10).toNat) })
  | .up => .next (s.trainWhileUp q)
  | _ => .next s

/-- R360: the port as it comes up. -/
def Seam.comeUp (p : Seam) (clock : Nat) : Seam :=
  { p.enter .up clock with
    leftDetect := none, quick := false, txSeq := 0, rxSeq := 0, retry := [], resend := [], nak := false
    ignore := none, episode := none, sent := Vector.replicate 4 0, freedSeen := Vector.replicate 4 0
    taken := Vector.replicate 4 0, freed := Vector.replicate 4 0, turn := 0, queued := Vector.replicate 4 [], control := []
    partly := Vector.replicate 4 none, stalled := Vector.replicate 4 none, sleep := .none, stayed := false }

/-- R360, R367: messages that came over the old link and wait at other ports hold no slot of the new one. -/
def State.releaseHolds (s : State) (q : SeamId) : State :=
  let clear (f : OutFlit) : OutFlit := if f.holds = some q then { f with holds := none } else f
  { s with seams := s.seams.map fun (p : Seam) => { p with queued := p.queued.map fun (l : List OutFlit) => l.map clear } }

/-- LINK_UP (R360): the first data message is HELLO. -/
def execLinkUp (q : SeamId) (s : State) : Result :=
  match s.seams[q].link with
  | .ready => .next (((s.releaseHolds q).updSeam q fun p => p.comeUp s.clock).sendHello q)
  | _ => .next s

/-- R357: the timeout of a training state in ps; DETECT has none. -/
def trainingLimit : LinkState → Option Nat
  | .lock => some (2 * msPs)
  | .identify => some msPs
  | .deskew => some msPs
  | .measure => some msPs
  | .ready => some msPs
  | _ => none

/-- R357: the state's timeout or the overall 5 ms has passed. -/
def Seam.trainingExpired (p : Seam) (clock : Nat) : Bool :=
  match trainingLimit p.link with
  | some t => decide (p.stateSince + t ≤ clock) || match p.leftDetect with
    | some d => decide (d + 5 * msPs ≤ clock)
    | none => false
  | none => false

/-- TRAINING_TIMEOUT (R357): the link fails with cause 1. -/
def execTrainingTimeout (q : SeamId) (s : State) : Result :=
  when (s.seams[q].trainingExpired s.clock) s fun s => (s.failLink q 1).settle

/-! ### Sending -/

/-- R367: the credit that a sender holds for a VC. -/
def Seam.credit (p : Seam) (vc : Fin 4) : Nat :=
  (BitVec.ofNat 8 (vcBuffer vc.val) - p.sent[vc] + p.freedSeen[vc]).toNat

/-- A flit's bytes without its CRC (R361). -/
def OutFlit.body (f : OutFlit) (ack : BitVec 12) (nak : Bool) (turn : Nat) (freed : BitVec 8) : List Byte :=
  leBytes 1 (if f.kind = 0 then f.vc + 4 * bit f.start + 8 * bit f.last else 16 * f.kind)
    ++ leBytes 1 f.type ++ leBytes 2 f.seqNo.toNat ++ leBytes 2 (ack.toNat + 2 ^ 15 * bit nak)
    ++ leBytes 1 turn ++ leBytes 1 freed.toNat ++ leBytes 2 f.dest.toNat ++ leBytes 2 f.source.toNat
    ++ sliceB f.payload 0 48

/-- R361, R362: a flit on the lanes: the acknowledgement, one credit return in turn, and the CRC. -/
def Seam.emit (p : Seam) (f : OutFlit) : Seam :=
  let vc : Fin 4 := ⟨p.turn % 4, Nat.mod_lt _ (by decide)⟩
  let b := f.body (p.rxSeq - 1) p.nak vc.val p.freed[vc]
  { p with lastOut := b ++ leBytes 4 (crc32 b).toNat, turn := (p.turn + 1) % 4 }

/-- R391: bit 3 of a TICK's flags set in a flit that a go-back resends. -/
def OutFlit.retried (f : OutFlit) : OutFlit :=
  if f.kind = 0 ∧ f.vc = 0 ∧ f.type = 2 then
    { f with payload := f.payload.take 6 ++ [(f.payload.getD 6 0) ||| 8#8] ++ f.payload.drop 7 }
  else f

/-- R391: the residence of a forwarded TICK, added to its path correction as it leaves. -/
def OutFlit.depart (f : OutFlit) (clock : Nat) : OutFlit :=
  match f.arrived with
  | some t =>
    { f with
      arrived := none
      payload := f.payload.take 12 ++ leBytes 4 (uAt f.payload 12 4 + ceilDiv (clock - t) 1000)
        ++ f.payload.drop 16 }
  | none => f

/-- R363, R372: a flit takes its sequence number and its place in the retry buffer. -/
def Seam.sendNew (p : Seam) (f : OutFlit) (clock : Nat) : Seam :=
  let f := { f.depart clock with seqNo := p.txSeq, holds := none }
  let p : Seam := { p with txSeq := p.txSeq + 1, retry := p.retry ++ [{ flit := f, sentAt := clock }] }
  p.emit f

/-- R368: the next queued data flit of a VC that holds credit. -/
def Seam.sendData (p : Seam) (clock : Nat) : List (Fin 4) → Seam
  | [] => p.emit { kind := 1 }
  | vc :: vcs =>
    match p.queued[vc] with
    | f :: fs =>
      if p.credit vc = 0 then p.sendData clock vcs
      else
        let p : Seam := { p with
          queued := Vector.put p.queued vc fs, sent := Vector.put p.sent vc (p.sent[vc] + 1) }
        p.sendNew f clock
    | [] => p.sendData clock vcs

/-- R379: since when each VC's data flits wait without credit. -/
def Seam.noteStalls (p : Seam) (clock : Nat) : Seam :=
  [0, 1, 2, 3].foldl (fun (p : Seam) (vc : Fin 4) =>
    let st := if !p.queued[vc].isEmpty && p.credit vc == 0 then some (p.stalled[vc].getD clock) else none
    { p with stalled := Vector.put p.stalled vc st }) p

/-- R377: work or a vote at an abort point: data flits queued or the port voted on. -/
def State.seamWanted (s : State) (q : SeamId) : Bool :=
  s.votedOn (domSeam q.val) || s.seams[q].queued.toList.any (!·.isEmpty)

/-- R377: the entry is given up: WAKE is sent, the link stays ACTIVE and its domain on. -/
def State.abortSleep (s : State) (q : SeamId) : State :=
  (s.updSeam q fun p => { p with sleep := .none, control := p.control ++ [(4, 0)] }).updDom (domSeam q.val)
    fun d => { d with st := .on }

/-- R368: what a slot carries: a retry, a link-control flit, data in the order TICK, LINE, HIST, EVENT, or a null flit. With
128 flits unacknowledged, and after an agreed sleep, new data waits. -/
def Seam.slot (p : Seam) (clock : Nat) : Seam :=
  match p.resend with
  | n :: rest =>
    match p.retry.find? (·.flit.seqNo == n) with
    | some x =>
      let f := x.flit.retried
      let again : List SentFlit :=
        p.retry.map fun y => if y.flit.seqNo == n then { flit := f, sentAt := clock } else y
      let p : Seam := { p with resend := rest, retry := again }
      p.emit f
    | none =>
      let p : Seam := { p with resend := rest }
      p.emit { kind := 1 }
  | [] =>
    if 128 ≤ p.retry.length then p.emit { kind := 1 }
    else
      match p.control with
      | (c, t) :: rest =>
        let p : Seam := { p with control := rest }
        p.sendNew { kind := 2, payload := leBytes 1 c ++ leBytes 1 t } clock
      | [] =>
        match p.sleep with
        | .agreed _ => p.emit { kind := 1 }
        | _ => p.sendData clock [0, 1, 3, 2]

/-- R367: the slots of a port's VC that messages forwarded from it and not yet sent still hold. -/
def State.slotsHeld (s : State) (q : SeamId) (vc : Nat) : Nat :=
  (s.seams.toList.map fun p => (p.queueOf vc).countP fun f => f.holds == some q).sum

/-- R367: the freed counts of a port: what has been taken into messages, less the slots still held. -/
def State.freeSlots (s : State) (q : SeamId) : State :=
  s.updSeam q fun p => { p with
    freed := Vector.ofFn fun vc => p.taken[vc] - BitVec.ofNat 8 (s.slotsHeld q vc.val) }

/-- R377: the next slot ends step 1 or step 2 of an entry: it carries SLEEP or SLEEP_ACK. -/
def Seam.endsStep (p : Seam) : Bool :=
  p.resend.isEmpty && decide (p.retry.length < 128) && match p.control with
    | (c, _) :: _ => c == 1 || c == 2
    | [] => false

/-- FLIT_SLOT (R368): an entry whose step 1 or 2 the slot ends is given up there when there is data or a vote (R377). -/
def execFlitSlot (q : SeamId) (s : State) : Result :=
  match s.seams[q].link with
  | .up =>
    let ends := s.seams[q].endsStep
    let s := (s.freeSlots q).updSeam q fun p => (p.slot s.clock).noteStalls s.clock
    .next (if ends && s.seams[q].sleep != .none && s.seamWanted q then s.abortSleep q else s)
  | _ => .next s

/-! ### Receiving -/

/-- R362: the flit is 64 bytes long and its CRC is good. -/
def flitGood (f : Flit) : Bool :=
  f.length == 64 && uAt f 0x3C 4 == (crc32 (f.take 0x3C)).toNat

/-- R361: the kind of a flit. -/
def flitKind (f : Flit) : Nat := field (uAt f 0 1) 5 4

/-- R372: a number covers a flit, both modulo 4,096 read as signed. -/
def covers (ack n : BitVec 12) : Bool := decide (0 ≤ (ack - n).toInt)

/-- R373: a go-back: a new episode, or one more of the present one; the ninth fails the link with cause 5. -/
def State.goBack (s : State) (q : SeamId) : State :=
  let p := s.seams[q]
  match p.retry with
  | [] => s
  | x :: _ =>
    let n := x.flit.seqNo
    let goes := match p.episode with
      | some e => if e.flit == n then e.goBacks + 1 else 1
      | none => 1
    if 9 ≤ goes then s.failLink q 5
    else s.updSeam q fun p =>
      let fresh := goes = 1
      { p with
        episode := some (match p.episode with
          | some e => if e.flit == n then { e with goBacks := goes } else { flit := n, since := s.clock, goBacks := 1 }
          | none => { flit := n, since := s.clock, goBacks := 1 })
        episodes := satAdd 32 p.episodes (bit fresh)
        goBacks := satAdd 32 p.goBacks 1
        resend := p.retry.map (·.flit.seqNo)
        ignore := some (n - 1, s.clock + (p.rho.getD 0 + 82) * 1000) }

/-- R434: how many of the oldest records of the store have been acknowledged: all but those whose messages the port still
holds, in the retry buffer or queued. While records of a failed link wait to be resent, none. -/
def Seam.storeDone (p : Seam) : Nat :=
  if p.unacked.isEmpty then
    p.resendStore.length - (p.retry.countP fun x => x.flit.kind == 0 && x.flit.vc == 2 && x.flit.last)
      - p.queued[2].countP (·.last)
  else 0

/-- R371, R372, R433, R434: an acknowledged number releases the flits it covers, with the halo line and the stored
records that they carried. -/
def Seam.acknowledge (p : Seam) (ack : BitVec 12) (clock : Nat) : Seam :=
  let gone := p.retry.filter fun x => covers ack x.flit.seqNo
  let p := match p.episode with
    | some e => if covers ack e.flit then p.endEpisode clock else p
    | none => p
  let p := { p with retry := p.retry.filter fun x => !covers ack x.flit.seqNo }
  { p with
    resend := p.resend.filter fun n => !covers ack n
    resendStore := p.resendStore.drop p.storeDone
    nAck := gone.foldl (fun a x => match x.flit.line with
      | some n => some n
      | none => a) p.nAck }

/-- R363, R367, R371: the acknowledgement, the NAK and the credit return that every good flit carries. -/
def State.applyFields (s : State) (q : SeamId) (f : Flit) : State :=
  let ack := BitVec.ofNat 12 (uAt f 4 2)
  let vc : Fin 4 := ⟨uAt f 6 1 % 4, Nat.mod_lt _ (by decide)⟩
  let s := s.updSeam q fun p =>
    let p := p.acknowledge ack s.clock
    { p with freedSeen := Vector.put p.freedSeen vc (BitVec.ofNat 8 (uAt f 7 1)) }
  let ignored := match s.seams[q].ignore with
    | some (n, until_) => n == ack && decide (s.clock < until_)
    | none => false
  if bitAt (uAt f 4 2) 15 && !ignored then s.goBack q else s

/-- R365: the message types of a VC. -/
def typeOnVc (vc type : Nat) : Bool :=
  if vc = 0 then decide (1 ≤ type ∧ type ≤ 6)
  else if vc = 1 then type == 0x10 || type == 0x11
  else if vc = 2 then type == 0x20
  else decide (0x30 ≤ type ∧ type ≤ 0x33)

/-- R367: the last flit queued on a VC holds the slot of the port its message came from. -/
def Seam.holdFor (p : Seam) (vc : Nat) (from_ : SeamId) : Seam :=
  if h : vc < 4 then
    { p with queued := p.queued.set vc (p.queued[vc].modify (p.queued[vc].length - 1) fun f => { f with holds := some from_ }) h }
  else p

/-- R367, R386, R388: a message for another device that came from a port goes on toward it; the slot of its last flit is
freed once that flit has been sent on (log 21). -/
def State.forward (s : State) (m : Message) (from_ q : SeamId) : State :=
  if s.inBolt && s.linkIn q then
    let s :=
      if m.vc = 2 then s.queueEvent q m.dest m.source (Record.ofBytes m.payload)
      else s.queueOn q m.vc m.type m.dest m.source m.payload none none
    s.updSeam q fun p => p.holdFor m.vc from_
  else s.countUnroutable q

/-- R384, R398: what a port's link and the device's state let through: HELLO always; TICK over a link in the bolt, so
that a device may join (R397); anything else only to a device in the bolt. -/
def State.accepts (s : State) (q : SeamId) (m : Message) : Bool :=
  (m.vc == 0 && m.type == 1) || (s.linkIn q && ((m.vc == 0 && m.type == 2) || s.inBolt))

/-- R386, R387: a whole message is delivered, forwarded or both. A TICK is forwarded by its own step (R391). -/
def State.deliver (s : State) (q : SeamId) (m : Message) : State :=
  let take (s : State) := s.updSeam q fun p => { p with inbox := p.inbox ++ [m] }
  if !s.accepts q m then s
  else if m.vc = 0 ∧ m.type = 1 then take s
  else if m.dest.getLsbD 15 then
    let s := take s
    if m.vc = 0 ∧ m.type = 2 then s
    else if s.inBolt then
      (forwardPorts q).foldl (fun s o =>
        if s.linkIn o then s.queueOn o m.vc m.type m.dest m.source m.payload none none else s) s
    else s
  else
    match s.route m.dest with
    | none => take s
    | some o => s.forward m q o

/-- R364, R365: an accepted data flit joins its message; the last one completes it. Its slot is freed as it is taken into the
message, that of the last flit of a forwarded message later (R367, log 21). -/
def State.assemble (s : State) (q : SeamId) (f : Flit) : State :=
  let h := uAt f 0 1
  let vc : Fin 4 := ⟨h % 4, Nat.mod_lt _ (by decide)⟩
  let start := bitAt h 2
  let last := bitAt h 3
  let type := uAt f 1 1
  let s := s.updSeam q fun p => { p with taken := Vector.put p.taken vc (p.taken[vc] + 1) }
  let bad (s : State) := s.updSeam q fun p => { p with badFlits := satAdd 32 p.badFlits 1 }
  let part : Option Message :=
    if start then
      if typeOnVc vc.val type then
        some { vc := vc.val, type := type, dest := BitVec.ofNat 16 (uAt f 8 2),
               source := BitVec.ofNat 16 (uAt f 0xA 2), payload := sliceB f 0xC 48, port := q.val }
      else none
    else (s.seams[q].partly[vc]).map fun (m, _) => { m with payload := m.payload ++ sliceB f 0xC 48 }
  match part with
  | none => bad (s.updSeam q fun p => { p with partly := Vector.put p.partly vc none })
  | some m =>
    if last then
      (s.updSeam q fun p => { p with partly := Vector.put p.partly vc none }).deliver q
        { m with atClock := s.clock }
    else s.updSeam q fun p => { p with partly := Vector.put p.partly vc (some (m, m.payload.length / 48)) }

/-- R371: a flit that takes part in the sequence is accepted, or discarded under NAK. -/
def State.sequence (s : State) (q : SeamId) (f : Flit) : Bool × State :=
  if BitVec.ofNat 12 (uAt f 2 2) == s.seams[q].rxSeq then
    (true, s.updSeam q fun p => { p.endNak s.clock with rxSeq := p.rxSeq + 1 })
  else (false, s.updSeam q fun p => p.refuseFlit s.clock)

/-- DATA_FLIT (R371). An empty list of bytes stands for TRAIN blocks in the flit's place (R379, cause 9; log 22). -/
def execDataFlit (q : SeamId) (f : Flit) (s : State) : Result :=
  match s.seams[q].link with
  | .up =>
    if f.isEmpty then .next (s.trainWhileUp q)
    else if !flitGood f then .next (s.updSeam q fun p => p.refuseFlit s.clock)
    else if flitKind f ≠ 0 then .next s
    else
      let (ok, s) := (s.applyFields q f).sequence q f
      .next (if ok && s.seams[q].link == .up then s.assemble q f else s).settle
  | _ => .next s

/-- NULL_FLIT (R363): only the acknowledgement, the NAK and the credit return. -/
def execNullFlit (q : SeamId) (f : Flit) (s : State) : Result :=
  match s.seams[q].link with
  | .up => when (flitGood f && flitKind f == 1) s fun s => (s.applyFields q f).settle
  | _ => .next s

/-- R372, R373: the oldest unacknowledged flit has waited 1 µs since it was last sent. One that a go-back is about to send
again waits no longer: a NAK and a timeout for one flit at once are one go-back. -/
def Seam.timedOut (p : Seam) (clock : Nat) : Bool :=
  match p.retry with
  | x :: _ => decide (x.sentAt + usPs ≤ clock) && !p.resend.contains x.flit.seqNo
  | [] => false

/-- RETRY_TIMEOUT (R372): the sender goes back. -/
def execRetryTimeout (q : SeamId) (s : State) : Result :=
  when (s.seams[q].link == .up && s.seams[q].timedOut s.clock) s fun s => (s.goBack q).settle

/-- RETRY_BUDGET_EXPIRY (R373): the episode has lasted 2 µs, or would need a ninth go-back. -/
def execRetryBudgetExpiry (q : SeamId) (s : State) : Result :=
  let p := s.seams[q]
  when (p.link == .up && (p.episode.map fun e => decide (e.since + 2 * usPs ≤ s.clock)).getD false) s
    fun s => (s.failLink q 5).settle

/-! ### Low-power states -/

/-- R371, R377: a link-control flit of a code on a link that is up: its fields applied, and whether it was accepted in
sequence. One whose CRC fails is discarded with every field. -/
def State.takeControl (s : State) (q : SeamId) (f : Flit) (code : Nat) : Option (Bool × State) :=
  if s.seams[q].link != .up then none
  else if !flitGood f then some (false, s.updSeam q fun p => p.refuseFlit s.clock)
  else if flitKind f == 2 && uAt f 0xC 1 == code then some ((s.applyFields q f).sequence q f)
  else none

/-- R447: the low state of a seam port's domain as a target: 1 STANDBY, 2 OFF. -/
def State.seamTarget (s : State) (q : SeamId) : Nat :=
  if (s.voteEntry (domSeam q.val)).low == 1 ||
      s.power.votes.any (fun v => v.domain == domSeam q.val && v.retain) then 1 else 2

/-- R377: an end agrees to a target; when its own SLEEP is on the way, the two are the agreement. -/
def Seam.agree (p : Seam) (t : Nat) : Seam :=
  match p.sleep with
  | .requested _ => { p with sleep := .agreed t, stayed := false }
  | _ => { p with sleep := .agreed t, stayed := false, control := p.control ++ [(2, t)] }

/-- R377: the answer to SLEEP: SLEEP_ACK with the shallower target, or STAY while the port is voted on. An end whose own SLEEP
is on the way is at an abort point, where data or a new vote sends WAKE. -/
def State.answerSleep (s : State) (q : SeamId) (target : Nat) : State :=
  if s.seams[q].sleep != .none && s.seamWanted q then s.abortSleep q
  else if s.votedOn (domSeam q.val) then s.updSeam q fun p => { p with control := p.control ++ [(3, 0)], stayed := false }
  else if s.seams[q].queued.toList.any (!·.isEmpty) then s.abortSleep q
  else
    let t := min (max target 1) (s.seamTarget q)
    (s.updSeam q fun p => p.agree t).updDom (domSeam q.val) fun d =>
      { d with st := .entering (t == 1) false, since := s.clock }

/-- A link-control flit has its effect g when it is accepted; one discarded only sets NAK. -/
def controlStep (s : State) (q : SeamId) (f : Flit) (code : Nat) (g : State → State) : Result :=
  match s.takeControl q f code with
  | some (ok, s') => .next (if ok && s'.seams[q].link == .up then g s' else s').settle
  | none => .next s

/-- SLEEP (R377). SLEEP from both ends at once: each takes the other's as agreement. -/
def execSleep (q : SeamId) (f : Flit) (s : State) : Result :=
  controlStep s q f 1 fun s => s.answerSleep q (uAt f 0xD 1)

/-- SLEEP_ACK (R377): the agreed target; data or a vote at this abort point sends WAKE. -/
def execSleepAck (q : SeamId) (f : Flit) (s : State) : Result :=
  controlStep s q f 2 fun s =>
    match s.seams[q].sleep with
    | .requested t =>
      if s.seamWanted q then s.abortSleep q
      else
        let t := min t (max (uAt f 0xD 1) 1)
        (s.updSeam q fun p => { p with sleep := .agreed t }).updDom (domSeam q.val)
          fun d => { d with st := .entering (t == 1) false }
    | _ => s

/-- STAY (R377): the requester stays ACTIVE until the partner sends SLEEP itself. -/
def execStay (q : SeamId) (f : Flit) (s : State) : Result :=
  controlStep s q f 3 fun s =>
    (s.updSeam q fun p => { p with sleep := .none, stayed := true }).updDom (domSeam q.val)
      fun d => { d with st := .on }

/-- WAKE (R377): both ends stay ACTIVE. -/
def execWake (q : SeamId) (f : Flit) (s : State) : Result :=
  controlStep s q f 4 fun s =>
    (s.updSeam q fun p => { p with sleep := .none }).updDom (domSeam q.val)
      fun d => { d with st := .on, unvoted := s.time.wall }

/-- R377, R470: every flit is acknowledged, every credit returned, and no message delivered still waits for the device. -/
def Seam.drained (p : Seam) : Bool :=
  p.retry.isEmpty && p.resend.isEmpty && p.control.isEmpty && p.sent == p.freedSeen && p.inbox.isEmpty

/-- ELECTRICAL_IDLE_ENTRY (R376, R377): the link sleeps and its port domain reaches the agreed state; work or a vote at
this last abort point sends WAKE. -/
def execElectricalIdleEntry (q : SeamId) (s : State) : Result :=
  let p := s.seams[q]
  match p.link, p.sleep with
  | .up, .agreed t =>
    if !p.drained then .next s
    else if s.seamWanted q then .next (s.abortSleep q)
    else
      let s := s.updSeam q fun p =>
        if t = 1 then { p.enter .standby s.clock with sleep := .none }
        else { p.enter .off s.clock with
          sleep := .none, inverted := 0, reversed := false, rho := none }
      let s := s.updLink q fun l => { l with
        everIn := l.everIn || l.inBolt, inBolt := false, broke := l.broke || l.inBolt, sumBroke := l.sumBroke || l.inBolt }
      .next ((s.updDom (domSeam q.val) fun d => { d with st := if t = 1 then .retention else .off }).settle)
  | _, _ => .next s

/-! ### Causes of failure while up -/

/-- A link that is up fails with a cause. -/
def failWhileUp (q : SeamId) (cause : Nat) (s : State) : Result :=
  when (s.seams[q].link == .up) s fun s => (s.failLink q cause).settle

/-- LANE_LOCK_LOST (R379): cause 6. -/
def execLaneLockLost (q : SeamId) (s : State) : Result := failWhileUp q 6 s

/-- SIGNAL_LOST (R379): cause 7. -/
def execSignalLost (q : SeamId) (s : State) : Result := failWhileUp q 7 s

/-- CREDIT_STALL (R379): data flits of the VC have waited 100 µs without credit, cause 8. -/
def execCreditStall (q : SeamId) (vc : Fin 4) (s : State) : Result :=
  let p := s.seams[q]
  when (p.link == .up && (p.stalled[vc].map fun t => decide (t + 100 * usPs ≤ s.clock)).getD false) s
    fun s => (s.failLink q 8).settle

/-- FAILURE_IDLE_END (R380): after 10 µs of electrical idle the port trains from DETECT while its domain is voted on. Without
a vote it stays in idle until one returns or its domain reaches a low state (R376). -/
def execFailureIdleEnd (q : SeamId) (s : State) : Result :=
  when (s.votedOn (domSeam q.val)) s fun s => s.updSeam q fun p => p.retrain s.clock

/-- R471: a powered port: its link is in none of the unpowered or sleeping states. -/
def LinkState.powered : LinkState → Bool
  | .unpowered => false | .standby => false | .off => false | _ => true

/-- SEAMCLK_LOSS (R471): every powered port goes to electrical idle and fails with cause 7. -/
def execSeamclkLoss (s : State) : Result :=
  when s.power.seamclk s fun s =>
    let s := { s with power := { s.power with seamclk := false } }
    (allPorts.foldl (fun s q => if s.seams[q].link.powered then s.failLink q 7 else s) s).settle

/-- SEAMCLK_RETURN (R380, R471): ports in DETECT may train on; one whose 10 µs of failure idle are over and whose domain is
voted on enters DETECT, an earlier one does so at FAILURE_IDLE_END. -/
def execSeamclkReturn (s : State) : Result :=
  when (!s.power.seamclk) s fun s =>
    let s := { s with power := { s.power with seamclk := true } }
    allPorts.foldl (fun s q => if s.votedOn (domSeam q.val) then s.updSeam q fun p => p.retrain s.clock else s) s

end Sys2Proof.Machine
end

