-- ==== Sys2Proof/Machine/Bolt.lean ====
section
/-! DEFINITION. The bolt: HELLO, TICK, alignment, membership and rebasing (R383 to R399, R405). -/

namespace Sys2Proof.Machine

/-! ### Leaving and the checks of HELLO -/

/-- R395, R398, R415: the device leaves for selvage mode, or takes READY there. Its part of every sweep ends. -/
def State.leaveBolt (s : State) (reason addr detail : Nat) : State :=
  let s := { s with bolt := { s.bolt with
    mode := 3, reason := reason, usable := 0, apart := 0, latRun := none, calRun := none, latMaster := none, calMaster := none } }
  (s.boltRecord 2 reason addr detail).helloAll

/-- The fingerprint as the number of a record's detail. -/
def helloPrint (p : List Byte) : Nat := uAt p 8 8

/-- R384: the reason of the first check that a HELLO fails, 0 when it passes; the flag marks the collision. -/
def State.helloCheck (s : State) (q : SeamId) (p : List Byte) : Bool × Nat :=
  let a : Addr := BitVec.ofNat 16 (uAt p 0 2)
  if a = s.address then (true, 5)
  else if a ≠ s.neighbour q ∨ uAt p 2 1 ≠ (oppositePort q).val then (false, 4)
  else if sliceB p 8 8 ≠ sliceB s.pat.head.fingerprint 0 8 then (false, 1)
  else if uAt p 5 1 ≠ s.pat.head.major ∨ uAt p 6 1 ≠ s.pat.head.minor then (false, 2)
  else if uAt p 7 1 ≠ Config.stepping.toNat / 256 then (false, 3)
  else if uAt p 4 1 % 16 = 2 ∧ uAt p 4 1 / 16 = 5 then (false, 5)
  else (false, 0)

/-- R384, R415: the latest HELLO excludes the link; the record is formed when the outcome changes. -/
def State.excludeLink (s : State) (q : SeamId) (reason : Nat) (p : List Byte) : State :=
  let l := s.bolt.links[q]
  let s := s.updLink q fun l => { l with
    inBolt := false, everIn := l.everIn || l.inBolt, excluded := reason
    broke := l.broke || l.inBolt, sumBroke := l.sumBroke || l.inBolt }
  if l.excluded = reason then s else s.boltRecord 4 reason (uAt p 0 2) (helloPrint p)

/-- R434: the records that the port reported unacknowledged go out again, in their order; they are still in its store. -/
def State.resendEvents (s : State) (q : SeamId) : State :=
  let l := s.seams[q].unacked
  let s := l.foldl (fun s r =>
    State.queueOn s q vcEvent 0x20 (BitVec.ofNat 16 s.pat.boltCollector) r.source r.toBytes none none) s
  let s := s.updSeam q fun p => { p with unacked := [] }
  { s with faults := { s.faults with resent := satAdd 32 s.faults.resent l.length } }

/-- R414: a device whose seam recovers after an abort asks the master for a calibration sweep. -/
def State.requestCalibration (s : State) : State :=
  if !s.bolt.calAborted then s
  else
    let s := { s with bolt := { s.bolt with calAborted := false } }
    if s.isMaster then { s with bolt := { s.bolt with calWanted := true } }
    else s.sendTo vcTick 0x06 s.master (sweepPayload s.bolt.calGen 5 false 0 0 0)

/-- R401, R414, R433, R434: what a link that failed brings when it is back in the bolt: the replay lines and the unacknowledged
records first, then the requests for the sweeps. -/
def State.recover (s : State) (q : SeamId) : State :=
  if s.inBolt then
    let s := match portSide q with
      | some side => if s.sideDeclared side then s.sendReplays side else s
      | none => s
    ((s.resendEvents q).requestLatency).requestCalibration
  else s

/-- R410, R415, R430: a link is back in the bolt, after a failure, an exclusion or a sleep. -/
def State.linkReturns (s : State) (q : SeamId) : State :=
  let failed := s.seams[q].failed
  let s := if failed then
      ((s.updSeam q fun p => { p with failed := false, dropNoted := false, dropped := 0 }).updLink q fun l =>
        { l with returning := true }).recover q
    else s
  let s := s.boltRecord 5 q.val (s.neighbour q).toNat 0
  match portSide q with
  | some side => s.readHistory side
  | none => s

/-- R405: a valid anchor on an E/W link: exactly one line of the bobbin within ±1 count of its stamp gives Δ′. -/
def State.anchorLink (s : State) (q : SeamId) (p : List Byte) : State :=
  let na : LineSeq := BitVec.ofNat 40 (uAt p 0x18 5)
  let qa : Pos := BitVec.ofNat 48 (uAt p 0x1E 6)
  let near := (s.bobbin.map (·.2)).filter fun l => decide ((posDiff qa l.stamp).natAbs ≤ 1)
  match near with
  | [x] =>
    let d := seqDiff na x.seq
    let l := s.bolt.links[q]
    if l.delta = some d ∨ (l.deltaNext.map (·.2)) = some d then s
    else
      let s := s.updLink q fun l => { l with deltaNext := some (na + 4096, d) }
      s.boltRecord 6 q.val (s.neighbour q).toNat (unsigned 64 d)
  | _ => s

/-- HELLO (R384, R385, R405): the oldest message of the port, when it is a HELLO. -/
def execHello (q : SeamId) (s : State) : Result :=
  match s.takeMessage q vcTick 0x01 with
  | none => .next s
  | some (m, s) =>
    let p := m.payload
    let (collided, r) := s.helloCheck q p
    if collided then
      let s := s.updLink q fun l => { l with inBolt := false }
      .next (if s.bolt.mode == 3 && s.bolt.reason == 5 then s else (s.leaveBolt 5 (uAt p 0 2) 0)).settle
    else if r ≠ 0 then .next (s.excludeLink q r p).settle
    else
      let l := s.bolt.links[q]
      let s := s.updLink q fun l => { l with inBolt := true, excluded := 0 }
      let s := if l.inBolt then s
        else if l.everIn then s.linkReturns q
        else s.updSeam q fun p => { p with failed := false }
      let s := if bitAt (uAt p 0x1D 1) 0 && (portSide q).isSome then s.anchorLink q p else s
      .next s.settle

/-- HELLO_PERIODIC (R383): the HELLOs of the E/W ports by line count, and those that are due. -/
def execHelloPeriodic (q : SeamId) (s : State) : Result :=
  let l := s.bolt.links[q]
  let n := seqDiff l.helloLine s.intake.nextSeq
  when (s.seams[q].link == .up && (portSide q).isSome &&
      (decide (65536 ≤ n) || l.helloDue ||
        (l.inBolt && l.delta.isNone && l.deltaNext.isNone && decide (4096 ≤ n)))) s fun s => s.sendHello q

/-! ### TICK -/

/-- R389: a TICK is due at the master: at a 1 µs boundary after a change of the position, though it has changed back, or 1 ms
after the last. -/
def State.tickDue (s : State) : Bool :=
  match s.bolt.sentTick with
  | none => true
  | some t => (s.bolt.moved && s.clock % usPs == 0 && decide (t < s.clock)) || decide (t + msPs ≤ s.clock)

/-- R390: the payload of the master's TICK. -/
def State.tickPayload (s : State) : List Byte :=
  leBytes 6 s.position.toNat ++ leBytes 1 (bit s.web.lost + 2 * bit s.web.stopped + 4 * bit s.coarse) ++ leBytes 1 0
    ++ leBytes 4 (unsigned 32 s.web.lastRate) ++ leBytes 4 0 ++ leBytes 5 s.timestamp.toNat ++ leBytes 3 0
    ++ sliceB s.pat.head.fingerprint 0 8 ++ leBytes 4 s.bolt.sendSeq.toNat ++ leBytes 12 0

/-- TICK_SEND (R389). -/
def execTickSend (s : State) : Result :=
  when (s.running && s.isMaster && s.role != 0 && s.tickDue) s fun s =>
    let s := s.broadcast vcTick 0x02 s.tickPayload
    { s with bolt := { s.bolt with sendSeq := s.bolt.sendSeq + 1, sentTick := some s.clock, moved := false } }

/-- R391: a TICK forwarded, with the latency of its link and one hop; the residence is added as it leaves. -/
def State.forwardTick (s : State) (q : SeamId) (m : Message) : State :=
  if s.inBolt then
    let p := m.payload
    let p' := p.take 7 ++ leBytes 1 (uAt p 7 1 + 1) ++ sliceB p 8 4 ++ leBytes 4 (uAt p 0x0C 4 + s.linkMean q)
      ++ p.drop 16
    (forwardPorts q).foldl (fun s o =>
      if s.linkIn o then s.queueOn o m.vc m.type m.dest m.source p' none (some m.atClock) else s) s
  else s

/-- R392: a TICK is usable. -/
def State.tickUsable (s : State) (p : List Byte) : Bool :=
  let n : BitVec 32 := BitVec.ofNat 32 (uAt p 0x20 4)
  !bitAt (uAt p 6 1) 0 && !bitAt (uAt p 6 1) 3 && sliceB p 0x18 8 == sliceB s.pat.head.fingerprint 0 8 &&
    match s.bolt.tickSeq with
    | some k => decide (0 < (n - k).toInt)
    | none => true

/-- R392, R393: m′ + o: the compensated master position with the device's own declared offset. -/
def State.tickTarget (s : State) (q : SeamId) (p : List Byte) : Pos :=
  let c := uAt p 0x0C 4 + s.linkMean q + 100
  BitVec.ofNat 48 (uAt p 0 6) + BitVec.ofInt 48 (rne (sAt p 8 4 * c) (10 ^ 9))
    + BitVec.ofInt 48 ((s.entry.map (·.offset)).getD 0)

/-- R394: the device's BOLT entry takes position from TICK. -/
def State.followsTick (s : State) : Bool := s.role != 0 && (s.entry.map (·.posFrom == 1)).getD false

/-- R393: the counter of the position source that INTK names. -/
def State.joinCounter (s : State) : Pos := s.web.enc[(if s.pat.intk.source == 1 then 1 else 0 : DecId)].count

/-- R393: κ after a usable TICK with the difference e. -/
def driftAfter (k e : Int) : Int := k + rne (256 * e - k) 64

/-- R393, R395: a usable TICK at a device in the bolt on its local encoder. -/
def State.alignLocal (s : State) (target : Pos) : State :=
  let e := posDiff target s.position
  let k := driftAfter s.bolt.kappa e
  let n := if 2 < e.natAbs then s.bolt.apart + 1 else 0
  let s := { s with bolt := { s.bolt with kappa := k, lastE := e, apart := n } }
  if 16 ≤ n then s.leaveBolt 6 0xFFFF (unsigned 64 e) else s

/-- R399: every stored position moves by Δβ, those that the running instances took with them, and the local history restarts
from the initial image; the neighbours' copies stay, and so does what of theirs comes from before READY. -/
def State.rebase (s : State) (db : Pos) : State :=
  let fires := s.markers.fires.map fun (f : Fire) => { f with target := f.target + db }
  let ledger := s.look.ledger.map fun (w : Window) => { w with pe := w.pe + db }
  let s := { s with
    markers := { s.markers with fires := fires }
    look := { s.look with ledger := ledger }
    web := { s.web with highWater := s.web.highWater + db } }
  let s := s.mapRuns fun r => { r with pe := r.pe + db }
  let s := { s with history := { s.history with
    segs := s.history.segs.filter (·.side != 0), restart := s.position, readyPos := s.history.readyPos + db } }
  s.boltRecord 3 0 0xFFFF (unsigned 64 db.toInt)

/-- R397, R399: the sixteenth usable TICK: the device joins or rejoins. -/
def State.join (s : State) : State :=
  let db := s.bolt.betaNew - s.bolt.beta
  let ready := s.adm.dev == .admitting
  let local_ := !s.followsTick
  let s := { s with bolt := { s.bolt with
    mode := 2, usable := 0, apart := 0, kappa := if local_ then s.bolt.kappaNew else s.bolt.kappa
    beta := if local_ then s.bolt.betaNew else s.bolt.beta } }
  let s := if ready then s.raiseReady else if local_ && db != 0 then s.rebase db else s
  let s := allPorts.foldl (fun s q => if s.linkIn q then s.resendEvents q else s) s
  let s := s.boltRecord 1 s.pat.boltMaster 0xFFFF s.bolt.beta.toNat
  s.helloAll

/-- R30, R394: the follower is loaded; from READY on the high-water position follows one that is ahead of it. -/
def State.loadFollower (s : State) (target : Pos) : State :=
  let s := { s with bolt := { s.bolt with follower := target, target := target, loaded := true, usable := 1 } }
  if s.sinceReady && decide (0 < posDiff s.web.highWater s.position) then
    { s with web := { s.web with highWater := s.position } }
  else s

/-- R393, R397: a usable TICK at a device that forms or is in selvage mode: β is set at the first, and κ follows from there. -/
def State.countTick (s : State) (target : Pos) : State :=
  let e := posDiff target (s.joinCounter + s.bolt.betaNew)
  let first (s : State) : State :=
    if s.followsTick then s.loadFollower target
    else { s with bolt := { s.bolt with betaNew := target - s.joinCounter, kappaNew := 0, usable := 1 } }
  let s :=
    if s.bolt.usable = 0 then first s
    else if s.followsTick then { s with bolt := { s.bolt with target := target, usable := s.bolt.usable + 1 } }
    else if e.natAbs ≤ 2 then
      { s with bolt := { s.bolt with usable := s.bolt.usable + 1, kappaNew := driftAfter s.bolt.kappaNew e } }
    else first s
  if 16 ≤ s.bolt.usable then
    let s := s.join
    ([0, 1] : List (Fin 2)).foldl (fun s side => s.readHistory side) s
  else s

/-- R397, R399: the device may join: it forms, or is in selvage mode for another reason than 5 with its position kept. -/
def State.mayJoin (s : State) : Bool :=
  (s.bolt.mode == 1 && s.adm.dev == .admitting && s.adm.step == 12) ||
    (s.bolt.mode == 3 && s.running && s.bolt.reason != 5 && !(s.followsTick && s.web.lost))

/-- TICK (R391 to R397): the oldest message of the port, when it is a TICK. -/
def execTick (q : SeamId) (s : State) : Result :=
  match s.takeMessage q vcTick 0x02 with
  | none => .next s
  | some (m, s) =>
    let s := s.forwardTick q m
    let p := m.payload
    if s.isMaster then .next s
    else if s.tickUsable p then
      let target := s.tickTarget q p
      let s := { s with bolt := { s.bolt with
        tickSeq := some (BitVec.ofNat 32 (uAt p 0x20 4)), lastTick := s.clock } }
      .next (if s.inBolt then
          if s.followsTick then { s with bolt := { s.bolt with target := target } } else s.alignLocal target
        else if s.mayJoin then s.countTick target
        else s).settle
    else .next { s with bolt := { s.bolt with usable := 0 } }

/-- CORRECTION_STEP (R393): an inserted step 50 ns after a forward edge, or the next forward edge to be swallowed. -/
def execCorrectionStep (s : State) : Result :=
  let b := s.bolt
  if s.running && !s.followsTick && decide (256 ≤ b.sinceStep) then
    if b.kappa ≤ -256 ∧ b.insertDue ∧ (s.edges.last.map (· + 50000)).getD 0 ≤ s.clock then
      let s := { s with
        bolt := { b with beta := b.beta + 1, kappa := b.kappa + 256, steps := satAdd 32 b.steps 1, sinceStep := 0,
                         insertDue := false }
        web := { s.web with enc := Vector.upd s.web.enc s.source fun e =>
          { e with edges := e.edges.note true s.clock s.time.wall } } }
      .next (s.countEvent true).settle
    else if 256 ≤ b.kappa ∧ !b.swallow then
      .next { s with bolt := { b with swallow := true, kappa := b.kappa - 256, steps := satAdd 32 b.steps 1,
                                      sinceStep := 0 } }
    else .next s
  else .next s

/-- FOLLOWER_MOVE (R394): one count toward the target, no faster than one per 50 ns. -/
def execFollowerMove (s : State) : Result :=
  let b := s.bolt
  when (s.followsTick && b.loaded && b.follower != b.target && decide (b.lastMove + 50000 ≤ s.clock)) s fun s =>
    let fwd := decide (0 < posDiff b.follower b.target)
    let s := { s with bolt := { b with
      follower := if fwd then b.follower + 1 else b.follower - 1
      lastMove := s.clock
      followEdges := b.followEdges.note fwd s.clock s.time.wall } }
    (s.countEvent fwd).settle

/-- TICK_LOSS (R395): no usable TICK for 10 ms; a TICK-fed device also loses position. -/
def execTickLoss (s : State) : Result :=
  when (s.running && s.inBolt && !s.isMaster && decide (s.bolt.lastTick + 10 * msPs ≤ s.clock)) s fun s =>
    let s := s.leaveBolt 7 0xFFFF 0
    (if s.followsTick && !s.web.lost then s.losePosition else s).settle

/-- FORMATION_TIMEOUT (R93): READY in selvage mode 0.5 s after the start of step 12. -/
def execFormationTimeout (s : State) : Result :=
  when (s.adm.dev == .admitting && s.adm.step == 12 && s.role != 0 && !s.isMaster &&
      decide (s.bolt.formFrom + 500 * msPs ≤ s.clock)) s fun s =>
    let r := if s.bolt.mode == 3 && s.bolt.reason == 5 then 5 else 9
    let s := { s with bolt := { s.bolt with mode := 3, reason := r, usable := 0 } }
    ((s.raiseReady.boltRecord 2 r 0xFFFF 0).helloAll).settle

end Sys2Proof.Machine
end

