-- ==== Sys2Proof/Machine/Cim.lean ====
section
/-! DEFINITION. Compute-in-memory arrays: phases, conversion, trims, sweeps and drift tracking (R167 to R185). -/

namespace Sys2Proof.Machine

/-- The array as a number of the fixed vector: macros 0 to 7, then the lattices. -/
def isMacro (x : ArrayId) : Bool := decide (x.val < 8)

/-- R167: rows, data columns and halves of an array. -/
def arrayRows (x : ArrayId) : Nat := if isMacro x then 256 else 512
def arrayCols (x : ArrayId) : Nat := if isMacro x then 64 else 128
def arrayHalves (x : ArrayId) : Nat := if isMacro x then 1 else 2

/-- R176: the array converts in time-domain mode: macros whose SNTL selects it. -/
def State.timeDomain (s : State) (x : ArrayId) : Bool := isMacro x && s.pat.sntl.mode == 1

/-- R177: the offset limit of a mode. -/
def offsetLimit (td : Bool) : Int := if td then 2048 else 512

/-- R175, R176: the converter's greatest code. -/
def codeMax (td : Bool) : Nat := if td then 255 else 63

/-- R170, R180: column c of an array, the four reference columns after the data columns. -/
def CimArray.cell (a : CimArray) (cols r c : Nat) : Bool :=
  if c < cols then (a.rows.getD r 0).getLsbD c
  else if c = cols then false
  else if c = cols + 1 then true
  else if c = cols + 2 then r % 2 == 0
  else r % 4 == 0

/-- R172, R175: the count of driven rows whose cell is 1. -/
def CimArray.countOf (a : CimArray) (cols : Nat) (driven : List Nat) (c : Nat) : Nat :=
  driven.countP fun r => a.cell cols r c

/-- R173: the driven rows of each active slot of a plane. -/
def activeSlots (halves : Nat) (driven : List Nat) : List (List Nat) :=
  ((List.range halves).flatMap fun h =>
    let dr := driven.filter fun r => r / 256 == h
    if dr.length ≤ 64 then [dr] else (List.range 4).map fun g => dr.filter fun r => r / 64 == 4 * h + g).filter
      (!·.isEmpty)

/-- R175, R176, R185: one conversion: the ideal code and what the analog parts add, within the converter's range (log 7). -/
def convert (td : Bool) (free k : Nat) : Nat :=
  (clampInt 0 (codeMax td) (min k (codeMax td) + Config.analogNoise free)).toNat

/-- The conversion groups of a plane: every active slot on its own, or all of them at once in time-domain mode. -/
def conversions (td : Bool) (slots : List (List Nat)) : List (List Nat) :=
  if td then (if slots.isEmpty then [] else [slots.flatten]) else slots

/-- R177, R178: a corrected code in units of 1/256. -/
def correct (td : Bool) (t : Trim) (dO dG : Int) (c : Nat) : Int :=
  let f := clampInt (-offsetLimit td) (offsetLimit td) (t.f + dO)
  let g := clampInt 24576 40960 (t.g + dG)
  rne ((256 * (c : Int) - f) * g) 32768

/-- R183: the tracker's sums after one conversion of REF0 to REF3, their ideal codes and codes given in that order. -/
def DriftBlock.note (b : DriftBlock) (ideal codes : List Nat) : DriftBlock :=
  let good := ((ideal.zip codes).drop 1).filter fun (i, _) => decide (1 ≤ i ∧ i ≤ 62)
  { b with
    z := b.z + codes.headD 0
    e := b.e + ((good.map fun (i, _) => (i : Int)).sum)
    s := b.s + ((good.map fun (_, c) => (c : Int)).sum)
    k := b.k + good.length }

/-- R183: a block of 256 active phases is complete; the phases of a conversion that runs past it count to the next (log 120). -/
def CimArray.closeBlock (a : CimArray) : CimArray :=
  if 256 ≤ a.block.phases then { a with full := a.full ++ [a.block], block := { phases := a.block.phases - 256 } } else a

/-- One conversion of an array on the rows driven: the codes of all its columns, and the array with its tracker's sums. -/
def CimArray.convertAll (a : CimArray) (td : Bool) (cols free phases : Nat) (driven : List Nat) : List Nat × CimArray :=
  let ks := (List.range (cols + 4)).map fun c => a.countOf cols driven c
  let codes := ks.zipIdx.map fun (k, i) => convert td (free + i) k
  let block := a.block.note ((ks.drop cols).map (min · (codeMax td))) (codes.drop cols)
  (codes, { a with block := { block with phases := block.phases + phases } }.closeBlock)

/-- R178: the column sums of one plane, added to those given, and the array after it. -/
def CimArray.plane (a : CimArray) (td : Bool) (cols halves free : Nat) (driven : List Nat) :
    List Int × CimArray × Nat :=
  let slots := activeSlots halves driven
  (conversions td slots).foldl (fun (sums, a, n) rows =>
    let (codes, a') := CimArray.convertAll a td cols n (if td then slots.length else 1) rows
    let c' := (codes.take cols).zipIdx.map fun (c, i) => correct td (a.trims.getD i {}) a.dO a.dG c
    ((sums.zip c').map fun (x, y) => x + y, a', n + cols + 4))
    (List.replicate cols 0, a, free)

/-- R171: the weight of bit-plane t of b. -/
def planeWeight (b : Nat) (sgn : Bool) (t : Nat) : Int :=
  if sgn && t + 1 == b then -((2 ^ t : Nat) : Int) else ((2 ^ t : Nat) : Int)

/-- R179: what a plane adds to the logical column whose first physical column is c. -/
def columnTerm (w : Nat) (sums : List Int) (n c : Nat) : Int :=
  if w = 1 then 2 * sums.getD c 0 - 256 * n
  else ((List.range w).map fun u =>
    (if u + 1 = w then -((2 ^ u : Nat) : Int) else ((2 ^ u : Nat) : Int)) * sums.getD (c + u) 0).sum

/-- R171 to R179: an evaluation of an array on inputs given as b-bit patterns, one per row: the results y of the logical
columns that start at the physical columns `first`, first + w, …; the array and the free counter after it. -/
def CimArray.evaluate (a : CimArray) (td : Bool) (cols halves w b : Nat) (sgn : Bool) (first count free : Nat)
    (inputs : List Nat) : List Int × CimArray × Nat :=
  (List.range b).foldl (fun (ys, a, n) t =>
    let driven := (inputs.zipIdx.filter fun (v, _) => bitAt v t).map (·.2)
    let (sums, a, n) := CimArray.plane a td cols halves n driven
    (ys.zipIdx.map fun (y, j) => y + planeWeight b sgn t * columnTerm w sums driven.length (first + w * j), a, n))
    (List.replicate count 0, a, free)

/-! ### Sweeps (R181, R182) -/

/-- R181: the test vectors: no row, then each row group. -/
def sweepVectors (rows : Nat) : List (List Nat) :=
  [] :: (List.range (rows / 64)).map fun g => (List.range 64).map (64 * g + ·)

/-- R181: what a fit found: the trim, whether a vector fitted it, and whether its denominator was zero or negative. -/
structure Fit where
  trim : Trim := {}
  fitted : Bool := false
  bad : Bool := false
  deriving DecidableEq, Repr, Inhabited

/-- R181: one column's fit from the code sums of `reps` repetitions of each vector. -/
def fitColumn (reps : Nat) (expected sums : List Nat) : Fit :=
  let f := rne (256 * (sums.headD 0 : Int)) reps
  let good := ((expected.zip sums).drop 1).filter fun (e, _) => decide (1 ≤ e ∧ e ≤ 62)
  let se : Int := (good.map fun (e, _) => (e : Int)).sum
  let sc : Int := (good.map fun (_, c) => (c : Int)).sum
  let den := 256 * sc - good.length * f * reps
  if good.isEmpty then { trim := { g := 32768, f := f } }
  else if den ≤ 0 then { trim := { g := 40960, f := f }, fitted := true, bad := true }
  else { trim := { g := (rne (32768 * se * 256 * reps) den.toNat).toNat, f := f }, fitted := true }

/-- R177: a trim lies in the trim range. -/
def Trim.inRange (td : Bool) (t : Trim) : Bool :=
  decide (24576 ≤ t.g ∧ t.g ≤ 40960) && decide (-offsetLimit td ≤ t.f) && decide (t.f ≤ offsetLimit td)

/-- A trim held in the trim range. -/
def Trim.clamp (td : Bool) (t : Trim) : Trim :=
  { g := min 40960 (max 24576 t.g), f := clampInt (-offsetLimit td) (offsetLimit td) t.f }

/-- R181: the sums of the codes of every column over a sweep, vector by vector, and the free counter after it. -/
def CimArray.sweepCodes (a : CimArray) (td : Bool) (rows cols reps free : Nat) : List (List Nat) :=
  (sweepVectors rows).zipIdx.map fun (v, i) => (List.range (cols + 4)).map fun c =>
    ((List.range reps).map fun r =>
      convert td (free + ((i * reps) + r) * (cols + 4) + c) (a.countOf cols v c)).sum

/-- R177, R181: a reference sweep: the fitted trims of every column held in the trim range (log 121), the reference columns that
were out of it, and how many data columns were. A column without a vector of its own takes the mean G of those of REF1 to REF3 that have one. -/
def CimArray.sweep (a : CimArray) (td : Bool) (rows cols reps free : Nat) : List Trim × List Nat × Nat :=
  let vs := sweepVectors rows
  let sums := a.sweepCodes td rows cols reps free
  let fits := (List.range (cols + 4)).map fun c =>
    fitColumn reps (vs.map fun v => a.countOf cols v c) (sums.map (·.getD c 0))
  let refs := (fits.drop (cols + 1)).filter (·.fitted)
  let mean : Nat :=
    if refs.isEmpty then 32768 else (rne ((refs.map fun x => (x.trim.g : Int)).sum) refs.length).toNat
  let trims := fits.map fun x => if x.fitted then x.trim else { x.trim with g := mean }
  let bad := (fits.zip trims).zipIdx.filter fun ((x, t), _) => x.bad || !t.inRange td
  (trims.map (·.clamp td),
    (bad.filter fun (_, c) => decide (cols ≤ c)).map (·.2), bad.countP fun (_, c) => decide (c < cols))

/-- Free values that a sweep takes. -/
def sweepFree (rows cols reps : Nat) : Nat := (rows / 64 + 1) * reps * (cols + 4)

/-- One array changed. -/
def State.updArray (s : State) (x : ArrayId) (f : CimArray → CimArray) : State :=
  { s with sentinel := { s.sentinel with arrays := Vector.upd s.sentinel.arrays x f } }

/-- R62, R184: an array is out of trim: a FAULT record once until the next reset exit, and FAULT_N. -/
def State.outOfTrim (s : State) (x : ArrayId) (column : Nat) : State :=
  if s.sentinel.arrays[x].outOfTrim then s
  else
    let s := s.updArray x fun a => { a with outOfTrim := true }
    (s.faultRecord 4 x.val column).assertFault

/-- R182: a per-swath or per-wake sweep: fitted trims join the average of the calibration window, and a reference column out
of range puts the array out of trim. -/
def State.sweepArray (s : State) (x : ArrayId) (reps : Nat) (windowed : Bool) : State :=
  let td := s.timeDomain x
  let (trims, badRefs, _) := s.sentinel.arrays[x].sweep td (arrayRows x) (arrayCols x) reps s.free
  let s := { s with free := s.free + sweepFree (arrayRows x) (arrayCols x) reps }
  let s :=
    if windowed then s.updArray x fun a =>
      { a with
        sweepSum := trims.zipIdx.map fun (t, i) =>
          let (g, f) := a.sweepSum.getD i (0, 0); (g + t.g, f + t.f)
        sweepCount := a.sweepCount + 1 }
    else s
  match badRefs with
  | c :: _ => s.outOfTrim x c
  | [] => s

/-- R183, R184: one complete block moves the tracker's terms; the mean of three gains is not rounded before its use. -/
def CimArray.track (a : CimArray) (cols : Nat) (b : DriftBlock) : CimArray :=
  let gs := (a.trims.drop (cols + 1)).take 3
  let sumG := (gs.map fun t => (t.g : Int)).sum
  let ref0 := a.trims.getD cols {}
  let dO := a.dO + rne (b.z - ref0.f - a.dO) 16
  let den := 256 * b.s - b.k * b.z
  let dG := if 0 < b.k ∧ 0 < den then a.dG + rne (3 * rne (32768 * 256 * b.e) den.toNat - sumG - 3 * a.dG) 48 else a.dG
  { a with dO := dO, dG := dG }

/-- R184: drift past the limits, and back within half of them. -/
def CimArray.drifting (a : CimArray) : Bool := decide (256 < a.dO.natAbs) || decide (983 < a.dG.natAbs)
def CimArray.settled (a : CimArray) : Bool := decide (2 * a.dO.natAbs ≤ 256) && decide (2 * a.dG.natAbs ≤ 983)

/-- R184: the first column whose trim with the tracker's terms leaves the trim range. -/
def CimArray.outColumn (a : CimArray) (td : Bool) : Option Nat :=
  a.trims.findIdx? fun t =>
    decide (offsetLimit td < (t.f + a.dO).natAbs) || decide ((t.g : Int) + a.dG < 24576) ||
      decide (40960 < (t.g : Int) + a.dG)

/-- DRIFT_TRACKER_BLOCK (R183, R184): the array's oldest complete block is applied; drift and an array out of trim are
reported. -/
def execDriftTrackerBlock (x : ArrayId) (s : State) : Result :=
  match s.sentinel.arrays[x].full with
  | [] => .next s
  | b :: rest =>
    let s := s.updArray x fun a => { a.track (arrayCols x) b with full := rest }
    let a := s.sentinel.arrays[x]
    let s :=
      if a.drifting && !a.reported then
        (s.updArray x fun a => { a with reported := true }).status 8 x.val
          (bodyAt 0x10 32 (unsigned 32 a.dO) ||| bodyAt 0x14 32 (unsigned 32 a.dG))
      else if a.settled then s.updArray x fun a => { a with reported := false }
      else s
    let s := match a.outColumn (s.timeDomain x) with
      | some c => s.outOfTrim x c
      | none => s
    .next s.settle

end Sys2Proof.Machine
end

