-- ==== Sys2Proof/Machine/Crypto.lean ====
section
/-! DEFINITION. SHA-256 (R115) and the Ed25519 verification of R82 with its SHA-512, written out over
bit vectors and natural numbers. PRESUMED (log 12): the published definitions of the two names. -/

namespace Sys2Proof.Machine

/-- The 80 round constants of SHA-512; the high halves of the first 64 are those of SHA-256. -/
def shaK : List Nat :=
  [0x428a2f98d728ae22, 0x7137449123ef65cd, 0xb5c0fbcfec4d3b2f, 0xe9b5dba58189dbbc] ++
  [0x3956c25bf348b538, 0x59f111f1b605d019, 0x923f82a4af194f9b, 0xab1c5ed5da6d8118] ++
  [0xd807aa98a3030242, 0x12835b0145706fbe, 0x243185be4ee4b28c, 0x550c7dc3d5ffb4e2] ++
  [0x72be5d74f27b896f, 0x80deb1fe3b1696b1, 0x9bdc06a725c71235, 0xc19bf174cf692694] ++
  [0xe49b69c19ef14ad2, 0xefbe4786384f25e3, 0x0fc19dc68b8cd5b5, 0x240ca1cc77ac9c65] ++
  [0x2de92c6f592b0275, 0x4a7484aa6ea6e483, 0x5cb0a9dcbd41fbd4, 0x76f988da831153b5] ++
  [0x983e5152ee66dfab, 0xa831c66d2db43210, 0xb00327c898fb213f, 0xbf597fc7beef0ee4] ++
  [0xc6e00bf33da88fc2, 0xd5a79147930aa725, 0x06ca6351e003826f, 0x142929670a0e6e70] ++
  [0x27b70a8546d22ffc, 0x2e1b21385c26c926, 0x4d2c6dfc5ac42aed, 0x53380d139d95b3df] ++
  [0x650a73548baf63de, 0x766a0abb3c77b2a8, 0x81c2c92e47edaee6, 0x92722c851482353b] ++
  [0xa2bfe8a14cf10364, 0xa81a664bbc423001, 0xc24b8b70d0f89791, 0xc76c51a30654be30] ++
  [0xd192e819d6ef5218, 0xd69906245565a910, 0xf40e35855771202a, 0x106aa07032bbd1b8] ++
  [0x19a4c116b8d2d0c8, 0x1e376c085141ab53, 0x2748774cdf8eeb99, 0x34b0bcb5e19b48a8] ++
  [0x391c0cb3c5c95a63, 0x4ed8aa4ae3418acb, 0x5b9cca4f7763e373, 0x682e6ff3d6b2b8a3] ++
  [0x748f82ee5defb2fc, 0x78a5636f43172f60, 0x84c87814a1f0ab72, 0x8cc702081a6439ec] ++
  [0x90befffa23631e28, 0xa4506cebde82bde9, 0xbef9a3f7b2c67915, 0xc67178f2e372532b] ++
  [0xca273eceea26619c, 0xd186b8c721c0c207, 0xeada7dd6cde0eb1e, 0xf57d4f7fee6ed178] ++
  [0x06f067aa72176fba, 0x0a637dc5a2c898a6, 0x113f9804bef90dae, 0x1b710b35131c471b] ++
  [0x28db77f523047d84, 0x32caab7b40c72493, 0x3c9ebe0a15c9bebc, 0x431d67c49c100d4c] ++
  [0x4cc5d4becb3e42b6, 0x597f299cfc657e2a, 0x5fcb6fab3ad6faec, 0x6c44198c4a475817]

/-- The initial hash words of SHA-512; their high halves are those of SHA-256. -/
def shaH : List Nat :=
  [0x6a09e667f3bcc908, 0xbb67ae8584caa73b, 0x3c6ef372fe94f82b, 0xa54ff53a5f1d36f1] ++
  [0x510e527fade682d1, 0x9b05688c2b3e6c1f, 0x1f83d9abfb41bd6b, 0x5be0cd19137e2179]

/-- The message padded: 0x80, zeros, and the bit length high byte first in `lenBytes` bytes. -/
def shaPad (block lenBytes : Nat) (m : List Byte) : List Byte :=
  let z := (block - (m.length + 1 + lenBytes) % block) % block
  m ++ 0x80#8 :: List.replicate z 0 ++ (leBytes lenBytes (8 * m.length)).reverse

/-- A list cut into chunks of n. -/
def chunksOf {α : Type} (n : Nat) : Nat → List α → List (List α)
  | 0, _ => []
  | _ + 1, [] => []
  | fuel + 1, l => l.take n :: chunksOf n fuel (l.drop n)

/-- The constants that tell SHA-256 and SHA-512 apart: word width and rotations. -/
structure ShaParams (w : Nat) where
  rounds : Nat
  s0 : Nat × Nat × Nat
  s1 : Nat × Nat × Nat
  e0 : Nat × Nat × Nat
  e1 : Nat × Nat × Nat

/-- The small sigma functions: two rotations and a shift. -/
def shaSmall {w : Nat} (r : Nat × Nat × Nat) (x : BitVec w) : BitVec w :=
  x.rotateRight r.1 ^^^ x.rotateRight r.2.1 ^^^ (x >>> r.2.2)

/-- The big sigma functions: three rotations. -/
def shaBig {w : Nat} (r : Nat × Nat × Nat) (x : BitVec w) : BitVec w :=
  x.rotateRight r.1 ^^^ x.rotateRight r.2.1 ^^^ x.rotateRight r.2.2

/-- The message schedule, newest word first. -/
def shaExtend {w : Nat} (p : ShaParams w) : Nat → List (BitVec w) → List (BitVec w)
  | 0, l => l
  | n + 1, l =>
    shaExtend p n ((shaSmall p.s1 (l.getD 1 0) + l.getD 6 0 + shaSmall p.s0 (l.getD 14 0)
      + l.getD 15 0) :: l)

/-- One round on the eight working words. -/
def shaRound {w : Nat} (p : ShaParams w) (v : List (BitVec w)) (kw : BitVec w × BitVec w) :
    List (BitVec w) :=
  match v with
  | [a, b, c, d, e, f, g, h] =>
    let t1 := h + shaBig p.e1 e + ((e &&& f) ^^^ (~~~e &&& g)) + kw.1 + kw.2
    let t2 := shaBig p.e0 a + ((a &&& b) ^^^ (a &&& c) ^^^ (b &&& c))
    [t1 + t2, a, b, c, d + t1, e, f, g]
  | v => v

/-- One block. -/
def shaBlock {w : Nat} (p : ShaParams w) (k : List (BitVec w)) (h : List (BitVec w))
    (blk : List (BitVec w)) : List (BitVec w) :=
  let ws := (shaExtend p (p.rounds - 16) blk.reverse).reverse
  List.zipWith (· + ·) h ((k.zip ws).foldl (shaRound p) h)

/-- The hash of a message, as bytes. -/
def shaHash {w : Nat} (p : ShaParams w) (k h : List (BitVec w)) (m : List Byte) : List Byte :=
  let n := w / 8
  let padded := shaPad (16 * n) (2 * n) m
  let words := (chunksOf n padded.length padded).map fun c => BitVec.ofNat w (leNat c.reverse)
  ((chunksOf 16 words.length words).foldl (shaBlock p k) h).flatMap
    fun x => (leBytes n x.toNat).reverse

/-- R115: SHA-256. -/
def sha256 (m : List Byte) : List Byte :=
  shaHash ⟨64, (7, 18, 3), (17, 19, 10), (2, 13, 22), (6, 11, 25)⟩
    ((shaK.take 64).map fun k => BitVec.ofNat 32 (k / 2 ^ 32))
    (shaH.map fun k => BitVec.ofNat 32 (k / 2 ^ 32)) m

/-- SHA-512, which Ed25519 uses. -/
def sha512 (m : List Byte) : List Byte :=
  shaHash ⟨80, (1, 8, 7), (19, 61, 6), (28, 34, 39), (14, 18, 41)⟩
    (shaK.map (BitVec.ofNat 64)) (shaH.map (BitVec.ofNat 64)) m

/-! ### Ed25519 -/

/-- The field prime 2²⁵⁵ − 19. -/
def edP : Nat := 2 ^ 255 - 19
/-- The group order. -/
def edL : Nat := 2 ^ 252 + 27742317777372353535851937790883648493

/-- x^e mod p, the exponent's bits taken from the lowest, `fuel` of them. -/
def powMod (p x : Nat) : Nat → Nat → Nat
  | 0, _ => 1
  | fuel + 1, e =>
    let r := powMod p (x * x % p) fuel (e / 2)
    if e % 2 = 1 then x * r % p else r

/-- The curve constant d = −121665 / 121666. -/
def edD : Nat := (edP - 121665) * powMod edP 121666 256 (edP - 2) % edP

/-- A point in extended coordinates (X, Y, Z, T). -/
abbrev EdPoint := Nat × Nat × Nat × Nat

/-- Addition of points. -/
def edAdd (a b : EdPoint) : EdPoint :=
  let p := edP
  let (x1, y1, z1, t1) := a
  let (x2, y2, z2, t2) := b
  let u := (y1 + p - x1) * (y2 + p - x2) % p
  let v := (y1 + x1) * (y2 + x2) % p
  let c := 2 * t1 * t2 % p * edD % p
  let d := 2 * z1 * z2 % p
  let e := v + p - u
  let f := d + p - c
  let g := d + c
  let h := v + u
  (e * f % p, g * h % p, f * g % p, e * h % p)

/-- A multiple of a point, the factor's bits taken from the lowest, `fuel` of them. -/
def edMul (a : EdPoint) : Nat → Nat → EdPoint
  | 0, _ => (0, 1, 1, 0)
  | fuel + 1, k =>
    let r := edMul (edAdd a a) fuel (k / 2)
    if k % 2 = 1 then edAdd a r else r

/-- Equality of points. -/
def edEq (a b : EdPoint) : Bool :=
  let (x1, y1, z1, _) := a
  let (x2, y2, z2, _) := b
  x1 * z2 % edP == x2 * z1 % edP && y1 * z2 % edP == y2 * z1 % edP

/-- The point that 32 bytes encode, if they encode one. -/
def edDecode (bs : List Byte) : Option EdPoint :=
  let v := leNat bs
  let y := v % 2 ^ 255
  let sgn := v / 2 ^ 255
  let u := (y * y + edP - 1) % edP
  let w := (edD * y % edP * y + 1) % edP
  let w3 := w * w % edP * w % edP
  let c := u * w3 % edP * powMod edP (u * (w3 * w3 % edP * w % edP) % edP) 256 ((edP - 5) / 8) % edP
  let root : Option Nat :=
    if w * c % edP * c % edP = u then some c
    else if (w * c % edP * c + u) % edP = 0 then
      some (c * powMod edP 2 256 ((edP - 1) / 4) % edP)
    else none
  if edP ≤ y then none
  else
    match root with
    | none => none
    | some x =>
      if x = 0 ∧ sgn = 1 then none
      else
        let x := if x % 2 = sgn then x else edP - x
        some (x, y, 1, x * y % edP)

/-- R82: the Ed25519 signature verifies under the key over the message. -/
def ed25519Ok (key msg sig : List Byte) : Bool :=
  let base : List Byte := 0x58#8 :: List.replicate 31 0x66#8
  let s := leNat (sig.drop 32)
  match edDecode key, edDecode (sig.take 32), edDecode base with
  | some a, some r, some b =>
    let k := leNat (sha512 (sig.take 32 ++ key ++ msg)) % edL
    decide (s < edL) &&
      edEq (edMul (edMul b 256 s) 8 8) (edMul (edAdd r (edMul a 256 k)) 8 8)
  | _, _, _ => false

/-- R83: the 256 bits of a key digest, byte 0 lowest. -/
def digestBits (d : List Byte) : BitVec 256 := BitVec.ofNat 256 (leNat d)

end Sys2Proof.Machine
end

