-- ==== Sys2Proof/Machine/FlashBus.lean ====
section
/-! DEFINITION. The flash bus: what an operation does to the flash, the commands that carry it, their clocks and what
FL_IO[3:0] carries at each clock (R54, R99, R101 to R105). -/

namespace Sys2Proof.Machine

/-- R99: bytes of the flash; an erased byte reads 0xFF. -/
def State.flashBytes (s : State) (a n : Nat) : List Byte := Memory.readN 0xFF s.flash.mem a n

/-- R99: a block. -/
def blockSize : Nat := 65536

/-- What an operation does to the flash. -/
def FlashOp.apply (o : FlashOp) (m : List Host.Cell) : List Host.Cell :=
  match o with
  | .erase a => Memory.clear m a blockSize
  | .program a b => Memory.writeN 0xFF m a b
  | .readKept => m
  | .readBack => m

/-- An operation takes effect. -/
def State.applyOp (s : State) (o : FlashOp) : State := { s with flash := { s.flash with mem := o.apply s.flash.mem } }

/-- An operation that ended in an error or a timeout, or that a cutoff or a reset cut short, may have taken effect
(log 41). -/
def State.mayApply (s : State) (o : FlashOp) : State :=
  let (n, s) := s.takeFree
  if Config.flashTook n then s.applyOp o else s

/-- R98, R105: the erase or program under way, that of a commit or one that timed out, is cut short. -/
def State.cutOp (s : State) : State :=
  let s := match s.flash.late with
    | some o => s.mayApply o
    | none => s
  match s.flash.run with
  | some r =>
    match r.ops with
    | o :: _ => s.mayApply o
    | [] => s
  | none => s

/-! ### Commands (R102, R103) -/

/-- A command that the device issues (Table: flash commands). `readStatus` is 0x05, 0x35 or 0x3F as 0, 1 or 2. -/
inductive FlashCmd where
  | resetEnable | reset | readSfdp | readId | readStatus (r : Fin 3) | slotRead | areaRead
  | writeEnable | blockErase | pageProgram
  deriving DecidableEq, Repr

/-- The form of a command: opcode, lanes of the address, lanes of the data, address bits, clocks between address and data. -/
structure FlashForm where
  opcode : Nat
  addrLanes : Nat := 1
  dataLanes : Nat := 1
  addrBits : Nat := 0
  dummy : Nat := 0
  deriving DecidableEq, Repr

/-- R54: the dummy clocks of a 1-4-4 read of a flash class; those of a 1-1-4 read are 8. -/
def dummyClocks (cls : Nat) : Nat := if cls % 2 = 0 then 10 else 6

/-- Table: flash commands, for a flash class. -/
def FlashCmd.form (cls : Nat) : FlashCmd → FlashForm
  | .resetEnable => { opcode := 0x66 }
  | .reset => { opcode := 0x99 }
  | .readSfdp => { opcode := 0x5A, addrBits := 24, dummy := 8 }
  | .readId => { opcode := 0x9F }
  | .readStatus r => { opcode := if r = 0 then 0x05 else if r = 1 then 0x35 else 0x3F }
  | .slotRead => { opcode := 0xEC, addrLanes := 4, dataLanes := 4, addrBits := 32, dummy := dummyClocks cls }
  | .areaRead => { opcode := 0x6C, dataLanes := 4, addrBits := 32, dummy := 8 }
  | .writeEnable => { opcode := 0x06 }
  | .blockErase => { opcode := 0xDC, addrBits := 32 }
  | .pageProgram => { opcode := 0x12, addrBits := 32 }

/-- What FL_IO[3:0] carries at a clock of a command; `high` is driven high on all four lines. -/
inductive FlIo where
  | opcode | address | high | dummy | data
  deriving DecidableEq, Repr

/-- R103: the opcode takes eight clocks and the address follows; in a 1-4-4 read the first two of the clocks before the
data drive FL_IO[3:0] high. -/
def FlashCmd.ioAt (c : FlashCmd) (cls clock : Nat) : FlIo :=
  let f := c.form cls
  let a := 8 + f.addrBits / f.addrLanes
  if clock < 8 then .opcode
  else if clock < a then .address
  else if clock < a + f.dummy then (if f.addrLanes = 4 ∧ clock < a + 2 then .high else .dummy)
  else .data

/-- R54: the flash clock limit of the class in MHz. -/
def State.flashMhz (s : State) : Nat := if s.flashClass % 2 = 0 then 133 else 104

/-- R102: the clock of a command in kHz: the flash output is the class limit less 0.1 %, and 1-1-1 commands take a third of
it; with the PLL not locked every command runs at FRC. -/
def State.flashKhz (s : State) (c : FlashCmd) : Nat :=
  if !s.power.locked then 48000
  else if (c.form 0).dataLanes = 4 then 999 * s.flashMhz else 333 * s.flashMhz

/-- R102, R105: the commands of an operation of a commit: write enable before each erase and program, and the busy poll
after it. -/
def FlashOp.commands : FlashOp → List FlashCmd
  | .readKept => [.areaRead]
  | .readBack => [.areaRead]
  | .erase _ => [.writeEnable, .blockErase, .readStatus 0]
  | .program _ _ => [.writeEnable, .pageProgram, .readStatus 0]

/-- R104: the register that holds QE by BFPT DWORD 15 bits 22:20 (log 67). -/
def qeRegister (qer : Nat) : List FlashCmd :=
  if qer = 0 ∨ qer = 7 then []
  else if qer = 2 then [.readStatus 0] else if qer = 3 then [.readStatus 2] else [.readStatus 1]

/-- R75, R102: the commands of admission step 2 on a flash with that requirement. -/
def stepTwoCommands (qer : Nat) : List FlashCmd :=
  [.resetEnable, .reset, .readSfdp, .readId] ++ qeRegister qer ++ [.areaRead, .areaRead, .slotRead, .slotRead]

/-- R102, R105, R489: the commands on the flash bus now: those of the admission step, the poll of a part that stayed busy, the
operation under way, or the read of a repair or a reload. -/
def State.flashBus (s : State) (qer : Nat) : List FlashCmd :=
  if s.pins.flash != .driven || s.adm.dev == .flushed then []
  else if s.adm.flashWaiting then [.readStatus 0]
  else if s.adm.dev == .admitting then
    match s.adm.step with
    | 2 => stepTwoCommands qer
    | 3 => [.slotRead]
    | 8 => [.slotRead]
    | 11 => [.areaRead, .slotRead]
    | _ => []
  else match s.flash.run with
    | some r => (r.ops.head?.map FlashOp.commands).getD []
    | none => if s.hbm.lost || !s.hbm.repairs.isEmpty then [.slotRead] else []

end Sys2Proof.Machine
end

