-- ==== Sys2Proof/Machine/Records.lean ====
section
/-! DEFINITION. The record area: copies, classes, fields and the counter journal (R89 to R92, R99, R107, R134 to R137,
R480 to R486). -/

namespace Sys2Proof.Machine

/-- R99: the first address of a record copy, and its size. -/
def copyBase (i : Nat) : Nat := 0x6010000 + 0x800000 * i
def copySize : Nat := 0x800000

/-- A byte string. -/
def bytesOf (l : List Nat) : List Byte := l.map (BitVec.ofNat 8)

/-- R134: the magic of a record copy; R484: of a counter entry. -/
def recordMagic : List Byte := bytesOf [0x46, 0x48, 0x58, 0x52, 0x45, 0x43, 0x0D, 0x0A]
def entryMagic : List Byte := bytesOf [0x46, 0x48, 0x58, 0x4A]

/-- The longest body (R134). -/
def bodyMax : Nat := 8388352

/-- R135: one entry of the class directory: kind, version, offset, length, fingerprint and commit. -/
structure DirEntry where
  kind : Nat := 0
  version : Nat := 0
  offset : Nat := 0
  length : Nat := 0
  fingerprint : List Byte := []
  commitSeq : Nat := 0
  deriving DecidableEq, Repr, Inhabited

/-- R135: entry i of a body's directory. -/
def dirEntry (body : List Byte) (i : Nat) : DirEntry :=
  let b := sliceB body (32 * i) 32
  { kind := uAt b 0 2, version := uAt b 2 2, offset := uAt b 8 4, length := uAt b 0x0C 4,
    fingerprint := sliceB b 0x10 8, commitSeq := uAt b 0x18 4 }

/-- R135: the directory is well formed. -/
def dirValid (bodyLen count : Nat) (es : List DirEntry) : Bool :=
  decide (bodyLen ≤ bodyMax) && decide (32 * count ≤ bodyLen) &&
    es.all (fun e => e.offset % 64 == 0 && decide (32 * count ≤ e.offset) && decide (e.offset + e.length ≤ bodyLen)) &&
    es.zipIdx.all fun (e, i) => es.zipIdx.all fun (f, j) =>
      decide (j ≤ i) || e.length == 0 || f.length == 0 || decide (e.offset + e.length ≤ f.offset) ||
        decide (f.offset + f.length ≤ e.offset)

/-- R134, R135: a record copy, if it is valid. -/
def State.readCopy (s : State) (i : Nat) : Option Chosen :=
  let h := s.flashBytes (copyBase i) 64
  let len := uAt h 0x0C 4
  let count := uAt h 0x10 2
  if sliceB h 0 8 ≠ recordMagic ∨ bodyMax < len then none
  else
    let body := s.flashBytes (copyBase i + 0x100) len
    let es := (List.range count).map (dirEntry body)
    if (crc32 (sliceB h 0 60 ++ body)).toNat = uAt h 0x3C 4 ∧ dirValid len count es then
      some { copy := i, sequence := uAt h 8 4, bodyLen := len,
             classes := es.map fun e =>
               { kind := e.kind, version := e.version, fingerprint := e.fingerprint, commitSeq := e.commitSeq,
                 bytes := sliceB body e.offset e.length } }
    else none

/-- R89, R134: the copy chosen: the newest valid one; copy 0 where the two are equal. -/
def State.chooseCopy (s : State) : Option Chosen :=
  match s.readCopy 0, s.readCopy 1 with
  | some a, some b => if 0 < (BitVec.ofNat 32 b.sequence - BitVec.ofNat 32 a.sequence).toInt then some b else some a
  | some a, none => some a
  | none, b => b

/-! ### Fields (R136, R137) -/

/-- R136: the fields of a class body as (descriptor, data). -/
def classFields : Nat → List Byte → List (RecField × List Byte)
  | 0, _ => []
  | fuel + 1, b =>
    if b.length < 8 then []
    else
      let f : RecField := { id := uAt b 0 2, size := uAt b 2 1, count := uAt b 4 4 }
      let n := f.size * f.count
      (f, sliceB b 8 n) :: classFields fuel (b.drop (8 + ceilDiv n 8 * 8))

/-- R137: a field of a class where id, size and count match a declaration. -/
def RecClass.field (c : RecClass) (f : RecField) : Option (List Byte) :=
  ((classFields c.bytes.length c.bytes).find? (·.1 == f)).map (·.2)

/-- R132: the write entry of a pattern, and the entries that it reads. -/
def Pattern.writes (p : Pattern) : RecEntry := p.recd.headD {}
def Pattern.reads (p : Pattern) : List RecEntry := p.recd.filter (·.role != 0)

/-- A trim word (R177). -/
def Trim.word (t : Trim) : Nat := t.g + 65536 * unsigned 16 t.f
def trimOf (w : Nat) : Trim := { g := w % 65536, f := signed 16 (w / 65536) }

/-- R177: the trim words of the arrays from index i on, n of them with c columns. -/
def State.trimWords (s : State) (i n c : Nat) : List Nat :=
  (List.range n).flatMap fun k =>
    let a := (s.sentinel.arrays.toList.getD (i + k) {}).trims
    (List.range c).map fun j => (a.getD j {}).word

/-- R403: the latency results last committed: generation, G, and the mean and the maximum of each port. -/
def State.latencyWords (s : State) : List Nat :=
  let (g, ports) := match s.bolt.graceNext.getLast? with
    | some (_, g, ms) => (g, ms)
    | none => (s.bolt.grace, s.bolt.links.toList.map fun (l : BoltLink) => l.mean.map fun m => (m, l.maxOneWay))
  [s.bolt.latGen.toNat, g] ++ ports.flatMap fun x =>
    match x with
    | some (m, n) => [m, n]
    | none => [0, 0]

/-- R480: the live value of a record field. -/
def State.liveField (s : State) (id : Nat) : List Byte :=
  let c := s.intake.coef
  match id with
  | 1 => c.g.flatMap (leBytes 2)
  | 2 => c.o.flatMap fun v => leBytes 2 (unsigned 16 v)
  | 3 => (s.trimWords 0 8 68).flatMap (leBytes 4)
  | 4 => (s.trimWords 8 32 132).flatMap (leBytes 4)
  | 5 => c.m.flatMap (leBytes 2)
  | 6 => s.latencyWords.flatMap (leBytes 4)
  | 7 => s.flash.counters.flatMap (leBytes 8)
  | _ => []

/-- R480: the value of a field that a commit writes: staged, or live. -/
def State.fieldValue (s : State) (id : Nat) : List Byte :=
  match s.flash.staged.find? (·.1 == id) with
  | some (_, b) => b
  | none => s.liveField id

/-- R481: the value of a declared field in the chosen copy, in the class that the pattern writes. -/
def State.committedField (s : State) (f : RecField) : Option (List Byte) :=
  let w := s.pat.writes
  (((s.adm.chosen.map (·.classes)).getD []).find? fun c => c.kind == w.kind && c.version == w.version).bind (·.field f)

/-- R481: the fields whose live values are calibration: trims, cross-web coefficients and latency results. -/
def calibrationFields : List Nat := [3, 4, 5, 6]

/-- R481: the record is dirty: a staged field or a live calibration value that the pattern writes differs from its value in
the chosen copy. -/
def State.recordDirty (s : State) : Bool :=
  s.pat.writes.fields.any fun f =>
    (calibrationFields.contains f.id || s.flash.staged.any (·.1 == f.id)) &&
      s.committedField f != some (sliceB (s.fieldValue f.id) 0 (f.size * f.count))

/-- R136: a field as written: its head, then its data of the declared size, padded with zeros to a multiple of 8 bytes. -/
def State.fieldBytes (s : State) (f : RecField) : List Byte :=
  let n := f.size * f.count
  leBytes 2 f.id ++ leBytes 1 f.size ++ leBytes 1 0 ++ leBytes 4 f.count
    ++ sliceB (sliceB (s.fieldValue f.id) 0 n) 0 (ceilDiv n 8 * 8)

/-- R136, R138: the class that a record commit writes. -/
def State.writtenClass (s : State) (sequence : Nat) : RecClass :=
  let w := s.pat.writes
  { kind := w.kind, version := w.version, fingerprint := s.pat.head.fingerprint, commitSeq := sequence,
    bytes := w.fields.flatMap s.fieldBytes }

/-- R91: a class of the chosen copy that a commit keeps: not the written one, and protected by a slot that declares it or
cannot be read. -/
def State.keeps (s : State) (c : RecClass) : Bool :=
  let w := s.pat.writes
  !(c.kind == w.kind && c.version == w.version) &&
    (s.pat.recd.any (fun e => e.kind == c.kind && e.version == c.version) ||
      match s.adm.otherReads with
      | none => true
      | some l => l.contains (c.kind + 65536 * c.version))

/-- R91: the kept classes. -/
def State.keptClasses (s : State) : List RecClass := ((s.adm.chosen.map (·.classes)).getD []).filter s.keeps

/-- R135: the offsets of classes of given lengths, from an offset. -/
def classOffsets : Nat → List Nat → List Nat
  | _, [] => []
  | o, n :: ns => let o := ceilDiv o 64 * 64; o :: classOffsets (o + n) ns

/-- R135: a body: the directory, then the classes. -/
def recordBody (cs : List RecClass) : List Byte :=
  let offs := classOffsets (32 * cs.length) (cs.map (·.bytes.length))
  let dir := (cs.zip offs).flatMap fun (c, o) =>
    leBytes 2 c.kind ++ leBytes 2 c.version ++ leBytes 4 0 ++ leBytes 4 o ++ leBytes 4 c.bytes.length
      ++ sliceB c.fingerprint 0 8 ++ leBytes 4 c.commitSeq ++ leBytes 4 0
  (cs.zip offs).foldl (fun b (c, o) => b ++ List.replicate (o - b.length) 0 ++ c.bytes) dir

/-- R134: the header of a copy. -/
def recordHeader (sequence count : Nat) (body : List Byte) : List Byte :=
  let h := recordMagic ++ leBytes 4 sequence ++ leBytes 4 body.length ++ leBytes 2 count ++ List.replicate 42 0
  h ++ leBytes 4 (crc32 (h ++ body)).toNat

/-- R92: the bytes of a copy that the kept classes and the written class need. -/
def State.recordBytes (s : State) : Nat := 0x100 + (recordBody (s.keptClasses ++ [s.writtenClass 0])).length

/-! ### The counter journal (R483 to R485) -/

/-- R483: the first journal block of a copy whose body has a length, and J. -/
def journalFirst (bodyLen : Nat) : Nat := ceilDiv (0x100 + bodyLen) blockSize
def journalBlocks (bodyLen : Nat) : Nat := min 64 (128 - journalFirst bodyLen)

/-- R483: the address of the block of entry i, and of its slot. -/
def journalBlock (c : Chosen) (i : Nat) : Nat :=
  copyBase c.copy + (journalFirst c.bodyLen + i / 64 % max 1 (journalBlocks c.bodyLen)) * blockSize
def journalSlot (c : Chosen) (i : Nat) : Nat := journalBlock c i + i % 64 * 1024

/-- R484: a counter entry. -/
def State.counterEntry (s : State) (sequence index : Nat) : List Byte :=
  let w := s.pat.writes
  let b := entryMagic ++ leBytes 4 sequence ++ leBytes 4 index ++ leBytes 2 w.kind ++ leBytes 2 w.version
    ++ List.replicate 16 0 ++ s.flash.counters.flatMap (leBytes 8) ++ List.replicate 220 0
  b ++ leBytes 4 (crc32 b).toNat

/-- R485: the valid entry in a slot of a copy: its index, kind, version and counters. -/
def State.readEntry (s : State) (c : Chosen) (slot : Nat) : Option (Nat × Nat × Nat × List Nat) :=
  let b := s.flashBytes (journalSlot c slot) 0x300
  if sliceB b 0 4 = entryMagic ∧ (crc32 (sliceB b 0 0x2FC)).toNat = uAt b 0x2FC 4 ∧ uAt b 4 4 = c.sequence then
    some (uAt b 8 4, uAt b 0x0C 2, uAt b 0x0E 2, (List.range 64).map fun i => uAt b (0x20 + 8 * i) 8)
  else none

/-- R485: the entry of highest index of a copy's journal. -/
def State.newestEntry (s : State) (c : Chosen) : Option (Nat × Nat × Nat × List Nat) :=
  (List.range (64 * journalBlocks c.bodyLen)).foldl (fun best i =>
    match s.readEntry c i, best with
    | some e, some b => if b.1 < e.1 then some e else some b
    | some e, none => some e
    | none, b => b) none

end Sys2Proof.Machine
end

