-- ==== Sys2Proof/Machine/Image.lean ====
section
/-! DEFINITION. The pattern image: HEAD, the section table and the sections read from a slot (R106 to R133), and the loading
of HBM and of the weight tables (R86, R87, R269, R285, R288). An array that would run past the end of its section is
read up to that end and noted as a breach of the section's code (log 47). -/

namespace Sys2Proof.Machine

/-! ### HEAD and the section table (R99, R108 to R113) -/

/-- R99: the first address of a slot, 0 for A and 1 for B. -/
def slotBase (slot : Nat) : Nat := if slot = 0 then 0x10000 else 0x3010000

/-- R108: the magic of HEAD. -/
def headMagic : List Byte := bytesOf [0x46, 0x48, 0x58, 0x50, 0x41, 0x54, 0x0D, 0x0A]

/-- R108: HEAD from its 256 bytes. -/
def parseHead (b : List Byte) : Head :=
  { bytes := b, magicOk := sliceB b 0 8 == headMagic, major := uAt b 8 1, minor := uAt b 9 1, flags := uAt b 0x0A 2,
    headLen := uAt b 0x0C 4, total := uAt b 0x10 4, issue := uAt b 0x14 4, fingerprint := sliceB b 0x18 8,
    sections := uAt b 0x20 2, tableOff := uAt b 0x24 4, tableCrc := uAt b 0x28 4, stepCount := uAt b 0x30 1,
    steppings := (List.range 16).map fun i => uAt b (0x34 + 2 * i) 2,
    crcOk := (crc32 (sliceB b 0 0xFC)).toNat == uAt b 0xFC 4 }

/-- R76: HEAD passes its magic and its CRC-32. -/
def Head.readable (h : Head) : Bool := h.magicOk && h.crcOk

/-- R109: HEAD passes its magic, its length and its CRC-32. -/
def Head.ok (h : Head) : Bool := h.readable && h.headLen == 256

/-- R109: a total length that check 3 of R80 passes. -/
def Head.totalOk (h : Head) : Bool := h.total % 64 == 0 && decide (384 ≤ h.total) && decide (h.total ≤ 50331648)

/-- R108: HEAD of a slot. -/
def State.readHead (s : State) (slot : Nat) : Head := parseHead (s.flashBytes (slotBase slot) 256)

/-- Table: sections: the tags, as little-endian numbers. -/
def tagIntk : Nat := 0x4B544E49
def tagFlat : Nat := 0x54414C46
def tagSntl : Nat := 0x4C544E53
def tagPanl : Nat := 0x4C4E4150
def tagTile : Nat := 0x454C4954
def tagWght : Nat := 0x54484757
def tagTabl : Nat := 0x4C424154
def tagHist : Nat := 0x54534948
def tagMark : Nat := 0x4B52414D
def tagBolt : Nat := 0x544C4F42
def tagVote : Nat := 0x45544F56
def tagDlin : Nat := 0x4E494C44
def tagCtrl : Nat := 0x4C525443
def tagRecd : Nat := 0x44434552
def tagSign : Nat := 0x4E474953

/-- R112, R113: every tag with the length of the fixed part of its layout. -/
def sectionFixed : List (Nat × Nat) :=
  [(tagIntk, 0x58), (tagFlat, 0x10), (tagSntl, 0x40), (tagPanl, 0x100), (tagTile, 0x40), (tagWght, 0x40),
   (tagTabl, 8), (tagHist, 0x40)] ++
  [(tagMark, 0x10), (tagBolt, 0x10), (tagVote, 0x10), (tagDlin, 0x20), (tagCtrl, 0x80), (tagRecd, 4), (tagSign, 160)]

/-- R113: the tags that a pattern needs. -/
def requiredTags (sealing : Bool) : List Nat :=
  if sealing then [tagCtrl, tagSign]
  else (sectionFixed.map (·.1)).filter fun t => t != tagTabl && t != tagHist

/-- R111: a section-table entry from its 32 bytes. -/
def parseEntry (b : List Byte) : SectionEntry :=
  { tag := uAt b 0 4, version := uAt b 4 2, offset := uAt b 8 4, length := uAt b 0x0C 4, crc := uAt b 0x10 4 }

/-- R111: the section table of a slot, at most 15 entries. -/
def State.readTable (s : State) (slot : Nat) (h : Head) : List SectionEntry :=
  (List.range (min h.sections 15)).map fun i => parseEntry (s.flashBytes (slotBase slot + 0x100 + 32 * i) 32)

/-- R112: the entries ascend without overlap. -/
def ascendingSections : List SectionEntry → Bool
  | a :: b :: l => decide (a.offset < b.offset) && decide (a.offset + a.length ≤ b.offset) && ascendingSections (b :: l)
  | _ => true

/-- R112: the section table is malformed. -/
def State.tableMalformed (s : State) (slot : Nat) (h : Head) : Bool :=
  let es := s.readTable slot h
  h.sections == 0 || decide (15 < h.sections) || h.tableOff != 0x100 ||
    (crc32 (s.flashBytes (slotBase slot + 0x100) (32 * h.sections))).toNat != h.tableCrc ||
    es.any (fun e => (sectionFixed.find? (·.1 == e.tag)).isNone || e.offset % 64 != 0 ||
      decide (h.total < e.offset + e.length) ||
      decide (e.length < ((sectionFixed.find? (·.1 == e.tag)).map (·.2)).getD 0)) ||
    (es.head?.map fun e => decide (e.offset < ceilDiv (0x100 + 32 * h.sections) 64 * 64)).getD true ||
    !ascendingSections es

/-- The bytes of a section of a slot. -/
def State.sectionBytes (s : State) (slot : Nat) (e : SectionEntry) : List Byte :=
  s.flashBytes (slotBase slot + e.offset) e.length

/-- R111: the CRC-32 of a section holds. -/
def State.sectionOk (s : State) (slot : Nat) (e : SectionEntry) : Bool :=
  (crc32 (s.sectionBytes slot e)).toNat == e.crc

/-- R113: a required tag is missing, or a tag appears twice. -/
def sectionsIncomplete (sealing : Bool) (es : List SectionEntry) : Bool :=
  (requiredTags sealing).any (fun t => es.all (·.tag != t)) ||
    es.any fun e => decide (1 < es.countP (·.tag == e.tag))

/-- R115: the SHA-256 digest over all sections other than SIGN. -/
def State.slotDigest (s : State) (slot : Nat) (es : List SectionEntry) : List Byte :=
  sha256 ((es.filter (·.tag != tagSign)).flatMap fun e =>
    leBytes 4 e.tag ++ leBytes 2 e.version ++ leBytes 4 e.length ++ s.sectionBytes slot e)

/-! ### The sections (R118 to R133) -/

/-- R119: INTK. -/
def parseIntk (b : List Byte) : Intk :=
  { source := uAt b 0 1, other := uAt b 1 1, k := uAt b 2 2, tol := uAt b 4 4, n0 := uAt b 8 4, n1 := uAt b 0x0C 4,
    mask := uAt b 0x10 1 % 16, depth := uAt b 0x11 1, width := uAt b 0x14 4,
    ports := (List.range 4).map fun i =>
      let d := sliceB b (0x18 + 16 * i) 16
      { lanes := uAt d 0 1, dataType := uAt d 1 1, vc := uAt d 2 1, lineStart := bitAt (uAt d 3 1) 0, pixels := uAt d 4 2,
        ltrim := uAt d 6 2, rtrim := uAt d 8 2, rate := uAt d 0x0A 2 } }

/-- R120: FLAT; `length` is the section's. -/
def parseFlat (b : List Byte) : Flat :=
  let n := min (uAt b 0 4) (b.length / 4)
  { count := uAt b 0 4, gains := (List.range n).map fun i => uAt b (0x10 + 2 * i) 2,
    offsets := (List.range n).map fun i => sAt b (0x10 + 2 * n + 2 * i) 2 }

/-- R121, R188: SNTL with its head-parameter block. -/
def parseSntl (b : List Byte) : Sntl :=
  let off := uAt b 0x10 4
  let len := uAt b 0x14 4
  let h := sliceB b off len
  let f := uAt h 2 2
  let groupOf := (List.range 8).map fun i => uAt h (4 + i) 1
  let stride := uAt b 0x0C 4
  { macros := uAt b 0 1, wbits := uAt b 1 1, ibits := uAt b 2 1, mode := uAt b 3 1, swath := uAt b 4 2, patch := uAt b 6 2,
    threshold := sAt b 8 2, watch := uAt b 0x0A 2, stride := stride, headOff := off, headLen := len,
    images := (List.range (groupOf.countP (· != 0xFF))).map fun i => sliceB b (0x40 + i * stride) 2048
    groups := uAt h 0 1, shift := uAt h 1 1, features := f, groupOf := groupOf, bias := sAt h 0x10 8
    a := (List.range f).map fun i => sAt h (0x18 + 4 * i) 4, q := (List.range f).map fun i => sAt h (0x18 + 4 * f + 2 * i) 2 }

/-- n little-endian 64-bit words from an offset, up to the section's end. -/
def wordsAt (b : List Byte) (off n : Nat) : List (BitVec 64) :=
  (List.range (min n ((b.length - off) / 8))).map fun i => BitVec.ofNat 64 (uAt b (off + 8 * i) 8)

/-- R122: PANL. -/
def parsePanl (b : List Byte) : List PanlEntry :=
  (List.range 16).map fun i =>
    let d := sliceB b (16 * i) 16
    { offset := uAt d 0 4, count := uAt d 4 4, group := uAt d 8 2, words := wordsAt b (uAt d 0 4) (uAt d 4 4) }

/-- R253: one TILE descriptor. -/
def parseTile (d : List Byte) : TileDesc :=
  { space := uAt d 0 1, fmt := uAt d 1 1, form := uAt d 2 1, budget := uAt d 3 1, perm := uAt d 4 1, first := uAt d 5 1,
    blocked := uAt d 6 1, layout := uAt d 7 1, tid := uAt d 8 4, base := uAt d 0x10 8,
    ext := (List.range 5).map fun i => uAt d (0x18 + 2 * i) 2,
    stride := (List.range 5).map fun i => sAt d (0x24 + 4 * i) 4 }

/-- R123: TILE. -/
def parseTiles (b : List Byte) : List TileDesc :=
  (List.range (min (uAt b 0 4) ((b.length - 0x40) / 64))).map fun i => parseTile (sliceB b (0x40 + 64 * i) 64)

/-- R124: the WGHT directory. -/
def parseWght (b : List Byte) : List WghtEntry :=
  (List.range (min (uAt b 0 4) ((b.length - 0x40) / 48))).map fun i =>
    let d := sliceB b (0x40 + 48 * i) 48
    { tid := uAt d 0 4, fmt := uAt d 4 1, flags := uAt d 5 1, latBits := uAt d 6 1, rank := uAt d 7 1,
      dims := (List.range 4).map fun j => uAt d (8 + 4 * j) 4, hbmOff := uAt d 0x18 8, dataOff := uAt d 0x20 4,
      dataLen := uAt d 0x24 4 }

/-- R125, R281: the TABL entries. -/
def parseTabl (b : List Byte) : List TablEntry :=
  (List.range (min (uAt b 4 2) ((b.length - 8) / 16))).map fun i =>
    let d := sliceB b (8 + 16 * i) 16
    let off := uAt d 8 4
    let len := uAt d 0x0C 4
    let t := parseShipped (if off + len ≤ b.length then sliceB b off len else [])
    { tid := uAt d 0 4, mode := uAt d 4 1, budget := uAt d 5 1, off := off, len := len, ok := t.isSome,
      lens := t.getD [] }

/-- R126: HIST. -/
def parseHist (b : List Byte) : Hist :=
  { cRoll := uAt b 0 4, lSeg := uAt b 4 4, segPerRev := uAt b 8 4, revs := uAt b 0x0C 2, keyW := uAt b 0x0E 2,
    valW := uAt b 0x10 2, fmt := uAt b 0x12 1, budget := uAt b 0x13 1, resident := uAt b 0x14 4, spill := uAt b 0x18 8,
    grace := uAt b 0x20 4, image := (b.drop 0x40).take (uAt b 0x24 4) }

/-- R127: the MARK entries. -/
def parseMarks (b : List Byte) : List MarkEntry :=
  (List.range (min (uAt b 0 1) ((b.length - 0x10) / 16))).map fun i =>
    let d := sliceB b (0x10 + 16 * i) 16
    { marker := uAt d 0 1, trigger := uAt d 1 1, offset := uAt d 4 4, width := uAt d 8 4, mask := uAt d 0x0C 4 }

/-- R128: the BOLT device entries. -/
def parseBolt (b : List Byte) : List BoltEntry :=
  (List.range (min (uAt b 0 2) ((b.length - 0x10) / 16))).map fun i =>
    let d := sliceB b (0x10 + 16 * i) 16
    { addr := uAt d 0 2, roles := uAt d 2 1, seams := uAt d 3 1, westHalo := uAt d 4 2, eastHalo := uAt d 6 2,
      segWidth := uAt d 8 2, posFrom := uAt d 0x0A 1, offset := sAt d 0x0C 4 }

/-- R129: the VOTE domain entries. -/
def parseVotes (b : List Byte) : List VoteEntry :=
  (List.range (min (uAt b 2 2) ((b.length - 0x10) / 16))).map fun i =>
    let d := sliceB b (0x10 + 16 * i) 16
    { id := uAt d 0 2, low := uAt d 2 1, hyst := uAt d 4 4, mask := uAt d 8 8 }

/-- R130: DLIN. -/
def parseDlin (b : List Byte) : Dlin :=
  { cMax := uAt b 0 4, lMax := uAt b 4 4, horizon := uAt b 8 4, stopUs := uAt b 0x0C 4, restart := uAt b 0x10 1,
    slip := uAt b 0x11 1, density := uAt b 0x14 4, span := uAt b 0x18 4,
    slots := (List.range (min (uAt b 0x12 2) ((b.length - 0x20) / 16))).map fun i =>
      let d := sliceB b (0x20 + 16 * i) 16
      { id := uAt d 0 2, flags := uAt d 2 2, deadline := uAt d 4 4, plifer := uAt d 8 4, depth := uAt d 0x0C 4 } }

/-- R132: n RECD entries from their bytes; none where they run past the end of the section. -/
def parseRecd : Nat → List Byte → Option (List RecEntry)
  | 0, _ => some []
  | n + 1, b =>
    let k := uAt b 5 1
    if b.length < 8 + 8 * k then none
    else
      let fs := (List.range k).map fun i =>
        ({ id := uAt b (8 + 8 * i) 2, size := uAt b (8 + 8 * i + 2) 1, count := uAt b (8 + 8 * i + 4) 4 } : RecField)
      (parseRecd n (b.drop (8 + 8 * k))).map fun l =>
        { kind := uAt b 0 2, version := uAt b 2 2, role := uAt b 4 1, fields := fs } :: l

/-- R132: the entries of a RECD section, if it is well formed: one write entry, and first. Any role but 0 counts as a read
entry, and an element size is kept as written (log 111). -/
def readRecd (b : List Byte) : Option (List RecEntry) :=
  match parseRecd (uAt b 0 2) (b.drop 4) with
  | some (e :: l) => if e.role = 0 ∧ l.all (·.role != 0) then some (e :: l) else none
  | _ => none

/-- R133: SIGN. -/
def parseSign (b : List Byte) : SignSec :=
  { present := bitAt (uAt b 0 1) 0, digest := sliceB b 0x20 32, key := sliceB b 0x40 32, signature := sliceB b 0x60 64 }

/-- Codes of the arrays that run past the ends of their sections, and of counts and strides with one allowed value. -/
def sectionBreaches (sec : Nat → Option (List Byte)) : List Nat :=
  let past (tag at_ n first size code : Nat) : List Nat := match sec tag with
    | some b => if b.length < first + size * uAt b at_ n then [code] else []
    | none => []
  let one (tag : Nat) (f : List Byte → List Nat) : List Nat := ((sec tag).map f).getD []
  past tagTile 0 4 0x40 64 0x13 ++ past tagWght 0 4 0x40 48 0x16 ++ past tagTabl 4 2 8 16 0x13
    ++ past tagMark 0 1 0x10 16 0x18 ++ past tagBolt 0 2 0x10 16 0x32 ++ past tagVote 2 2 0x10 16 0x1B
    ++ past tagDlin 0x12 2 0x20 16 0x29 ++ past tagCtrl 0x2C 4 0x80 8 0x17 ++ past tagHist 0x24 4 0x40 1 0x19
    ++ one tagFlat (fun b => if b.length < 16 + 4 * uAt b 0 4 then [0x10] else [])
    ++ one tagTile (fun b => if uAt b 4 4 = 64 then [] else [0x13])
    ++ one tagBolt (fun b => if uAt b 0 2 = 0 ∨ 32768 < uAt b 0 2 then [0x32] else [])
    ++ one tagMark (fun b => if 8 < uAt b 0 1 then [0x18] else [])
    ++ one tagTabl (fun b => if uAt b 0 4 < 16 ∨ 2 ^ 24 < uAt b 0 4 then [0x13] else [])
    ++ one tagPanl (fun b => if (parsePanl b).any fun e => e.offset % 8 != 0 ||
        (e.count != 0 && decide (e.words.length < e.count)) then [0x17] else [])
    ++ one tagSntl (fun b =>
      let n := parseSntl b
      if b.length < n.headOff + n.headLen ∨ b.length < 0x40 + n.images.length * n.stride then [0x12] else [])

/-- The pattern that the sections of a slot hold. -/
def State.readPattern (s : State) (slot : Nat) : Pattern :=
  let h := s.readHead slot
  let es := s.readTable slot h
  let sec (tag : Nat) : Option (List Byte) := (es.find? (·.tag == tag)).map (s.sectionBytes slot)
  let get (tag : Nat) : List Byte := (sec tag).getD []
  let vote := get tagVote
  let ctrl := get tagCtrl
  { head := h, table := es, intk := parseIntk (get tagIntk), flat := parseFlat (get tagFlat), sntl := parseSntl (get tagSntl),
    panl := parsePanl (get tagPanl), tiles := parseTiles (get tagTile), wght := parseWght (get tagWght),
    footprint := uAt (get tagWght) 8 8, window := ((sec tagTabl).map fun b => uAt b 0 4).getD 4096,
    tabl := (sec tagTabl).map parseTabl, hist := (sec tagHist).map parseHist, marks := parseMarks (get tagMark),
    markFires := uAt (get tagMark) 2 2, boltMaster := uAt (get tagBolt) 2 2, boltCollector := uAt (get tagBolt) 4 2,
    bolt := parseBolt (get tagBolt), voteNormal := uAt vote 0 1, voteDegraded := uAt vote 1 1, restMs := uAt vote 4 4,
    deepS := uAt vote 8 4, votes := parseVotes vote, dlin := parseDlin (get tagDlin), bound := sliceB ctrl 0 0x2C,
    ctrl := wordsAt ctrl 0x80 (uAt ctrl 0x2C 4), entries := (List.range 8).map fun i => uAt ctrl (0x30 + 4 * i) 4,
    recd := (readRecd (get tagRecd)).getD [], sign := parseSign (get tagSign), breaches := sectionBreaches sec }

/-! ### Loading HBM (R86, R269, R285, R288) -/

/-- R269: bytes of the staging area and of HBM. -/
def hbmSize : Nat := 2 ^ 34

/-- R124: the flags of a WGHT entry. -/
def WghtEntry.expCoded (e : WghtEntry) : Bool := bitAt e.flags 0
def WghtEntry.lattice (e : WghtEntry) : Bool := bitAt e.flags 1

/-- R124: the number of elements of a tensor, and the bytes of its raw data. -/
def WghtEntry.count (e : WghtEntry) : Nat := (e.dims.take e.rank).foldl (· * ·) 1
def WghtEntry.rawBytes (e : WghtEntry) : Nat :=
  if e.fmt = fmtBX8 then ceilDiv e.count 32 * 33 else ceilDiv (e.count * fmtBits e.fmt) 8

/-- R284: the bytes that a tensor takes in HBM: whole places of 128 bytes where it is exponent-coded. -/
def WghtEntry.hbmBytes (e : WghtEntry) : Nat := if e.expCoded then ceilDiv e.count 64 * 128 else e.rawBytes

/-- The raw data of a tensor in the slot. -/
def State.tensorData (s : State) (slot : Nat) (e : WghtEntry) : List Byte :=
  match s.pat.table.find? (·.tag == tagWght) with
  | some x => s.flashBytes (slotBase slot + x.offset + e.dataOff) e.rawBytes
  | none => []

/-- R284: the blocks of 64 elements of a flagged tensor, the last padded with +0. -/
def State.tensorBlocks (s : State) (slot : Nat) (e : WghtEntry) : List (List Nat) :=
  let b := s.tensorData slot e
  (List.range (ceilDiv e.count 64)).map fun i => (List.range 64).map fun j => uAt b (128 * i + 2 * j) 2

/-- R86, R269, R288: a tensor written to HBM; a flagged one in blocks coded with its table, once that is kept. -/
def State.loadTensor (s : State) (slot : Nat) (e : WghtEntry) : State :=
  if e.lattice then s
  else if e.expCoded then
    let blocks := s.tensorBlocks slot e
    let b := match s.tables.find e.tid with
      | some t => blocks.flatMap (encodeExp t.lens e.fmt)
      | none => blocks.flatMap fun l => l.flatMap (leBytes 2)
    s.writeHbm e.hbmOff b
  else s.writeHbm e.hbmOff (s.tensorData slot e)

/-- R86, R269: the weights, the FLAT section and the initial history image are written to HBM. -/
def State.loadHbm (s : State) (slot : Nat) : State :=
  let s := { s with hbm := { s.hbm with mem := [], errors := [] } }
  let s := s.pat.wght.foldl (fun s e => s.loadTensor slot e) s
  let s := match s.pat.table.find? (·.tag == tagFlat) with
    | some e => s.writeHbm s.pat.flatBase (s.sectionBytes slot e)
    | none => s
  match s.pat.hist with
  | some h => s.writeHbm s.pat.historyBase h.image
  | none => s

/-- R86, R272: the sections that are loaded still pass their CRC-32. -/
def State.loadOk (s : State) (slot : Nat) : Bool :=
  s.pat.table.all fun e =>
    !(e.tag == tagWght || e.tag == tagFlat || e.tag == tagHist) || s.sectionOk slot e

/-! ### Weight tables and the table store (R277, R285, R293, R298) -/

/-- R285: the table of a flagged tensor. -/
def State.weightTable (s : State) (slot : Nat) (e : WghtEntry) : CodeTable × Bool :=
  let (lens, flat) := exponentTable e.fmt (s.tensorBlocks slot e)
  ({ tid := e.tid, fmt := e.fmt, lens := lens, shipped := true, frozen := true, crc := lensCrc lens }, flat)

/-- R293, R298: the TABL entry of a tensor id. -/
def Pattern.tablEntry (p : Pattern) (tid : Nat) : Option TablEntry := (p.tabl.getD []).find? (·.tid == tid)

/-- R277, R293: the form-1 tensor ids of the descriptors, each with its format and budget, once. -/
def Pattern.formOneIds (p : Pattern) : List (Nat × Nat × Nat) :=
  p.tiles.foldl (fun l d =>
    if d.form = 1 ∧ d.tid ≠ histTid ∧ l.all (·.1 != d.tid) then l ++ [(d.tid, d.fmt, d.budget)] else l) []

/-- R293, R298: the activation and history tables as READY finds them. -/
def Pattern.valueTables (p : Pattern) : List CodeTable :=
  (p.formOneIds ++ (match p.hist with
    | some h => [(histTid, h.fmt, h.budget)]
    | none => [])).map fun (tid, fmt, budget) =>
      match p.tablEntry tid with
      | some e =>
        if e.mode = 1 then
          { tid := tid, fmt := fmt, budget := budget, lens := e.lens, shipped := true, frozen := true,
            crc := lensCrc e.lens }
        else { tid := tid, fmt := fmt, budget := budget, counts := List.replicate 256 0 }
      | none => { tid := tid, fmt := fmt, budget := budget, counts := List.replicate 256 0 }

/-- R285: admission step 9: the weight tables are built and the flagged tensors coded. -/
def State.buildWeights (s : State) (slot : Nat) : State :=
  let flagged := s.pat.wght.filter fun e => e.expCoded && !e.lattice
  let made := flagged.map (s.weightTable slot)
  let s := { s with tables :=
    { store := made.map (·.1) ++ s.pat.valueTables, flatTensors := made.countP (·.2) } }
  flagged.foldl (fun s e => s.loadTensor slot e) s

end Sys2Proof.Machine
end

