-- ==== Sys2Proof/Machine/Checks.lean ====
section
/-! DEFINITION. Admission steps 5, 6 and 7 over the section fields: ranges, capacities and bounds that need no program
(R14, R22, R24, R49, R119 to R132, R144, R149, R163, R188 to R193, R260, R269, R281, R370, R381, R396, R407, R411, R420,
R432, R441). Each check answers the refusal codes of Table: refusal codes that it finds; step 5 and 6 checks of the
programs are in Machine/ProgramChecks.lean and Machine/Model.lean. -/

namespace Sys2Proof.Machine

/-- A refusal code where a breach is found. -/
def flag (bad : Bool) (code : Nat) : List Nat := if bad then [code] else []

/-- R85: the lowest of the codes found in a step. -/
def lowestCode (l : List Nat) : Option Nat := l.min?

/-- R118: a format code that is not reserved. -/
def fmtOk (f : Nat) : Bool := decide (f ≤ fmtBX8)

/-! ### Step 5: capacities (R85, R95) -/

/-- R142: the data type of a pixel depth. -/
def dataTypeOf (d : Nat) : Nat := if d = 8 then 0x2A else if d = 10 then 0x2B else if d = 12 then 0x2C else 0

/-- R119, R142, R149: one used port. -/
def IntkPort.bad (q : IntkPort) (depth : Nat) : Bool :=
  !(decide (1 ≤ q.lanes ∧ q.lanes ≤ 4 ∧ q.vc ≤ 3 ∧ 1 ≤ q.pixels ∧ q.pixels ≤ 8192 ∧ 1 ≤ q.rate ∧ q.rate ≤ 2500 ∧
    q.ltrim + q.rtrim < q.pixels) && q.dataType == dataTypeOf depth)

/-- R119, R120, R142, R149: intake geometry and the FLAT count. -/
def Pattern.intakeCodes (p : Pattern) : List Nat :=
  let i := p.intk
  let used := p.usedPorts.map fun n => i.ports.getD n {}
  flag (decide (1 < i.source) || decide (1 < i.other) || (i.other == 1 && i.k == 0)) 0x10
    ++ flag (dataTypeOf i.depth == 0 || used.any (·.bad i.depth)) 0x10
    ++ flag (decide (16384 < i.width) || i.width != (used.map fun q => q.pixels - q.ltrim - q.rtrim).sum) 0x10
    ++ flag (p.flat.count != i.width) 0x10

/-- R163: the deepest slot read and 32 lines exceed the bobbin. -/
def Pattern.bobbinCodes (p : Pattern) : List Nat :=
  flag (decide (p.bobbinDepth < (p.dlin.slots.map (·.depth)).foldl max 0 + 32)) 0x11

/-- R178, R179: the least and the greatest result y of the sentinel's macros. -/
def Sntl.yRange (n : Sntl) : Int × Int :=
  let slots : Int := if n.mode = 1 then 1 else 4
  let fl : Int := offsetLimit (n.mode == 1)
  let top : Int := codeMax (n.mode == 1)
  let hi : Int := slots * ((256 * top + fl) * 5 / 4)
  let lo : Int := -(slots * (fl * 5 / 4))
  let planes : Int := ((2 ^ n.ibits - 1 : Nat) : Int)
  if n.wbits = 1 then (planes * (2 * lo - 256 * 256), planes * (2 * hi))
  else
    let pos : Int := ((2 ^ (n.wbits - 1) - 1 : Nat) : Int)
    let neg : Int := ((2 ^ (n.wbits - 1) : Nat) : Int)
    (planes * (pos * lo - neg * hi), planes * (pos * hi - neg * lo))

/-- R189: the worst case of the confidence's sum leaves 64-bit two's complement. -/
def Sntl.headOverflows (n : Sntl) : Bool :=
  let (ylo, yhi) := n.yRange
  let terms := (n.a.zip n.q).map fun (a, q) => (q * max 0 (ylo + a), q * max 0 (yhi + a))
  let lo := n.bias + (terms.map fun (x, y) => min x y).sum
  let hi := n.bias + (terms.map fun (x, y) => max x y).sum
  decide (lo < -(((2 ^ 63 : Nat)) : Int)) || decide (((2 ^ 63 : Nat) : Int) ≤ hi)

/-- R188: the cell image of a macro in use. -/
def Sntl.imageOf (n : Sntl) (m : Nat) : List Byte :=
  n.images.getD ((n.groupOf.take m).countP (· != 0xFF)) []

/-- R188: the macros of a group, as numbers. -/
def Sntl.members (n : Sntl) (g : Nat) : List Nat := (List.range 8).filter fun m => n.groupOf.getD m 0xFF == g

/-- R121, R188, R189, R192: the sentinel's fields and its groups. -/
def Pattern.sentinelCodes (p : Pattern) : List Nat :=
  let n := p.sntl
  let wOk := n.wbits == 1 || n.wbits == 2 || n.wbits == 4
  let r := (n.members 0).length
  flag (!(decide (1 ≤ n.macros ∧ n.macros ≤ 8 ∧ 1 ≤ n.ibits ∧ n.ibits ≤ 8 ∧ n.mode ≤ 1 ∧ n.swath = 16 ∧ n.patch = 64 ∧
      n.watch ≤ 64 ∧ 2048 ≤ n.stride ∧ n.stride % 64 = 0 ∧ n.shift ≤ 47) && wOk)) 0x12
    ++ flag (n.macros != n.groupOf.countP (· != 0xFF)) 0x12
    ++ flag (decide (n.groups = 0 ∨ 8 < n.groups) || n.groupOf.any fun g => g != 0xFF && decide (n.groups ≤ g)) 0x12
    ++ flag (r == 0 || (List.range n.groups).any fun g => (n.members g).length != r ||
        (n.members g).any fun m => n.imageOf m != n.imageOf ((n.members g).headD 0)) 0x12
    ++ flag (n.features * n.wbits != n.groups * 64 || n.headLen != 0x18 + 6 * n.features) 0x12
    ++ flag n.headOverflows 0x12

/-- R124, R193: a signed element of a lattice tensor's raw data. -/
def latticeElem (fmt : Nat) (b : List Byte) (i : Nat) : Int :=
  if fmt = fmtI4 then signed 4 (uAt b (i / 2) 1 / 16 ^ (i % 2) % 16) else signed 8 (uAt b i 1)

/-- R170: a value that storage bits w hold. -/
def fitsBits (w : Nat) (v : Int) : Bool :=
  if w = 1 then v == -1 || v == 1 else decide (-((2 ^ (w - 1) : Nat) : Int) ≤ v ∧ v < ((2 ^ (w - 1) : Nat) : Int))

/-- R193: where a lattice tensor lies: its array, first row, rows, first physical column and physical columns. -/
structure Placement where
  panel : Nat
  lattice : Nat
  row : Nat
  rows : Nat
  col : Nat
  cols : Nat
  deriving DecidableEq, Repr, Inhabited

/-- R193: the placement that the HBM offset field of an entry carries. -/
def WghtEntry.placement (e : WghtEntry) : Placement :=
  let v := e.hbmOff
  { panel := field v 3 0, lattice := field v 4 4, row := field v 13 5, rows := e.dims.getD 1 0, col := field v 20 14
    cols := e.dims.getD 0 0 * e.latBits }

/-- R193: two placements share a cell. -/
def Placement.meets (a b : Placement) : Bool :=
  a.panel == b.panel && a.lattice == b.lattice &&
    decide (a.row < b.row + b.rows ∧ b.row < a.row + a.rows ∧ a.col < b.col + b.cols ∧ b.col < a.col + a.cols)

/-- R193: a lattice-resident entry breaks a rule. -/
def State.latticeBad (s : State) (slot : Nat) (e : WghtEntry) : Bool :=
  let x := e.placement
  let data := s.tensorData slot e
  e.rank != 2 || !(e.fmt == fmtI4 || e.fmt == fmtI8) || !(e.latBits == 1 || e.latBits == 2 || e.latBits == 4) ||
    decide (2 ^ 21 ≤ e.hbmOff) || x.col % max 1 e.latBits != 0 || decide (512 < x.row + x.rows) ||
    decide (128 < x.col + x.cols) ||
    (List.range e.count).any fun i => !fitsBits e.latBits (latticeElem e.fmt data i)

/-- R118, R124, R193, R211, R284: the WGHT entries; an entry's own code is 0x14 where it is lattice-resident (log 56). -/
def State.weightCodes (s : State) (slot : Nat) : List Nat :=
  let ws := s.pat.wght
  let len := ((s.pat.table.find? (·.tag == tagWght)).map (·.length)).getD 0
  let own (e : WghtEntry) : List Nat :=
    flag (!fmtOk e.fmt || decide (e.rank = 0 ∨ 4 < e.rank) || (e.dims.drop e.rank).any (· != 1) || e.dataOff % 64 != 0 ||
      decide (len < e.dataOff + e.dataLen) || e.dataLen != e.rawBytes ||
      !(e.latBits == 0 || e.latBits == 1 || e.latBits == 2 || e.latBits == 4) ||
      decide (1 < ws.countP (·.tid == e.tid)) ||
      (!e.lattice && decide (s.pat.footprint < e.hbmOff + e.hbmBytes))) (if e.lattice then 0x14 else 0x16)
    ++ flag (e.expCoded && e.fmt != fmtFP16 && e.fmt != fmtBF16) 0x16
    ++ flag (e.expCoded && e.lattice && e.fmt != fmtFP16 && e.fmt != fmtBF16) 0x14
    ++ flag (e.fmt == fmtBX8 && e.count % 32 != 0) (if e.lattice then 0x14 else 0x16)
    ++ flag (e.lattice && s.latticeBad slot e) 0x14
  let lats := (ws.filter (·.lattice)).map (·.placement)
  ws.flatMap own ++ flag (lats.zipIdx.any fun (a, i) => (lats.drop (i + 1)).any (a.meets ·)) 0x14

/-- R269, R480: the HBM regions, with the staging area after them, end beyond 16 GB. -/
def Pattern.regionCodes (p : Pattern) : List Nat :=
  let end_ := match p.hist with
    | some h => p.historyBase + h.spill
    | none => p.flatBase + p.flatLen
  flag (decide (hbmSize < p.footprint) || decide (hbmSize < up4k end_ + 8388608)) 0x16

/-- R281: a TABL entry counts: a descriptor uses its id, or it is the history entry. -/
def Pattern.tableUsed (p : Pattern) (e : TablEntry) : Bool :=
  e.tid == histTid || p.tiles.any fun d => d.form != 0 && d.tid == e.tid

/-- R125, R281, R298: the TABL entries that count. -/
def Pattern.tableCodes (p : Pattern) : List Nat :=
  (((p.tabl.getD []).filter p.tableUsed).flatMap fun e =>
    let own := if e.tid = histTid then 0x19 else 0x13
    flag (decide (1 < e.mode) || decide (e.budget < 2 ∨ 4 < e.budget)) 0x13
      ++ flag (e.mode == 0 && (e.off != 0 || e.len != 0)) 0x13
      ++ flag (e.mode == 1 && (e.len != 136 || !e.ok)) own
      ++ flag (e.tid == histTid && (p.hist.map (·.budget)) != some e.budget) 0x19)

/-- R126, R269, R297, R411: HIST. -/
def State.historyCodes (s : State) : List Nat :=
  match s.pat.hist with
  | none => []
  | some h =>
    let whole := h.segPerRev * h.revs * h.place
    let sides := (List.finRange 2).countP s.sideDeclared
    flag (h.cRoll == 0 || h.lSeg == 0 || h.segPerRev != ceilDiv h.cRoll h.lSeg || decide (h.budget < 2 ∨ 4 < h.budget) ||
        !(h.fmt == fmtU8 || h.fmt == fmtI8 || h.fmt == fmtE4M3 || h.fmt == fmtE5M2)) 0x19
      ++ flag (decide (h.spill < whole - h.resident * h.place + sides * whole) ||
        decide (1024 < s.pat.historyLines)) 0x19

/-- R127: MARK. -/
def Pattern.markCodes (p : Pattern) : List Nat :=
  flag (decide (1024 < p.markFires) || p.marks.any fun m =>
    decide (7 < m.marker ∨ m.width = 0 ∨ 1000000 < m.width) || decide (1 < p.marks.countP (·.marker == m.marker))) 0x18

/-- R440: the ids of Table: power domains. -/
def domainIds : List Nat :=
  [1, 2, 3, 4, 5] ++ (List.range 4).map (0x10 + ·) ++ (List.range 12).map (0x20 + ·) ++ (List.range 16).map (0x30 + ·)
    ++ (List.range 8).map (0x40 + ·) ++ (List.range 4).map (0x50 + ·)

/-- R129, R440, R441: one VOTE entry. -/
def Pattern.voteBad (p : Pattern) (e : VoteEntry) : Bool :=
  let panel := decide (0x30 ≤ e.id ∧ e.id < 0x40)
  !domainIds.contains e.id || decide (1 < p.votes.countP (·.id == e.id)) || decide (1 < e.low) ||
    (e.low == 1 && e.id == domFlash) ||
    (e.mask != 0 && (!panel || e.low == 0 || decide (2 ^ 16 ≤ e.mask))) ||
    (e.low == 0 && decide (0x40 ≤ e.id ∧ e.id < 0x48) && decide (256 * (e.id - 0x40) < p.flatLines))

/-- R441: VOTE, step 5. -/
def Pattern.voteCodes (p : Pattern) : List Nat := flag (p.votes.any p.voteBad) 0x1B

/-- R253 to R260, R273, R277: a descriptor breaks a rule that needs no loop index. -/
def State.tileBad (s : State) (d : TileDesc) : Bool :=
  let memory := decide (d.space ≤ spHbm)
  let ring := decide (spHbm < d.space)
  let units := if d.fmt = fmtI4 then 2 else 1
  decide (5 < d.space ∨ 2 < d.form ∨ 119 < d.perm ∨ 3 < d.first ∨ 4 < d.blocked ∨ 1 < d.layout) || !fmtOk d.fmt ||
    (if d.form = 1 then decide (d.budget < 2 ∨ 4 < d.budget) else d.budget != 0) ||
    (d.form == 0 && d.tid != 0) ||
    (d.space == spScratch && decide (1572864 * units ≤ d.base)) ||
    (d.space == spCommons && decide (8388608 * units ≤ d.base)) ||
    (memory && d.form == 0 && d.fmt == fmtI4 && d.base % 2 == 1) ||
    (d.form == 1 && (d.space == spHbm || !(d.fmt == fmtU8 || d.fmt == fmtI8 || d.fmt == fmtE4M3 || d.fmt == fmtE5M2))) ||
    (d.form == 2 && !(d.fmt == fmtFP16 || d.fmt == fmtBF16)) ||
    (memory && d.isBlocked && (d.e d.blocked % d.blockLen != 0 || decide (d.st d.blocked < d.place))) ||
    (d.layout == 1 && (d.space != spScratch || d.form != 0 || !(d.fmt == fmtI32 || d.fmt == fmtFP32) ||
      decide (32 < d.e dimM ∨ 32 < d.e dimN) || d.stride.any (· % 64 != 0))) ||
    (ring && (d.form != 0 || d.fmt != (if s.pat.bits = 8 then fmtU8 else fmtI16))) ||
    (d.space == spWest && !s.sideDeclared 0) || (d.space == spEast && !s.sideDeclared 1)

/-- R277, R323: the tensor id of a coded descriptor. -/
def State.tileIdCodes (s : State) (d : TileDesc) : List Nat :=
  let p := s.pat
  if d.form = 2 then flag (!p.wght.any fun e => e.tid == d.tid && e.expCoded) 0x13
  else if d.form = 1 then
    flag (p.wght.any (·.tid == d.tid)) 0x13
      ++ flag (p.tiles.any fun x => x.form == 1 && x.tid == d.tid && (x.fmt != d.fmt || x.budget != d.budget)) 0x13
      ++ flag ((p.tablEntry d.tid).any (·.budget != d.budget)) 0x13
      ++ (if d.isView then match p.hist with
        | none => [0x19]
        | some h => flag (d.base != 4096 * s.viewStart || d.budget != h.budget || d.fmt != h.fmt) 0x13
      else [])
  else []

/-- R123, R260, R277: TILE. -/
def State.tileCodes (s : State) : List Nat :=
  let p := s.pat
  p.tiles.flatMap (fun d => flag (s.tileBad d) 0x13 ++ s.tileIdCodes d)
    ++ flag (decide (1024 < p.formOneIds.length + p.wght.countP (·.expCoded) + (if p.hist.isSome then 1 else 0))) 0x13

/-- R122, R131, R224: the lengths of the programs, and the CTRL entry points. A control program of no instructions passes
without the seal flag too (log 110). -/
def Pattern.storeCodes (p : Pattern) : List Nat :=
  flag (p.panl.any fun e => decide (8192 < e.count)) 0x17 ++ flag (decide (4096 < p.ctrl.length)) 0x17
    ++ flag (p.entries.any fun i => i != 0xFFFFFFFF && decide (p.ctrl.length ≤ i)) 0x17

/-- R85: step 5 over the section fields. No section declares a thimble SRAM demand, so 0x1C finds nothing (log 57). -/
def State.fieldCodes (s : State) (slot : Nat) : List Nat :=
  let p := s.pat
  p.breaches.filter (fun c => decide (0x10 ≤ c ∧ c ≤ 0x1C)) ++ p.intakeCodes ++ p.bobbinCodes ++ p.sentinelCodes
    ++ s.weightCodes slot ++ p.regionCodes ++ p.tableCodes ++ s.historyCodes ++ p.markCodes ++ p.voteCodes
    ++ s.tileCodes ++ p.storeCodes

/-! ### Step 6: declared rates, levels and distances -/

/-- R188: the replicas r of every group. -/
def Pattern.replicaCount (p : Pattern) : Nat := (p.sntl.members 0).length

/-- R191: the sentinel's time per swath in cycles of 200 MHz. -/
def Pattern.swathCycles (p : Pattern) : Nat :=
  ceilDiv (ceilDiv p.width 64) (max 1 p.replicaCount) * 32 * p.sntl.ibits + 40

/-- R191: the same in ps. -/
def Pattern.swathPs (p : Pattern) : Nat := p.swathCycles * 5000

/-- R323: the view fill in ps. -/
def Pattern.viewFillPs (p : Pattern) : Nat :=
  match p.hist with
  | some h => 2000000 + 10000 * (h.viewStride / 64)
  | none => 0

/-- R24: the arming allowance in counts. -/
def Pattern.allowance (p : Pattern) : Nat := ceilDiv (p.dlin.cMax * 4) 1000000 + 2

/-- R24: a marker mapped to fire breaks H + A ≤ O. -/
def State.markerLate (s : State) : Bool :=
  s.pat.marks.any fun m =>
    (bitAt m.trigger 0 || (bitAt m.trigger 1 && !s.lvlI 0)) &&
      decide (m.offset < s.pat.dlin.horizon + s.pat.allowance)

/-- R144: the line transfer of a port takes longer than 1 / L_max. -/
def Pattern.portSlow (p : Pattern) (q : IntkPort) : Bool :=
  let nr := q.lanes * q.rate
  decide (2 * nr * 1000000 < (2 * (q.pixels * p.bits + 128) + nr) * p.dlin.lMax)

/-- R144, R191: intake or sentinel work per line exceeds 1 / L_max. -/
def Pattern.workCodes (p : Pattern) : List Nat :=
  flag (p.usedPorts.any fun i => p.portSlow (p.intk.ports.getD i {})) 0x24
    ++ flag (decide (16 * 10 ^ 12 < (p.swathPs + 2000000) * p.dlin.lMax)) 0x24

/-- R49, R129: the levels against the cap and the thermal policy. -/
def State.levelCodes (s : State) : List Nat :=
  let p := s.pat
  flag (decide (s.thermalPolicy ≤ s.cap) && !p.hasDegraded) 0x25
    ++ flag (decide (p.voteNormal ≤ 3 ∧ s.cap < p.voteNormal)) 0x28
    ++ flag (decide (3 < p.voteNormal)) 0x2A
    ++ flag (p.voteDegraded != 0xFF && decide (3 < p.voteDegraded ∨ p.voteNormal < p.voteDegraded)) 0x2A

/-- R14: a distance of 2³¹ or more. -/
def tooFar (n : Nat) : Bool := decide (2 ^ 31 ≤ n)

/-- R14, R22, R130, R305, R420: DLIN and the distances. -/
def Pattern.rateCodes (p : Pattern) : List Nat :=
  let d := p.dlin
  flag (decide (20000000 < d.cMax ∨ 160000 < d.lMax)) 0x20
    ++ flag (decide (d.cMax = 0 ∨ d.lMax = 0 ∨ d.stopUs < 1000 ∨ 10000000 < d.stopUs ∨ d.restart = 0 ∨ 4096 < d.density ∨
      d.span < 16 ∨ 2 ^ 24 < d.span)) 0x29
    ++ flag (tooFar d.horizon || d.slots.any (fun e => decide (d.horizon < e.deadline) || tooFar e.deadline) ||
      p.marks.any (fun m => tooFar m.offset) || tooFar p.intk.n0 || tooFar p.intk.n1 ||
      (p.intk.other == 1 && tooFar p.intk.tol) ||
      (p.hist.any fun h => tooFar h.cRoll || tooFar h.lSeg || tooFar h.grace)) 0x29
    ++ flag (decide (8192 < d.density * (ceilDiv (d.lMax * d.horizon) (d.cMax * d.span) + 1))) 0x29

/-- R441: the domains that the pattern uses. -/
def State.usedDomains (s : State) : List Nat :=
  let p := s.pat
  let ports := p.usedPorts
  let panels := (List.range 16).filter fun i => decide (0 < (p.entryOf i).count)
  ports.map domIntake ++ (if ports.isEmpty then [] else domSentinel :: (List.range 12).map domBobbin) ++ [domHbm]
    ++ (if panels.isEmpty && p.width == 0 then [] else (List.range 8).map domCommons) ++ panels.map domPanel
    ++ (List.range 4).filterMap fun q => if (s.entry.map fun e => bitAt e.seams q).getD false then some (domSeam q) else none

/-- R441: a domain that the pattern uses is not declared. -/
def State.domainCodes (s : State) : List Nat :=
  flag (s.usedDomains.any fun d => s.pat.votes.all (·.id != d)) 0x27

/-- R85: step 6 over the section fields. -/
def State.rateStepCodes (s : State) : List Nat :=
  s.pat.breaches.filter (fun c => decide (0x20 ≤ c ∧ c ≤ 0x2A)) ++ s.pat.rateCodes ++ flag s.markerLate 0x21
    ++ s.pat.workCodes ++ s.levelCodes ++ s.domainCodes

/-! ### Step 7: the bolt (R85, R128, R370, R381, R396, R407, R432) -/

/-- R381: the address on a port of an entry, if the grid holds it. -/
def BoltEntry.neighbour (e : BoltEntry) (q : Nat) : Option Nat :=
  let x := e.addr % 256
  let y := e.addr / 256
  if q = 0 then (if x = 255 then none else some (e.addr + 1))
  else if q = 1 then (if x = 0 then none else some (e.addr - 1))
  else if q = 2 then (if y = 0 then none else some (e.addr - 256))
  else if y = 127 then none else some (e.addr + 256)

/-- The entry of an address. -/
def Pattern.entryAt (p : Pattern) (a : Nat) : Option BoltEntry := p.bolt.find? (·.addr == a)

/-- R396: hops from the master to an entry along the master's broadcast tree. -/
def gridHops (a b : Nat) : Nat :=
  let d (m n : Nat) : Nat := (m - n) + (n - m)
  d (a % 256) (b % 256) + d (a / 256) (b / 256)

/-- R128, R381, R396: BOLT is inconsistent. -/
def Pattern.boltCodes (p : Pattern) : List Nat :=
  let master := p.entryAt p.boltMaster
  flag (p.bolt.any fun e => decide (2 ^ 15 ≤ e.addr) || decide (1 < p.bolt.countP (·.addr == e.addr)) ||
      decide (1 < e.posFrom)) 0x32
    ++ flag (p.bolt.any fun e => (List.range 4).any fun q =>
      bitAt e.seams q && ((e.neighbour q).bind p.entryAt).isNone) 0x32
    ++ flag (match master with
      | some m => m.posFrom != 0 || m.offset != 0 ||
          p.bolt.any fun e => decide (10 ^ 8 < p.dlin.cMax * (gridHops m.addr e.addr + 1))
      | none => true) 0x32
    ++ flag ((p.entryAt p.boltCollector).isNone) 0x32
    ++ flag (p.bolt.any fun e => [(0, e.eastHalo), (1, e.westHalo)].any fun (q, h) =>
      bitAt e.seams q && (((e.neighbour q).bind p.entryAt).any fun n => decide (n.segWidth < h))) 0x33

/-- R370, R407, R432: what the E/W side of this device asks of its seam and its sentinel. -/
def State.sideBad (s : State) (side : Fin 2) : Bool :=
  let p := s.pat
  let flits := haloFlits (s.haloWidth side) p.bits
  let l := p.dlin.lMax
  decide (97608000 < haloFlits (s.haloSent side) p.bits * l) ||
    decide (p.swathPs + p.viewFillPs < 2000000 + 5120 * flits) ||
    decide ((p.swathPs + 1000000 + p.viewFillPs) * l < 10 ^ 12 + (6000000 + 5120 * flits) * l)

/-- R85: step 7. -/
def State.boltStepCodes (s : State) : List Nat :=
  let p := s.pat
  p.breaches.filter (fun c => decide (0x30 ≤ c ∧ c ≤ 0x33)) ++ p.boltCodes
    ++ (match s.entry with
      | none => [0x30]
      | some e => flag (!bitAt e.roles s.role || (s.role == 0 && e.seams % 16 != 0)) 0x31)
    ++ flag ((List.finRange 2).any fun d => s.sideDeclared d && s.sideBad d) 0x33

end Sys2Proof.Machine
end

