-- ==== Sys2Proof/Machine/ProgramChecks.lean ====
section
/-! DEFINITION. The checks of the stitch programs and the control program that need no timing (R201, R202, R224 to R232,
R234 to R245, R251, R254 to R264, R275, R309, R312, R323). -/

namespace Sys2Proof.Machine

/-! ### Bodies and loop indices (R226, R243) -/

/-- A LOOP or SLOT body that holds an instruction: where it stands, its first instruction past the end, and its count of
LOOP or its slot id. -/
structure Body where
  slot : Bool := false
  pc : Nat := 0
  stop : Nat := 0
  count : Nat := 1
  id : Nat := 0
  deriving DecidableEq, Repr, Inhabited

/-- An instruction of a program with the bodies that hold it, innermost first. -/
structure Place where
  pc : Nat := 0
  word : BitVec 64 := 0
  bodies : List Body := []
  deriving DecidableEq, Repr, Inhabited

/-- Every instruction of a program from place pc on, with its bodies. -/
def placesFrom : Nat → List Body → List (BitVec 64) → List Place
  | _, _, [] => []
  | pc, bs, w :: ws =>
    let bs := bs.filter fun b => decide (pc < b.stop)
    let inner := match decodeStitch w with
      | some (.loop n l) => { pc := pc, stop := pc + 1 + l, count := n : Body } :: bs
      | some (.slot id l _) => { slot := true, pc := pc, stop := pc + 1 + l, id := id : Body } :: bs
      | _ => bs
    { pc := pc, word := w, bodies := bs } :: placesFrom (pc + 1) inner ws

/-- A program's instructions. -/
def programPlaces (ws : List (BitVec 64)) : List Place := placesFrom 0 [] ws

/-- The instruction at a place. -/
def Place.ins (x : Place) : Option Stitch := decodeStitch x.word

/-- R243: the SLOT body that holds the instruction. -/
def Place.slot (x : Place) : Option Body := x.bodies.find? (·.slot)

/-- R226: every list of loop indices at which the program reaches the instruction, innermost level first. -/
def Place.indices (x : Place) : List (List LoopLevel) :=
  ((x.bodies.filter fun b => !b.slot).map (·.count)).foldr
    (fun n acc => (List.range n).flatMap fun i => acc.map fun l => { count := n, idx := i : LoopLevel } :: l) [[]]

/-! ### Descriptors in use -/

/-- R227: a field that must name an operand: VQ or a descriptor. -/
def Pattern.operandOk (p : Pattern) (f : Nat) : Bool := f == descVq || decide (f < p.tiles.length ∧ f < descVq)
/-- R227: a field that must name a descriptor. -/
def Pattern.tileOk (p : Pattern) (f : Nat) : Bool := decide (f < p.tiles.length ∧ f < descVq)

/-- R262: the words of a commons tile do not each fall in the sub-bank following the last. -/
def subBankBad : List Nat → Bool
  | a :: b :: l => (a + 1) % 16 != b % 16 || subBankBad (b :: l)
  | _ => false

/-- R263: the commons words that only the map's own regions use: flat-field, halo and history; the view ring too unless the
descriptor is a view. -/
def State.reservedWord (s : State) (view : Bool) (w : Nat) : Bool :=
  let line := w / 64
  decide (line < s.viewStart) || decide (2048 ≤ line + s.pat.historyLines) ||
    (!view && decide (line < s.viewStart + s.viewLines))

/-- R323: how many entries the view ring has for a pattern's tiles, at least the one that the descriptors name. -/
def Pattern.viewEntries (p : Pattern) : Nat := max 1 p.dlin.density

/-- R323: the stride of the view ring. -/
def Pattern.viewStride (p : Pattern) : Nat := (p.hist.map (·.viewStride)).getD 0

/-- R224, R252, R254, R258, R260, R263: a memory tile with its base at an address breaks its bounds at one list of loop
indices. -/
def State.tileAtBase (s : State) (d : TileDesc) (base : Int) (loops : List LoopLevel) : Bool :=
  let spans := d.units.map (d.span base loops)
  let ws := d.words base loops
  let o := d.origin base loops
  (d.space == spScratch && spans.any fun (a, n) => decide (a < 0 ∨ 1572864 < a + n)) ||
    (d.space == spHbm && spans.any fun (a, n) => decide (a < 0 ∨ (hbmSize : Int) < a + n)) ||
    (d.space == spCommons && (spans.any (fun (a, n) => decide (a < 0 ∨ 8388608 < a + n)) || subBankBad ws ||
      ws.any (s.reservedWord d.isView))) ||
    (d.fmt == fmtI4 && d.form == 0 && d.addr base loops [0, 0, 0, 0, 0] % 2 != 0) ||
    (d.layout == 1 && (decide (o < 0) || decide (20 * 65536 + 65535 < o) ||
      decide (1024 < o.toNat % 65536 / 64 + 16)))

/-- R260, R263, R323: a tile breaks its bounds; that of a view is taken at the first and at the last entry of the ring, between
which its other entries lie. -/
def State.tileAtBad (s : State) (d : TileDesc) (loops : List LoopLevel) : Bool :=
  s.tileAtBase d d.base loops ||
    (d.isView && s.tileAtBase d (d.base + ((s.pat.viewEntries - 1) * s.pat.viewStride : Nat)) loops)

/-- R312: a bobbin or halo tile that is not empty reaches above r + 15 or below r less the depth of an entry of its slot (log 58). -/
def State.ringTileBad (s : State) (d : TileDesc) (b : Body) : Bool :=
  let lo := d.lineOffset
  let es := s.pat.dlin.slots.filter (·.id == b.id)
  let depths := if es.isEmpty then [0] else es.map (·.depth)
  d.count != 0 && (decide (15 < lo + d.e dimH - 1) || depths.any fun n => decide (lo < -(n : Int)))

/-- A descriptor in a field of an instruction that may use the spaces given (R254). -/
def State.useCodes (s : State) (x : Place) (spaces : List Nat) (f : Nat) : List Nat :=
  if !s.pat.tileOk f then [0x17]
  else
    let d := s.pat.tile f
    flag (!spaces.contains d.space) 0x13
      ++ (if d.space ≤ spHbm then flag (x.indices.any (s.tileAtBad d)) 0x13
        else match x.slot with
          | some b => flag (s.ringTileBad d b) 0x13
          | none => [])
      ++ flag (d.isView && x.slot.isNone) 0x13

/-- R199, R275: two descriptors of one stored form. -/
def TileDesc.sameForm (a b : TileDesc) : Bool :=
  a.form == b.form && a.fmt == b.fmt && a.budget == b.budget && a.tid == b.tid

/-- R255, R275: a copy into memory, or an encoding where `enc` allows it; the element counts are equal (log 59). -/
def copyCodes (enc : Bool) (a b : TileDesc) : List Nat :=
  flag (!(a.sameForm b || (enc && a.form == 0 && b.form == 1 && a.fmt == b.fmt))) 0x17
    ++ flag (a.count != b.count) 0x13

/-- R227, R229: the destination of a LOADT or STREAMW. -/
def State.loadCodes (s : State) (x : Place) (a d tg off : Nat) : List Nat :=
  let sd := s.pat.tile a
  if tg = 0 then s.useCodes x [spScratch] d ++ (if s.pat.tileOk a && s.pat.tileOk d then copyCodes false sd (s.pat.tile d)
    else [])
  else flag (tg == 3) 0x17 ++ flag (d != descNone) 0x17
    ++ flag (s.pat.tileOk a && decide (512 < off + sd.rowBytes tg)) 0x17

/-! ### Compute (R201, R202, R232, R234 to R239) -/

/-- R201: an operand pair of the table, in either order. -/
def pairOk (a b : Nat) : Bool :=
  let eight (f : Nat) : Bool := f == fmtU8 || f == fmtI8
  let small (f : Nat) : Bool := f == fmtI4 || eight f
  let fp8 (f : Nat) : Bool := f == fmtE4M3 || f == fmtE5M2
  let fp16 (f : Nat) : Bool := f == fmtFP16 || f == fmtBF16
  let one (a b : Nat) : Bool :=
    (a == fmtI4 && b == fmtI4) || (small a && eight b) || (a == fmtI16 && (small b || b == fmtI16)) || (fp8 a && fp8 b) ||
      (fp16 a && (fp8 b || fp16 b)) || (a == fmtBX8 && b == fmtBX8)
  one a b || one b a

/-- R202, R232: an MM breaks a rule. -/
def mmBad (fa fb k oa ob : Nat) : Bool :=
  !pairOk fa fb || (fa == fmtBX8 && k % 32 != 0) || decide (512 < oa + kBytes fa k) || decide (512 < ob + kBytes fb k)

/-- R216 to R223: the vector operations that have an integer class. -/
def integerOp (op : Nat) : Bool := decide (op ≤ 0x29) || op == 0x38 || op == 0x39

/-- R236: S2 names an operand. -/
def takesS2 (op : Nat) : Bool := vectorS2 op || op == 0x28 || op == 0x29 || op == 0x3B

/-- R236: a memory operand of a vector instruction: plain, in scratch. -/
def State.vectorUse (s : State) (x : Place) (f : Nat) : List Nat :=
  s.useCodes x [spScratch] f ++ flag (s.pat.tileOk f && (s.pat.tile f).form != 0) 0x17

/-- R221, R236, R237: a vector instruction. VQ may be a source of elementwise instructions (log 60), of VLUT too, whose table may
have any format that a plain tile has (log 146). -/
def State.vectorCodes (s : State) (x : Place) (op d s1 s2 cls : Nat) : List Nat :=
  let p := s.pat
  let dt := p.tile d
  let t1 := p.tile s1
  let t2 := p.tile s2
  let src (f : Nat) : List Nat := if f = descVq then flag (rowOp op) 0x17 else s.vectorUse x f
  let known := p.tileOk d && p.operandOk s1 && (p.operandOk s2 || !takesS2 op)
  let n := if s1 = descVq then dt.count else t1.count
  let k := t1.e dimK
  let bytes2 := t2.expandedBytes
  flag (cls == 0 && !integerOp op) 0x17 ++ s.vectorUse x d ++ src s1
    ++ (if takesS2 op then (if op = 0x28 ∨ op = 0x29 ∨ op = 0x3B then s.vectorUse x s2 else src s2)
      else flag (s2 != descNone) 0x17)
    ++ flag (known && rowOp op && decide (0x3A ≤ op) && decide (4096 < k)) 0x17
    ++ flag (known && (if rowOp op && decide (op < 0x3A) then dt.count * k != n else dt.count != n)) 0x17
    ++ flag (known && vectorS2 op && s2 != descVq && t2.count != n) 0x17
    ++ flag (known && op == 0x28 && (bytes2 % 8 != 0 || decide (bytes2 = 0 ∨ 512 < bytes2))) 0x17
    ++ flag (known && op == 0x29 && (t2.count != 256 || !(t1.fmt == fmtU8 || t1.fmt == fmtI8))) 0x17
    ++ flag (known && op == 0x3B && t2.count != 2 * k) 0x17

/-- R170, R194, R235, R275: a CIMV: its rows and columns lie in the lattice. -/
def State.cimvCodes (s : State) (x : Place) (w a d row col : Nat) : List Nat :=
  let p := s.pat
  let sd := p.tile a
  let dd := p.tile d
  s.useCodes x [spScratch] a ++ s.useCodes x [spScratch] d ++ flag (w == 3) 0x17
    ++ flag (p.tileOk a && p.tileOk d && (sd.form == 2 || dd.form != 0 || dd.fmt != fmtI32 ||
      decide (512 < row + sd.e dimK) || decide (128 < col + dd.e dimK * 2 ^ w) ||
      dd.count * sd.e dimK != sd.count * dd.e dimK)) 0x17

/-- R239, R260: a COMBINE. -/
def State.combineCodes (s : State) (x : Place) (a d i g : Nat) : List Nat :=
  let p := s.pat
  let sd := p.tile a
  let dd := p.tile d
  let both := p.tileOk a && p.tileOk d
  s.useCodes x [spScratch] a ++ s.useCodes x [spCommons] d ++ flag (decide (g ≤ i)) 0x17
    ++ flag (both && (!(sd.fmt == fmtI32 || sd.fmt == fmtFP32) || !(dd.fmt == fmtI32 || dd.fmt == fmtFP32))) 0x13
    ++ flag (both && (sd.form != 0 || dd.form != 0 || sd.fmt != dd.fmt || sd.count != dd.count)) 0x17
    ++ flag (both && x.indices.any fun l =>
      let (lo, hi) := s.stagingRange l d g
      (List.range ((hi - lo) / 64)).any fun j => s.reservedWord false (lo / 64 + j)) 0x13

/-! ### Every instruction (R226, R227, R244) -/

/-- R226: the body of a LOOP or SLOT among those that hold it, in a program of n instructions. -/
def bodyBad (x : Place) (n len : Nat) : Bool :=
  let stop := x.pc + 1 + len
  decide (n < stop) || x.bodies.any fun b => decide (b.stop < stop)

/-- R226: a LOOP. -/
def loopBad (x : Place) (n len : Nat) : Bool :=
  len == 0 || decide (4 ≤ x.bodies.countP (!·.slot)) || bodyBad x n len

/-- R241: a domain is declared in VOTE. -/
def Pattern.declares (p : Pattern) (d : Nat) : Bool := p.votes.any (·.id == d)

/-- R224, R227, R244: an instruction of panel q's program of n instructions. Outside a body a LOADT from the bobbin is code 0x17
by R228, one from a halo ring code 0x13 by R254 and R260 (log 142). -/
def State.insCodes (s : State) (q n : Nat) (x : Place) : List Nat :=
  let p := s.pat
  let inBody := x.slot.isSome
  match x.ins with
  | none => [0x17]
  | some i => match i with
    | .nop _ => []
    | .loadt a d tg _ off =>
      s.useCodes x [spScratch, spCommons, spBobbin, spWest, spEast] a ++ s.loadCodes x a d tg off
        ++ flag (p.tileOk a && (p.tile a).space == spBobbin && !inBody) 0x17
        ++ flag (p.tileOk a && decide (spBobbin < (p.tile a).space) && !inBody) 0x13
    | .storet a d =>
      s.useCodes x [spScratch] a ++ s.useCodes x [spScratch, spCommons] d
        ++ (if p.tileOk a && p.tileOk d then copyCodes true (p.tile a) (p.tile d) else [])
    | .streamw a d tg _ off => s.useCodes x [spHbm] a ++ s.loadCodes x a d tg off
    | .drain _ _ _ tgt d =>
      if tgt = 0 then flag (d != descNone) 0x17
      else s.useCodes x [spScratch] d ++ flag (p.tileOk d && (p.tile d).layout != 1) 0x17
    | .mm _ _ _ _ fa fb k oa ob => flag (mmBad fa fb k oa ob) 0x17
    | .cimv _ _ _ w a d row col => s.cimvCodes x w a d row col
    | .vector op d s1 s2 _ cls _ => s.vectorCodes x op d s1 s2 cls
    | .loop _ l => flag (loopBad x n l) 0x17
    | .sigk t _ inc =>
      flag (decide (16 < t) || inc == 0) 0x17 ++ flag (inBody && (t == 16 || p.groupOf t != p.groupOf q ||
        (p.entryOf t).count == 0)) 0x17
    | .waitk _ c => flag (c == 0) 0x17
    | .combine a d i g _ => s.combineCodes x a d i g
    | .pin a => s.useCodes x [spHbm] a ++ flag inBody 0x17
    | .free a => s.useCodes x [spHbm] a ++ flag inBody 0x17
    | .vote d => flag (!p.declares d || inBody) 0x17
    | .unvote d => flag (!p.declares d || inBody) 0x17
    | .slot _ l _ => flag (inBody || bodyBad x n l) 0x17
    | .verdict a => s.useCodes x [spScratch] a ++ flag (!inBody) 0x17
    | .halt => flag inBody 0x17
    | .pllsw => [0x17]
    | .waite _ => [0x17]
    | .stage _ _ => [0x17]
    | .commit => [0x17]

/-- R251: an instruction of the control program of n instructions. -/
def State.controlCodes (s : State) (n : Nat) (x : Place) : List Nat :=
  match x.ins with
  | some (.nop _) => []
  | some (.loop _ l) => flag (loopBad x n l) 0x17
  | some (.sigk t _ inc) => flag (decide (16 < t) || inc == 0) 0x17
  | some (.waitk _ c) => flag (c == 0) 0x17
  | some (.vote d) => flag (!s.pat.declares d) 0x17
  | some (.unvote d) => flag (!s.pat.declares d) 0x17
  | some .halt => []
  | some .pllsw => []
  | some (.waite _) => []
  | some (.stage a _) => s.useCodes x [spCommons] a
  | some .commit => []
  | _ => [0x17]

/-! ### Between programs (R244, R309) -/

/-- The instructions of a panel's program. -/
def Pattern.placesOf (p : Pattern) (q : Nat) : List Place := programPlaces ((p.entryOf q).words.take (p.entryOf q).count)

/-- The panels with a program. -/
def Pattern.programmed (p : Pattern) : List Nat := (List.range 16).filter fun q => decide (0 < (p.entryOf q).count)

/-- R309: the groups whose programs hold a SLOT. -/
def Pattern.slotGroups (p : Pattern) : List Nat :=
  p.groupNumbers.filter fun g => (p.groupPanels g).any fun q => !(p.entryOf q.val).slotIds.isEmpty

/-- R309: tokens of panel q's program that pass between serving groups; slot ids of two serving groups. -/
def Pattern.tokenCodes (p : Pattern) (q : Nat) : List Nat :=
  (p.placesOf q).flatMap fun x => match x.ins with
    | some (.sigk t _ _) =>
      flag (decide (t < 16) && p.groupOf t != p.groupOf q && p.slotGroups.contains (p.groupOf t) &&
          p.slotGroups.contains (p.groupOf q) && decide (0 < (p.entryOf t).count)) 0x17
    | some (.slot id _ _) =>
      flag (p.slotGroups.any fun g => g != p.groupOf q && !(p.slotPanels g id).isEmpty) 0x17
    | _ => []

/-- R275, R277: copies of a form-2 tensor come into a space: STREAMW brings them to scratch from HBM, and STORET from there to the
commons (log 123). -/
def Pattern.formTwoFilled (p : Pattern) (tid space : Nat) : Bool :=
  let from_ (f sp : Nat) : Bool :=
    let d := p.tile f
    p.tileOk f && d.form == 2 && d.tid == tid && d.space == sp
  let all := p.programmed.flatMap p.placesOf
  let streamed := all.any fun x => match x.ins with
    | some (.streamw a d tg _ _) => tg == 0 && from_ a spHbm && from_ d spScratch
    | _ => false
  let stored := all.any fun x => match x.ins with
    | some (.storet a d) => from_ a spScratch && from_ d spCommons
    | _ => false
  space == spHbm || (streamed && (space == spScratch || (space == spCommons && stored)))

/-- R277: form-2 descriptors outside HBM that nothing fills with form-2 data. -/
def Pattern.formTwoCodes (p : Pattern) : List Nat :=
  flag (p.tiles.any fun d => d.form == 2 && !p.formTwoFilled d.tid d.space) 0x13

/-- R85, R224: step 5 over the programs. -/
def State.programCodes (s : State) : List Nat :=
  let p := s.pat
  p.formTwoCodes ++ (p.programmed.flatMap fun q =>
    let ps := p.placesOf q
    ps.flatMap (s.insCodes q ps.length) ++ p.tokenCodes q)
    ++ ((programPlaces p.ctrl).flatMap (s.controlCodes p.ctrl.length))

/-! ### The commons map (R263, R274) -/

/-- R263, R323: the lines past the view ring that a view tile touches, whichever entry it is taken at. -/
def State.linesPast (s : State) (d : TileDesc) (loops : List LoopLevel) : List Nat :=
  let ring := s.viewStart + s.viewLines
  let at_ (k : Nat) : List Nat := (d.words (d.base + (k * s.pat.viewStride : Nat)) loops).map (· / 64)
  let past (k : Nat) : List Nat := (at_ k).filter fun l => decide (ring ≤ l)
  if (past (s.pat.viewEntries - 1)).isEmpty then [] else (List.range s.pat.viewEntries).flatMap past

/-- R263: the lines that a commons descriptor or a COMBINE's staging touches at one list of loop indices, other than as the
view ring's own. -/
def State.linesOf (s : State) (i : Stitch) (loops : List LoopLevel) : List Nat :=
  let tile (f : Nat) : List Nat :=
    let d := s.pat.tile f
    if s.pat.tileOk f && d.space == spCommons then
      if d.isView then s.linesPast d loops else (d.words d.base loops).map (· / 64)
    else []
  match i with
  | .combine _ d _ g _ =>
    let (l, h) := s.stagingRange loops d g
    tile d ++ (List.range ((h + 4095) / 4096 - l / 4096)).map (l / 4096 + ·)
  | i => i.fields.flatMap tile

/-- R263: the static lines, each once. -/
def State.staticLines (s : State) : List Nat :=
  let all := (s.pat.programmed.flatMap s.pat.placesOf) ++ programPlaces s.pat.ctrl
  ascending (all.flatMap fun x => match x.ins with
    | some i => x.indices.flatMap (s.linesOf i)
    | none => [])

/-- R263: the stream lines: those between the halo rings and the history area that no other region takes. -/
def State.streamLines (s : State) : List Nat :=
  let fixed := s.staticLines
  let a := s.viewStart + s.viewLines
  ((List.range (2048 - s.pat.historyLines - a)).map (a + ·)).filter fun l => !fixed.contains l

/-- R274: the commons regions exceed 2,048 lines. -/
def State.commonsCodes (s : State) : List Nat :=
  flag (decide (2048 < s.viewStart + s.viewLines + s.staticLines.length + s.pat.historyLines)) 0x15

end Sys2Proof.Machine
end

