-- ==== Sys2Proof/Machine/Model.lean ====
section
/-! DEFINITION. The timing model as admission step 6 runs it over the programs of all sixteen panels together, and the
proofs that rest on it (R230, R231, R239, R240, R241, R243, R250, R264, R268, R270, R309, R315 to R317). -/

namespace Sys2Proof.Machine

/-! ### What the run keeps -/

/-- R240: an increment that reaches a token counter at a cycle, what its sender knew, and the instance in whose body it was
sent (R244). -/
structure Arrival where
  cycle : Nat := 0
  inc : Nat := 0
  known : List Nat := []
  inst : Option Nat := none
  deriving DecidableEq, Repr, Inhabited

/-- R268: a commons access: the panels that made it, the issue of its instruction or the number of its tree, its bytes, its
E, and whether it writes; of a view tile the bytes are those of the ring's first entry (R323), and the SLOT instance counts. -/
structure Access where
  panels : List Nat := []
  issue : Nat := 0
  tree : Option Nat := none
  lo : Nat := 0
  hi : Nat := 0
  done : Nat := 0
  write : Bool := false
  view : Bool := false
  inst : Option Nat := none
  deriving DecidableEq, Repr, Inhabited

/-- R239: a tree: its number in the run, D with its bytes and the staging, the contributions as (index, panel, issue, end of
transfer), and its E once known. -/
structure ProofTree where
  number : Nat := 0
  id : Nat := 0
  g : Nat := 0
  desc : Nat := 0
  ranges : List (Nat × Nat) := []
  words : Nat := 0
  parts : List (Nat × Nat × Nat × Nat) := []
  known : List Nat := []
  done : Option Nat := none
  deriving DecidableEq, Repr, Inhabited

/-- One panel in the run. -/
structure ProofPanel where
  seq : Sequencer := {}
  /-- words of VQ not yet read (R234). -/
  vq : Nat := 0
  finished : Bool := false
  /-- E of its HALT. -/
  haltAt : Nat := 0
  /-- R243: the body it runs: first place, place past the end, t_s and t_s + C. -/
  body : Option (Nat × Nat × Nat × Nat) := none
  /-- R243: t_s and t_s + C of the last body. -/
  last : Nat × Nat := (0, 0)
  /-- SLOT issues as (slot id, t_s, C), newest first. -/
  slots : List (Nat × Nat × Nat) := []
  /-- R268: for each panel, the cycle up to which its completed accesses are ordered before this panel's next. -/
  known : List Nat := List.replicate 16 0
  /-- R240: the arrivals of each token, ascending, and the counts consumed. -/
  arrivals : List (List Arrival) := List.replicate 32 []
  used : List Nat := List.replicate 32 0
  /-- R270: busy cycles of the stream engine. -/
  busy : Nat := 0
  deriving DecidableEq, Repr, Inhabited

/-- R244: the instance whose body the panel runs, counted from 1. -/
def ProofPanel.instance? (x : ProofPanel) : Option Nat := x.body.map fun _ => x.slots.length

/-- R241: a domain that a program's vote woke: the cycle of the vote, and whether it has been used since. -/
structure Woken where
  domain : Nat := 0
  cycle : Nat := 0
  used : Bool := false
  deriving DecidableEq, Repr, Inhabited

/-- The run. -/
structure Proof where
  panels : List ProofPanel := List.replicate 16 {}
  pins : List PinRange := []
  trees : List ProofTree := []
  /-- trees begun so far. -/
  begun : Nat := 0
  accesses : List Access := []
  /-- R309: the ranges ever pinned, by group. -/
  pinned : List (Nat × Nat × Nat) := []
  /-- R309: the most stream lines that each group pinned at once. -/
  most : List (Nat × Nat) := []
  /-- R241: the votes of programs in force as (panel, domain), 16 being the control sequencer, and what they woke. -/
  votes : List (Nat × Nat) := []
  woken : List Woken := []
  /-- R241: the domains that programs have ever woken, and what each panel had used before that. -/
  voted : List Nat := []
  usedFirst : List (Nat × Nat) := []
  /-- R251: what the control program has still to do, as (core cycle, instruction), ascending. -/
  control : List (Nat × Stitch) := []
  /-- R240: what changes the control sequencer's token counters, as (core cycle, token, change), newest first. -/
  toControl : List (Nat × Nat × Int) := []
  /-- codes of step 5 (R224) and of step 6. -/
  early : List Nat := []
  codes : List Nat := []
  deriving DecidableEq, Repr, Inhabited

/-- What a run is made for: the clock, the stream lines, and what the control program's entry points other than READY's send
to panels, as (panel, token, increment). -/
structure ProofCtx where
  mhz : Nat := 400
  stream : List Nat := []
  sent : List (Nat × Nat × Nat) := []
  deriving DecidableEq, Repr, Inhabited

/-- The context of the timing model in a proof. -/
def ProofCtx.time (c : ProofCtx) : TimeCtx := { mhz := c.mhz, worst := true }

/-- R240, R251: the increments of a panel's token that entry points other than READY's send; such a token is there whenever a
panel waits for it (log 62). -/
def ProofCtx.sentTo (c : ProofCtx) (q k : Nat) : List Nat :=
  c.sent.filterMap fun (t, x, inc) => if t = q ∧ x = k then some inc else none

/-- A panel of the run, and the run with it changed. -/
def Proof.panel (m : Proof) (q : Nat) : ProofPanel := m.panels.getD q {}
def Proof.upd (m : Proof) (q : Nat) (f : ProofPanel → ProofPanel) : Proof := { m with panels := m.panels.modify q f }
/-- Refusal codes found, of step 6 and of step 5. -/
def Proof.note (m : Proof) (bad : Bool) (code : Nat) : Proof := if bad then { m with codes := m.codes ++ [code] } else m
def Proof.noteEarly (m : Proof) (bad : Bool) (code : Nat) : Proof :=
  if bad then { m with early := m.early ++ [code] } else m

/-! ### Choosing the next instruction (R246, R250) -/

/-- The instruction at the panel's place; past the program's end it halts (log 28). -/
def Pattern.insAt (p : Pattern) (q pc : Nat) : Stitch :=
  match (((p.entryOf q).words.take (p.entryOf q).count)[pc]?).bind decodeStitch with
  | some i => i
  | none => .halt

/-- R240: the cycle at which a token's counter reaches a total. -/
def arrivalCycle : List Arrival → Nat → Option Nat
  | _, 0 => some 0
  | [], _ + 1 => none
  | a :: l, n + 1 => if n + 1 ≤ a.inc then some a.cycle else arrivalCycle l (n + 1 - a.inc)

/-- R240, R246: the cycle at which a panel would issue its next instruction. A token that the control program sends after
READY's entry point is taken as present, since its timing enters no proof (R251, log 62). -/
def State.proofIssue (s : State) (c : ProofCtx) (m : Proof) (q : Nat) : Option (Nat × Stitch) :=
  let x := m.panel q
  if x.finished then none
  else
    let ins := s.pat.insAt q x.seq.pc
    let (unit, rd, wr) := s.need c.time x.seq.loops ins
    match issueCycle x.seq ins x.seq.loops unit rd wr with
    | none => none
    | some t => match ins with
      | .slot _ _ _ => some (max t x.seq.latest, ins)
      | .waitk k n =>
        if !(c.sentTo q k).isEmpty then some (t, ins)
        else (arrivalCycle (x.arrivals.getD k []) (x.used.getD k 0 + n)).map fun a => (max t a, ins)
      | _ => some (t, ins)

/-- R250: the panel whose next instruction issues first, ties by panel number. -/
def State.proofPick (s : State) (c : ProofCtx) (m : Proof) : Option (Nat × Nat × Stitch) :=
  (List.range 16).foldl (fun best q =>
    match s.proofIssue c m q, best with
    | some (t, i), some (bt, bq, bi) => if t < bt then some (t, q, i) else some (bt, bq, bi)
    | some (t, i), none => some (t, q, i)
    | none, b => b) none

/-! ### The commons (R230, R231, R239, R268, R309) -/

/-- R230, R231: pins whose fills have completed by a cycle; those freed meanwhile are gone. -/
def pinsAt (t : Nat) (l : List PinRange) : List PinRange :=
  (l.filter fun p => !(p.freeing && decide (p.doneAt ≤ t))).map fun p =>
    if p.st = .filling ∧ p.doneAt ≤ t then { p with st := .filled } else p

/-- The largest of two lists, place by place. -/
def joinKnown (a b : List Nat) : List Nat := (a.zip b).map fun (x, y) => max x y

/-- R323: bytes [a, b) moved by k strides, for some k from `lo` to `hi` (but 0 where `zero` is false), meet bytes [c, d). -/
def meetsShifted (stride : Nat) (zero : Bool) (lo hi : Int) (a b c d : Nat) : Bool :=
  if stride = 0 ∨ b ≤ a ∨ d ≤ c then zero && decide (a < d ∧ c < b)
  else
    let first := max lo (((c : Int) - b) / stride + 1)
    let last := min hi (((d : Int) - a - 1) / stride)
    decide (first ≤ last) && (zero || first != 0 || last != 0)

/-- R268, R323: two accesses touch the same bytes. That of a view tile can be in any entry of the ring: instances of one group
that take the same window are in the same entry, all others in different ones. -/
def State.accessMeets (s : State) (q : Nat) (a o : Access) : Bool :=
  let n : Int := (s.pat.viewEntries : Int) - 1
  let meets := meetsShifted s.pat.viewStride
  let same := (o.panels.any fun p => s.pat.groupOf p == s.pat.groupOf q) && a.inst == o.inst
  match a.view, o.view with
  | false, false => decide (a.lo < o.hi ∧ o.lo < a.hi)
  | true, false => meets true 0 n a.lo a.hi o.lo o.hi
  | false, true => meets true 0 n o.lo o.hi a.lo a.hi
  | true, true => if same then decide (a.lo < o.hi ∧ o.lo < a.hi) else meets false (-n) n a.lo a.hi o.lo o.hi

/-- R268, R309: an access of a panel against those before it: between panels a token chain orders them; two serving groups
share no written bytes at all. -/
def State.accessBad (s : State) (q : Nat) (known : List Nat) (a o : Access) : Bool :=
  !o.panels.contains q && (a.write || o.write) && s.accessMeets q a o &&
    (!(o.panels.any fun p => decide (o.done ≤ known.getD p 0)) ||
      (s.pat.slotGroups.contains (s.pat.groupOf q) && o.panels.any fun p =>
        s.pat.groupOf p != s.pat.groupOf q && s.pat.slotGroups.contains (s.pat.groupOf p)))

/-- R268: an access joins the run. -/
def State.proofAccess (s : State) (m : Proof) (q : Nat) (a : Access) : Proof :=
  { m.note (m.accesses.any (s.accessBad q (m.panel q).known a)) 0x17 with accesses := m.accesses ++ [a] }

/-- The commons ranges among resources. -/
def commonsOf (l : List Res) : List (Nat × Nat) := l.filterMap fun
  | .commons a b => some (a, b)
  | _ => none

/-- R239, R248: the transfers of a tree end where bank conflicts have moved them. -/
def Proof.moveTree (m : Proof) (t : ProofTree) : ProofTree :=
  { t with parts := t.parts.map fun (i, q, c, e) => (i, q, c, (m.panel q).seq.transferEnd c e) }

/-- R230, R248: a fill ends where bank conflicts have moved the E of its STREAMW. -/
def Proof.moveFill (m : Proof) (p : PinRange) : PinRange :=
  match (m.panel p.filler.1).seq.outst.find? (·.issue == p.filler.2) with
  | some o => if p.st = .filling then { p with doneAt := o.done } else p
  | none => p

/-- R243: the tree's E is past the end of a contributor's body. -/
def Proof.treeLate (m : Proof) (t : ProofTree) (e : Nat) : Bool :=
  t.parts.any fun (_, q, c, _) =>
    let x := m.panel q
    match x.body with
    | some (_, _, ts, lim) => decide (ts ≤ c ∧ lim < e) || decide (x.last.1 ≤ c ∧ c < x.last.2 ∧ x.last.2 < e)
    | none => decide (x.last.1 ≤ c ∧ c < x.last.2 ∧ x.last.2 < e)

/-- R309: panels of two serving groups feed the tree. -/
def Pattern.treeMixed (p : Pattern) (t : ProofTree) : Bool :=
  let gs := (t.parts.map fun (_, q, _, _) => p.groupOf q).filter p.slotGroups.contains
  gs.any (· != gs.headD 0)

/-- R239, R268, R309: a tree that has all its contributions: every contributor's E, a body that it outlasts (R243), and what it
shares with other panels' accesses. -/
def State.proofClose (s : State) (m : Proof) (t : ProofTree) : Proof :=
  if t.parts.length < t.g then m
  else
    let e := treeDone t.g t.words (t.parts.map (·.2.2.2))
    let new := t.done.isNone
    let m := t.parts.foldl (fun m (_, q, c, _) => m.upd q fun x => { x with seq := x.seq.closeCombine c e }) m
    let m := m.note (m.treeLate t e) 0x22
    let m := m.note (new && s.pat.treeMixed t) 0x17
    let as_ : List Access := t.ranges.map fun (a, b) =>
      { panels := t.parts.map (·.2.1), tree := some t.number, lo := a, hi := b, done := e, write := true }
    let q := (t.parts.headD (0, 0, 0, 0)).2.1
    let clash := as_.any fun a => m.accesses.any fun o =>
      !(o.panels.any a.panels.contains) && s.accessBad q t.known a o
    let m := m.note (new && clash) 0x17
    { m with
      accesses := if new then m.accesses ++ as_ else m.accesses.map fun o =>
        if o.tree = some t.number then { o with done := e } else o
      trees := m.trees.map fun x => if x.number = t.number then { x with done := some e } else x }

/-- R230, R239, R248: accesses, fills and trees after an issue that may have moved what is under way. -/
def State.proofRefresh (s : State) (m : Proof) : Proof :=
  let moved (o : Access) : Access :=
    match o.tree, (m.panel (o.panels.headD 0)).seq.outst.find? (·.issue == o.issue) with
    | none, some x => { o with done := x.done }
    | _, _ => o
  let m := { m with
    accesses := m.accesses.map moved, pins := m.pins.map m.moveFill, trees := m.trees.map m.moveTree }
  m.trees.foldl s.proofClose m

/-- R231, R309: PIN. -/
def State.proofPin (s : State) (c : ProofCtx) (m : Proof) (q lo hi : Nat) : Proof :=
  let g := s.pat.groupOf q
  let free := c.stream.filter fun l => !(m.pins.any (·.lines.contains l))
  let n := ceilDiv (hi - lo) 4096
  let serving (h : Nat) : Bool := s.pat.slotGroups.contains h
  let m := m.noteEarly (m.pins.any fun p => p.lo == lo && p.hi == hi && !p.freeing) 0x17
  let m := m.note (decide (free.length < n)) 0x15
  let m := m.note (serving g && m.pinned.any fun (h, a, b) => h != g && serving h && decide (lo < b ∧ a < hi)) 0x17
  let pins := m.pins ++ [{ lo := lo, hi := hi, lines := free.take n, panel := q }]
  let held := ((pins.filter fun p => s.pat.groupOf p.panel == g).map (·.lines.length)).sum
  let before := ((m.most.find? (·.1 == g)).map (·.2)).getD 0
  { m with pins := pins, pinned := m.pinned ++ [(g, lo, hi)]
           most := (g, max before held) :: m.most.filter (·.1 != g) }

/-- R231: FREE. -/
def Proof.free (m : Proof) (lo hi : Nat) : Proof :=
  let here (p : PinRange) : Bool := p.lo == lo && p.hi == hi && !p.freeing
  let m := m.noteEarly (!m.pins.any here) 0x17
  { m with pins := (m.pins.filter fun p => !(here p && p.st != .filling)).map fun p =>
    if here p then { p with freeing := true } else p }

/-- R239, R267: COMBINE at cycle t whose transfer ends at `fin`. -/
def State.proofCombine (s : State) (c : ProofCtx) (m : Proof) (q t fin d i g id : Nat) : Proof :=
  let loops := (m.panel q).seq.loops
  let start : ProofTree :=
    { number := m.begun, id := id, g := g, desc := d, words := s.combineWords loops d, known := List.replicate 16 0
      ranges := s.tileRanges c.time loops (s.pat.tile d) ++ [s.stagingRange loops d g] }
  let old := m.trees.find? (·.id == id)
  let reused := old.any fun x => x.done.any fun e => decide (t < e)
  let (tr, m) := match old with
    | some x => if x.done.isSome then (start, { m with begun := m.begun + 1 }) else (x, m)
    | none => (start, { m with begun := m.begun + 1 })
  let m := m.noteEarly (reused || tr.g != g || tr.desc != d || tr.ranges != start.ranges || tr.parts.any (·.1 == i)) 0x17
  let tr : ProofTree := { tr with parts := tr.parts ++ [(i, q, t, fin)], known := joinKnown tr.known (m.panel q).known }
  s.proofRefresh { m with trees := tr :: m.trees.filter (·.id != id) }

/-! ### Votes and the first use of a domain (R240, R241, R251) -/

/-- R450: a domain's wake latency in µs from its declared low state; HBM from off has no figure of its own (log 63). -/
def State.wakeLatency (s : State) (d : Nat) : Nat :=
  let kept := (s.voteEntry d).low == 1
  let pick (a b : Nat) : Nat := if kept then a else b
  if d = domControl then pick 5 15 else if d = domSentinel then pick 10 130 else if d = domEvent then pick 6 10
  else if d = domFlash then 10 else if d = domHbm then pick 15 0
  else if d < 0x20 then pick 20 60 else if d < 0x30 then pick 2 5 else if d < 0x40 then pick 40 180
  else if d < 0x50 then pick 3 8 else pick 20 5000

/-- R241: a vote of a program at cycle t; it wakes the domain where no program held one. A panel whose program used the domain
before the first vote that wakes it, its own, used it too early (log 143). -/
def Proof.vote (m : Proof) (who t d : Nat) : Proof :=
  if m.votes.contains (who, d) then m
  else
    let held := m.votes.any (·.2 == d)
    let m := m.note (!m.voted.contains d && m.usedFirst.contains (who, d)) 0x27
    { m with
      votes := m.votes ++ [(who, d)]
      voted := m.voted ++ [d]
      woken := if held then m.woken else { domain := d, cycle := t } :: m.woken.filter (·.domain != d) }

/-- R241, R263: a program's vote withdrawn; a commons pair whose last vote goes, and that loses its lines in its low state, holds
no pinned line (09, Edges). -/
def State.proofUnvote (s : State) (m : Proof) (who d : Nat) : Proof :=
  if !m.votes.contains (who, d) then m
  else
    let m := { m with votes := m.votes.filter (· != (who, d)) }
    if m.votes.any (·.2 == d) then m
    else
      let pinned := (s.voteEntry d).low == 0 && m.pins.any fun p => p.lines.any fun l => domCommons (l / 256) == d
      { m.note pinned 0x27 with woken := m.woken.filter (·.domain != d) }

/-- R241: panel q's use at cycle t of a domain: the first use after a program's vote woke it falls within its wake latency. -/
def State.proofUse (s : State) (c : ProofCtx) (q t : Nat) (m : Proof) (d : Nat) : Proof :=
  let m := if m.voted.contains d || m.usedFirst.contains (q, d) then m else { m with usedFirst := m.usedFirst ++ [(q, d)] }
  match m.woken.find? fun w => w.domain == d && !w.used with
  | none => m
  | some w =>
    { m.note (decide (t < w.cycle + s.wakeLatency d * c.mhz)) 0x27 with
      woken := updFirst (fun x : Woken => x.domain == d) (fun x => { x with used := true }) m.woken }

/-- R263: the bank pairs of commons bytes [a, b), and of lines. -/
def pairsOf (a b : Nat) : List Nat :=
  (List.range ((b + 2 ^ 20 - 1) / 2 ^ 20 - a / 2 ^ 20)).map fun i => domCommons (a / 2 ^ 20 + i)

/-- R241: the domains that an instruction uses: of a bobbin tile every bank group, since its lines may lie in any. -/
def State.usesOf (s : State) (m : Proof) (loops : List LoopLevel) (i : Stitch) (rd wr : List Res) : List Nat :=
  (match i with
    | .streamw a _ _ _ _ =>
      let (lo, hi) := (s.pat.tile a).range loops
      domHbm :: ((m.pins.filter fun p => p.lo == lo && p.hi == hi && !p.freeing).flatMap fun p =>
        p.lines.map fun l => domCommons (l / 256))
    | .loadt a _ _ _ _ =>
      let d := s.pat.tile a
      if d.space = spBobbin then (List.range 12).map domBobbin
      else if spBobbin < d.space then
        let side : Fin 2 := if d.space = spWest then 0 else 1
        pairsOf (4096 * s.haloStart side) (4096 * (s.haloStart side + s.haloLines side))
      else []
    | .verdict _ => [domEvent]
    | _ => []) ++
  ascending ((commonsOf (rd ++ wr)).flatMap fun (a, b) => pairsOf a b)

/-- R240, R310: at cycle t a panel is on for certain: the sender itself, one of the sender's own serving group, one of a serving
group on duty, or one that a program's vote woke at least its latency before (log 61). -/
def State.targetOn (s : State) (c : ProofCtx) (m : Proof) (sender : Option Nat) (t target : Nat) : Bool :=
  let g := s.pat.groupOf target
  let runs := decide (0 < (s.pat.entryOf target).count)
  (runs && sender == some target) ||
    (runs && s.pat.slotGroups.contains g && (sender.map s.pat.groupOf == some g || s.onDuty g)) ||
    m.woken.any fun w => w.domain == domPanel target && decide (w.cycle + s.wakeLatency w.domain * c.mhz ≤ t)

/-- R240: a change of one of the control sequencer's token counters at a core cycle, in order of the cycles. -/
def putChange (a : Nat × Nat × Int) : List (Nat × Nat × Int) → List (Nat × Nat × Int)
  | [] => [a]
  | x :: l => if a.1 < x.1 then x :: putChange a l else a :: x :: l

/-- R240: an increment of a token of the control sequencer, or a count that it takes. -/
def Proof.controlToken (m : Proof) (t k : Nat) (change : Int) : Proof :=
  { m with toControl := putChange (t, k, change) m.toControl }

/-- R251: what the control program does at a core cycle. -/
def State.controlEffect (s : State) (c : ProofCtx) (m : Proof) (t : Nat) : Stitch → Proof
  | .vote d => m.vote 16 t d
  | .unvote d => s.proofUnvote m 16 d
  | .sigk target k inc =>
    if target < 16 then m.note (!s.targetOn c m none t target) 0x27 else m.controlToken (t + 8) k inc
  | .waitk k n => m.controlToken t k (-(n : Int))
  | _ => m

/-- R251: what the control program does up to a core cycle. -/
def State.controlUpTo (s : State) (c : ProofCtx) (t : Nat) : List (Nat × Stitch) → Proof → Proof
  | (a, i) :: l, m =>
    if a ≤ t then s.controlUpTo c t l (s.controlEffect c m a i) else { m with control := (a, i) :: l }
  | [], m => { m with control := [] }

/-! ### Tokens (R240, R244) -/

/-- R240: an arrival in order of its cycle. -/
def putArrival (a : Arrival) : List Arrival → List Arrival
  | [] => [a]
  | x :: l => if a.cycle < x.cycle then a :: x :: l else x :: putArrival a l

/-- R240: SIGK at cycle t. -/
def Proof.sigk (m : Proof) (c : ProofCtx) (q t target k inc : Nat) : Proof :=
  if target < 16 then
    let x := m.panel q
    let a : Arrival := { cycle := t + 8, inc := inc, known := x.known.set q t, inst := x.instance? }
    let m := m.upd target fun x => { x with arrivals := x.arrivals.modify k (putArrival a) }
    let x := m.panel target
    m.noteEarly (decide (65535 < ((x.arrivals.getD k []).map (·.inc)).sum + (c.sentTo target k).sum - x.used.getD k 0)) 0x17
  else m.controlToken (t + 8) k inc

/-- The arrivals that make up the counts from `skip` to `upto`, the first of them having begun at count `done`. -/
def arrivalsIn : List Arrival → (done skip upto : Nat) → List Arrival
  | [], _, _, _ => []
  | a :: l, done, skip, upto =>
    if upto ≤ done then []
    else (if skip < done + a.inc then [a] else []) ++ arrivalsIn l (done + a.inc) skip upto

/-- R240, R244, R268: WAITK takes its count. What a body sends is consumed in the same instance. -/
def Proof.waitk (m : Proof) (q k n : Nat) : Proof :=
  let x := m.panel q
  let as_ := x.arrivals.getD k []
  let u := x.used.getD k 0
  let wrong := (arrivalsIn as_ 0 u (u + n)).any fun a => a.inst.isSome && a.inst != x.instance?
  (m.noteEarly wrong 0x17).upd q fun x =>
    { x with
      known := (arrivalsIn as_ 0 0 (u + n)).foldl (fun k a => joinKnown k a.known) x.known
      used := x.used.modify k (· + n) }

/-- R244: at the end of the run: increments that bodies sent and no WAITK took, and panels with a program, of a serving group,
that do not issue the same SLOTs in the same order. -/
def State.slotsDiffer (s : State) (m : Proof) : Bool :=
  (m.panels.any fun x => x.arrivals.zipIdx.any fun (l, k) =>
    (arrivalsIn l 0 (x.used.getD k 0) (((l.map (·.inc)).sum))).any (·.inst.isSome)) ||
    s.pat.slotGroups.any fun g =>
      let live := (s.pat.groupPanels g).filter fun n => decide (0 < (s.pat.entryOf n.val).count)
      let ids := live.map fun n => (m.panel n.val).slots.map (·.1)
      ids.any (· != ids.headD [])

/-! ### Effects -/

/-- R243: the panel leaves a body whose end it has reached. -/
def Proof.leave (m : Proof) (q : Nat) : Proof :=
  let x := m.panel q
  match x.body with
  | some (_, stop, ts, lim) =>
    if x.seq.pc = stop then
      (m.note (decide (lim < x.seq.latest)) 0x22).upd q fun x =>
        { x with body := none, last := (ts, lim), seq := { (x.seq.goto 0 stop) with floor := max x.seq.floor lim } }
    else m
  | none => m

/-- The panel goes on to its next instruction. -/
def Proof.advance (m : Proof) (q : Nat) : Proof :=
  (m.upd q fun x =>
    let base := match x.body with
      | some (a, _, _, _) => a
      | none => 0
    { x with seq := x.seq.goto base (x.seq.pc + 1) }).leave q

/-- R234: words that a vector instruction takes from VQ, in whole vectors. -/
def Pattern.vqWords (p : Pattern) (ins : Stitch) : Nat := match ins with
  | .vector _ d a b _ _ _ =>
    let n := ceilDiv (p.tile d).count 64 * 64
    (if a = descVq then n else 0) + (if b = descVq then n else 0)
  | _ => 0

/-- What an issued instruction does beside taking its unit and resources. -/
def State.proofEffect (s : State) (c : ProofCtx) (m : Proof) (q t : Nat) (o : Outst) (ins : Stitch) : Proof :=
  let loops := (m.panel q).seq.loops
  let range (f : Nat) : Nat × Nat := (s.pat.tile f).range loops
  match ins with
  | .loop n l => m.upd q fun x => { x with seq := x.seq.pushLoop x.seq.pc n l }
  | .sigk target k inc =>
    (m.note (decide (target < 16) && !s.targetOn c m (some q) t target) 0x27).sigk c q t target k inc
  | .waitk k n =>
    if (c.sentTo q k).isEmpty then m.waitk q k n else m.upd q fun x => { x with used := x.used.modify k (· + n) }
  | .drain _ _ _ tgt _ =>
    if tgt = 0 then (m.noteEarly ((m.panel q).vq != 0) 0x17).upd q fun x => { x with vq := 1024 } else m
  | .vector _ _ _ _ _ _ _ =>
    let n := s.pat.vqWords ins
    (m.noteEarly (decide ((m.panel q).vq < n)) 0x17).upd q fun x => { x with vq := x.vq - n }
  | .streamw a _ _ _ _ =>
    let (lo, hi) := range a
    let m := m.upd q fun x => { x with busy := x.busy + (o.free - t) }
    { m with pins := m.pins.map fun p =>
      if p.lo == lo && p.hi == hi && !p.freeing && p.st == .unfilled then
        { p with st := .filling, doneAt := o.done, filler := (q, t) }
      else p }
  | .combine _ d i g tr => s.proofCombine c m q t o.free d i g tr
  | .pin a => let (lo, hi) := range a; s.proofPin c m q lo hi
  | .free a => let (lo, hi) := range a; m.free lo hi
  | .vote d => m.vote q t d
  | .unvote d => s.proofUnvote m q d
  | .slot id l cost =>
    m.upd q fun x =>
      { x with
        slots := (id, t, cost) :: x.slots
        body := some (x.seq.pc + 1, x.seq.pc + 1 + l, t, t + cost)
        seq := { x.seq with floor := max x.seq.floor (t + 2) } }
  | .halt => m.upd q fun x => { x with finished := true, haltAt := o.done }
  | _ => m

/-- R248, R270: stream cycles that an issue adds to instructions under way, by moving the ends of their transfers. -/
def streamMoved (old new : List Outst) : Nat :=
  ((old.filter fun o => o.unit == .stream).map fun o =>
    ((new.find? fun x => x.issue == o.issue).map fun x => x.free - o.free).getD 0).sum

/-- R323: the instruction reads or writes the commons through a view tile. -/
def Pattern.usesView (p : Pattern) (i : Stitch) : Bool := i.fields.any fun f => p.tileOk f && (p.tile f).isView

/-- R250: one instruction of the run. -/
def State.proofStep (s : State) (c : ProofCtx) (m : Proof) (q t : Nat) (ins : Stitch) : Proof :=
  let m := s.controlUpTo c t m.control { m with pins := pinsAt t m.pins }
  let x := m.panel q
  let (unit, rd, wr) := s.need c.time x.seq.loops ins
  let (b, e, accs) := s.timeOf c.time x.seq.loops m.pins x.seq.latest x.vq t ins
  let o : Outst :=
    { pc := x.seq.pc, unit := unit, issue := t, free := t + b, done := e, reads := rd, writes := wr, accs := accs
      mmBank := match ins with
        | .mm _ bank tog _ _ _ _ _ _ => some (bankOf bank tog x.seq.loops)
        | _ => none
      openTree := match ins with
        | .combine _ _ _ _ _ => true
        | _ => false }
  let floor := match ins with
    | .nop n => t + n + 1
    | _ => 0
  let m := s.proofRefresh (m.upd q fun x =>
    let seq := x.seq.issueAt o
    { x with busy := x.busy + streamMoved x.seq.outst seq.outst, seq := { seq with floor := max x.seq.floor floor } })
  let o := ((m.panel q).seq.outst.find? (·.issue == t)).getD o
  let m := (s.usesOf m x.seq.loops ins rd wr).foldl (s.proofUse c q t) m
  let m := if o.openTree then m else
    let access (wr : Bool) (m : Proof) (r : Nat × Nat) : Proof :=
      s.proofAccess m q { panels := [q], issue := t, lo := r.1, hi := r.2, done := o.done, write := wr,
                          view := s.pat.usesView ins, inst := (m.panel q).instance? }
    (commonsOf wr).foldl (access true) ((commonsOf rd).foldl (access false) m)
  (s.proofEffect c m q t o ins).advance q

/-- R250: the run, until no panel issues a further instruction. -/
def State.proofRun (s : State) (c : ProofCtx) : Nat → Proof → Proof
  | 0, m => m
  | fuel + 1, m =>
    match s.proofPick c m with
    | none => m
    | some (t, q, ins) => State.proofRun s c fuel (s.proofStep c m q t ins)

/-- More instructions than 16 programs of 8,192 instructions in four levels of 65,536 can issue. -/
def proofFuel : Nat := 2 ^ 90

/-! ### The control program (R251) -/

/-- R251: a walk through the control program from an entry point: the control cycle reached, and what it does, newest first. -/
def controlWalk (ws : List (BitVec 64)) : Nat → Sequencer → Nat × List (Nat × Stitch) → Nat × List (Nat × Stitch)
  | 0, _, r => r
  | fuel + 1, sq, (n, l) =>
    match (ws[sq.pc]?).bind decodeStitch with
    | none => (n, l)
    | some .halt => (n + 1, l)
    | some (.loop k len) => controlWalk ws fuel ((sq.pushLoop sq.pc k len).goto 0 (sq.pc + 1)) (n + 1, l)
    | some (.nop k) => controlWalk ws fuel (sq.goto 0 (sq.pc + 1)) (n + k + 1, l)
    | some i => controlWalk ws fuel (sq.goto 0 (sq.pc + 1)) (n + 1, (n, i) :: l)

/-- R131, R251: what the control program does from the entry points given, one after the other, as (control cycle,
instruction). -/
def Pattern.controlFrom (p : Pattern) (starts : List Nat) : List (Nat × Stitch) :=
  let starts := starts.filter fun e => decide (e < p.ctrl.length)
  (starts.foldl (fun r pc => controlWalk p.ctrl proofFuel { active := true, pc := pc } r) (0, [])).2.reverse

/-- R251, R455: what the control program does, by core cycles at FRC's 48 MHz: its entry point of READY from cycle 0, then the
others in order, waits taking no time of their own (log 62). -/
def Pattern.controlTimes (p : Pattern) (mhz : Nat) : List (Nat × Stitch) :=
  (p.controlFrom p.entries).map fun (n, i) => (ceilDiv (n * mhz) 48, i)

/-- R251: the increments, as (panel, token, increment), that the control program sends to panels from entry points. -/
def Pattern.controlSends (p : Pattern) (starts : List Nat) : List (Nat × Nat × Nat) :=
  (p.controlFrom starts).filterMap fun (_, i) => match i with
    | .sigk t k inc => if t < 16 then some (t, k, inc) else none
    | _ => none

/-- R240: a token counter of the control sequencer exceeds 65,535 at some cycle (log 62). -/
def Proof.controlFull (m : Proof) : Bool :=
  (List.range 32).any fun k =>
    let (_, peak) := (m.toControl.filter fun x => x.2.1 == k).foldr
      (fun (_, _, d) ((v, p) : Int × Int) => (v + d, max p (v + d))) (0, 0)
    decide (65535 < peak)

/-- R240, R251: a panel before the run: what READY's entry point sends it is there from the start (log 62). -/
def Pattern.proofStart (p : Pattern) (ready : List (Nat × Nat × Nat)) (q : Nat) : ProofPanel :=
  { seq := { active := true }, finished := (p.entryOf q).count == 0,
    arrivals := (List.range 32).map fun k => ready.filterMap fun (t, x, inc) =>
      if t = q ∧ x = k then some { inc := inc, known := List.replicate 16 0 } else none }

/-- R250: the panel waits at a WAITK that the run never satisfies. -/
def State.stuckWait (s : State) (c : ProofCtx) (m : Proof) (q : Nat) : Bool :=
  !(m.panel q).finished && (s.proofIssue c m q).isNone && match s.pat.insAt q (m.panel q).seq.pc with
    | .waitk _ _ => true
    | _ => false

/-- R239: a panel that has not finished still has a COMBINE of a tree id to issue. -/
def State.combineLeft (s : State) (m : Proof) (id q : Nat) : Bool :=
  let sq := (m.panel q).seq
  let from_ := sq.loops.foldl (fun a l => min a l.first) sq.pc
  !(m.panel q).finished && (s.pat.placesOf q).any fun x => decide (from_ ≤ x.pc) && match x.ins with
    | some (.combine _ _ _ _ tr) => tr == id
    | _ => false

/-- R239, R250: a tree is without a contributor: none is left to come, or none waits behind a WAITK. -/
def State.treeShort (s : State) (m : Proof) (stuck : Bool) (t : ProofTree) : Bool :=
  t.done.isNone && !(stuck && (List.range 16).any (s.combineLeft m t.id))

/-- R250: the run of all programs from instruction 0 at a core clock, every SLOT present, with what only its end shows: a
panel that waits for ever, and trees without all contributors. -/
def State.proofModel (s : State) (mhz : Nat) : Proof :=
  let p := s.pat
  let ready := p.controlSends (p.entries.take 1)
  let c : ProofCtx := { mhz := mhz, stream := s.streamLines, sent := p.controlSends (p.entries.drop 1) }
  let full := (List.range 16).any fun q => (List.range 32).any fun k =>
    decide (65535 < ((ready.filter fun x => x.1 == q && x.2.1 == k).map (·.2.2)).sum + (c.sentTo q k).sum)
  let m : Proof := { control := p.controlTimes mhz, panels := (List.range 16).map (p.proofStart ready) }
  let m := s.proofRun c proofFuel m
  let m := m.control.foldl (fun m (t, i) => s.controlEffect c m t i) m
  let total := ((m.most.filter fun (g, _) => p.slotGroups.contains g).map (·.2)).sum
  let ended := m.panels.all (·.finished)
  let stuck := (List.range 16).any (s.stuckWait c m)
  let m := (m.noteEarly (m.trees.any (s.treeShort m stuck)) 0x17).noteEarly (ended && s.slotsDiffer m) 0x17
  let m := m.noteEarly (full || m.controlFull) 0x17
  (m.note stuck 0x22).note (decide (c.stream.length < total)) 0x15

/-! ### The proofs (R270, R315 to R317) -/

/-- A time in µs. -/
abbrev Micros := ℚ

/-- The least integer at or above a time that is not negative. -/
def ceilRat (x : ℚ) : Nat := ceilDiv x.num.toNat x.den

/-- R315: a serving group in a run: its wake latency, first SLOT and longest interval between SLOTs in µs, and its slot ids with
their costs in µs. -/
structure GroupTerms where
  wake : Micros := 0
  first : Micros := 0
  gamma : Micros := 0
  costs : List (Nat × Micros) := []
  deriving Repr, Inhabited

/-- The longest of the intervals between issues given newest first. -/
def longestGap : List Nat → Nat
  | a :: b :: l => max (a - b) (longestGap (b :: l))
  | _ => 0

/-- R310, R315: the terms of a group: over its panels, the latest first SLOT and the longest interval, the restart after
the last HALT included. -/
def State.groupTerms (s : State) (m : Proof) (mhz g : Nat) : GroupTerms :=
  let ps := (s.pat.groupPanels g).map (·.val)
  let duty := s.onDuty g
  let us (n : Nat) : Micros := (n : ℚ) / (mhz : ℚ)
  let restart := (ps.map fun q => (m.panel q).haltAt).foldl max 0 + 1
  let issues := (ps.map fun q => (m.panel q).slots.map (·.2.1)).filter (!·.isEmpty)
  let first := (issues.map fun l => l.getLastD 0).foldl max 0
  let gap := (issues.map fun l => max (longestGap l) (restart + l.getLastD 0 - l.headD 0)).foldl max 0
  let all := ps.flatMap fun q => (m.panel q).slots.map fun (id, _, c) => (id, us c)
  let ids := ascending (all.map (·.1))
  { wake := if duty then 0 else (((ps.map fun q => s.wakeLatency (domPanel q)).foldl max 0 : Nat) : ℚ)
    first := if duty then 0 else us first
    gamma := us gap
    costs := ids.map fun i => (i, ((all.filter (·.1 == i)).map (·.2)).foldl max 0) }

/-- R315: Λ_ready in µs. -/
def Pattern.readyTime (p : Pattern) : Micros :=
  8000000 / (p.dlin.lMax : ℚ) + 6 + (p.swathPs : ℚ) / 1000000 + (p.viewFillPs : ℚ) / 1000000

/-- R315: N(T): the instances certain to issue within T. -/
def instancesIn (gs : List GroupTerms) (t : Micros) : Nat :=
  (gs.map fun g => (⌊(t - g.wake - g.first) / g.gamma⌋).toNat).sum

/-- The least n above `lo` that passes, given that `hi` passes and that whatever follows one that passes does. -/
def leastFrom (ok : Nat → Bool) : Nat → Nat → Nat → Nat
  | 0, _, hi => hi
  | fuel + 1, lo, hi =>
    if hi ≤ lo + 1 then hi
    else
      let mid := (lo + hi) / 2
      if ok mid then leastFrom ok fuel lo mid else leastFrom ok fuel mid hi

/-- R315: T_D: the least T by which D instances are certain to issue, which is an issue of some group; none where N(T) never
reaches D. -/
def densityTime (d : Nat) (gs : List GroupTerms) : Option Micros :=
  if d = 0 then some 0
  else
    let live := gs.filter fun g => decide (0 < g.gamma)
    let times := live.map fun g =>
      let at_ (n : Nat) : Micros := g.wake + g.first + (n : ℚ) * g.gamma
      at_ (leastFrom (fun n => decide (d ≤ instancesIn live (at_ n))) 40 0 d)
    times.foldl (fun b t => some ((b.map (min t)).getD t)) none

/-- R315 to R317: the proof of one schedule on its run: the codes found and its largest Λ_s; `extra` is what the degraded
schedule adds. At a rate of 0 what the rate divides is not checked; step 6 then finds code 0x29 too (R22). -/
def State.scheduleCodes (s : State) (m : Proof) (mhz : Nat) (degraded : Bool) (extra : Micros) : List Nat × Micros :=
  let p := s.pat
  let d := p.dlin
  let gs := (p.groupNumbers.filter (p.serves degraded)).map (s.groupTerms m mhz)
  match densityTime d.density gs with
  | none => ([0x22], 0)
  | some td =>
    let horizonUs (n : Nat) : Micros := (n : ℚ) * 1000000 / (d.cMax : ℚ)
    let spanUs : Micros := (d.span : ℚ) * 1000000 / (d.lMax : ℚ)
    let slots := gs.flatMap fun g => g.costs.filterMap fun (id, c) =>
      (d.slots.find? fun e => e.id == id && bitAt e.flags 0 == degraded).map fun e => (p.readyTime + td + c + extra, e)
    let codes := slots.flatMap fun (l, e) =>
      flag (d.cMax != 0 && decide (horizonUs (min e.deadline d.horizon) < l)) 0x22
        ++ flag (p.hist.isSome && decide (spanUs < l)) 0x22
        ++ flag (decide (p.bobbinDepth ≤ 8 + e.depth + ceilRat ((d.lMax : ℚ) * l / 1000000))) 0x23
    if d.lMax = 0 then ([], 0) else (flag (decide (spanUs < td)) 0x22 ++ codes, (slots.map (·.1)).foldl max 0)

/-- R270: the history demand exceeds half the idle share of the stream engines. -/
def Pattern.historyDemandCodes (p : Pattern) (m : Proof) : List Nat :=
  match p.hist with
  | none => []
  | some h =>
    let span := (m.panels.map (·.seq.latest)).foldl max 0
    let idle : ℚ := (m.panels.map fun x => if span = 0 then (1 : ℚ) else 1 - (x.busy : ℚ) / (span : ℚ)).sum
    flag (decide (idle * 38400000000 / 2 < (2 * h.place * p.dlin.cMax : ℚ) / (h.lSeg : ℚ))) 0x19

/-- R85, R250: a schedule's run at a level and its proofs. -/
def State.levelCodesOf (s : State) (level : Nat) (degraded : Bool) (extra : Micros) : List Nat × Micros :=
  let mhz := levelMhz level
  let m := s.proofModel mhz
  let (l, x) := s.scheduleCodes m mhz degraded extra
  (m.codes ++ l ++ s.pat.historyDemandCodes m, x)

/-- R130: the level of the degraded schedule, where the pattern has one that is a level. -/
def Pattern.degradedLevel (p : Pattern) : Option Nat :=
  if p.hasDegraded && decide (p.voteDegraded ≤ 3) then some p.voteDegraded else none

/-- R85, R317: the normal schedule at the strapped cap and the degraded schedule at its own level. A degraded proof that fails
with 0x22 or 0x23 is code 0x26. -/
def State.proofCodes (s : State) : List Nat :=
  let (normal, most) := s.levelCodesOf s.cap false 0
  let degraded := match s.pat.degradedLevel with
    | some l => (s.levelCodesOf l true most).1.map fun c => if c = 0x22 ∨ c = 0x23 then 0x26 else c
    | none => []
  normal ++ degraded

/-- R85: step 6. -/
def State.stepSix (s : State) : List Nat := s.rateStepCodes ++ s.proofCodes

/-- R85, R224: what the run of the programs shows against the rules that chapter 8 sends to code 0x17, where the descriptors and
the instructions by themselves show no code as low. -/
def State.runCodes (s : State) : List Nat :=
  if (s.tileCodes ++ s.programCodes).all fun c => decide (0x17 < c) then
    (s.proofModel (levelMhz s.cap)).early ++ ((s.pat.degradedLevel.map fun l =>
      (s.proofModel (levelMhz l)).early).getD [])
  else []

/-- R85: step 5. -/
def State.stepFive (s : State) (slot : Nat) : List Nat :=
  s.fieldCodes slot ++ s.programCodes ++ s.runCodes ++ s.commonsCodes

end Sys2Proof.Machine
end

