-- ==== Sys2Proof/Machine/Reset.lean ====
section
/-! DEFINITION. Resets: the reset pins, power-up, brown-outs, supply and clock faults, and the reset exit (R35, R36, R69 to
R71, R98, R461, R462, R471, R515). -/

namespace Sys2Proof.Machine

/-- R83: the digest of the key that a seal pattern burns. -/
def State.sealDigest (s : State) : BitVec 256 := digestBits (sha256 s.pat.sign.key)

/-- R83, R98: a fuse burn that a reset breaks off leaves some of the digest's bits burned; which is free (log 66). -/
def State.cutBurn (s : State) : State :=
  if s.adm.burning then
    let (n, s) := s.takeFree
    { s with fuses := { s.fuses with key := s.fuses.key ||| (s.sealDigest &&& Config.burnedBits n) } }
  else s

/-- R98: what a reset breaks off: a fuse burn, and an erase or program of the flash. -/
def State.breakOff (s : State) : State := s.cutBurn.cutOp

/-- R69, R71: the device in reset, everything outside the thimble at its reset values, with the cause for the last-wake
record. The counters, the phase order, the follower, the timebase, K and the gathered counters are the thimble's. -/
def State.resetOutside (s : State) (cause detail : Nat) : State :=
  let s := s.breakOff
  { pending := s.pending, clock := s.clock, free := s.free
    web := { s.web with stopped := false }
    time := s.time
    wake := { s.wake with cause := cause, detail := detail, awaiting := [] }
    pins := { porstN := s.pins.porstN, rstN := s.pins.rstN, thermtrip := s.pins.thermtrip, blinkAt := s.time.wall }
    adm := { dev := .inReset }
    fuses := s.fuses
    flash := { mem := s.flash.mem }
    bolt := { follower := s.bolt.follower, followEdges := s.bolt.followEdges }
    power := { junction := s.power.junction, supplyFrom := s.power.supplyFrom, vidSince := s.clock }
    hold := { k := s.hold.k, sram := s.hold.sram } }

/-- R13, R69, R462: the whole device in reset, the thimble included; the latch of a brown-out keeps its cause. -/
def State.resetAll (s : State) : State :=
  let s := s.breakOff
  let brown := s.wake.brownOut
  { pending := s.pending, clock := s.clock, free := s.free
    web := { enc := s.web.enc.map fun (e : Encoder) => ({ a := e.a, b := e.b } : Encoder) }
    wake := { cause := if brown then 0x04 else 0x01, detail := if brown then s.wake.detail else 0, brownOut := brown }
    pins := { porstN := false, rstN := s.pins.rstN, thermtrip := s.pins.thermtrip }
    adm := { dev := .inReset }
    fuses := s.fuses
    flash := { mem := s.flash.mem }
    time := { xtFrom := s.clock }
    power := { junction := s.power.junction, vidSince := s.clock } }

/-- PORST_ASSERT (R13, R69): the whole device, thimble included. -/
def execPorstAssert (s : State) : Result := .next s.resetAll

/-- VAON_IN_POWER_UP (R13, R35, R38): as PORST_N; the brown-out latch has lost its supply. -/
def execVaonInPowerUp (s : State) : Result :=
  .next { s with wake := { s.wake with brownOut := false } }.resetAll

/-- BROWN_OUT (R35, R462): acts as PORST_N; the latch keeps cause 0x04 and the limit that was passed. -/
def execBrownOut (s : State) : Result :=
  let limit := if s.power.regulator == .normal then 2 else 1
  .next { s with wake := { s.wake with brownOut := true, detail := limit } }.resetAll

/-- RST_ASSERT (R69): everything outside the thimble; under PORST_N it adds nothing but the pin. -/
def execRstAssert (s : State) : Result :=
  let s := { s with pins := { s.pins with rstN := false } }
  .next (if s.pins.porstN then s.resetOutside 0x02 0 else s)

/-- R70, R471: acts as RST_N, with cause supply fault and a detail. -/
def State.supplyReset (s : State) (detail : Nat) : State := s.resetOutside 0x03 detail

/-- R70: the instant from which the supplies can be back in range. -/
def State.holdSupply (s : State) : State := { s with power := { s.power with supplyFrom := some s.clock } }

/-- R70: the reset of a supply fault may end: none holds it, or all supplies can have been in range for 1 ms. -/
def State.suppliesBack (s : State) : Bool := s.power.supplyFrom.all fun t => decide (t + msPs ≤ s.clock)

/-- SUPPLY_FAULT (R70, R453): a supply leaves its range while READY is high; one that leaves it again while the fault holds
the reset starts the wait of 1 ms anew. -/
def execSupplyFault (supply : Fin 4) (s : State) : Result :=
  when (s.running || s.power.supplyFrom.isSome) s fun s =>
    let s := s.holdSupply
    if s.running then s.supplyReset (supply.val + 1) else s

/-- REFCLK_LOSS (R471): while the PLL runs, from READY on. -/
def execRefclkLoss (s : State) : Result :=
  when (s.running && s.power.locked) s fun s => s.supplyReset 5

/-- HBM_PLL_LOSS (R471): loss of lock while the HBM domain is on. -/
def execHbmPllLoss (s : State) : Result :=
  when (s.running && s.isOn domHbm) s fun s => s.supplyReset 6

/-- R461: THERMTRIP_N is released at the exit of a reset of the whole device below 105 °C. -/
def State.releaseTrip (s : State) (junction : Int) : State :=
  if (s.wake.cause == 0x01 || s.wake.cause == 0x04) && decide (junction < 105 * 16) then
    { s with pins := { s.pins with thermtrip := false } }
  else s

/-- R453: the last-wake record at a reset exit. -/
def State.exitRecord (s : State) : State :=
  { s with wake := { s.wake with
    pos := s.position, atClock := s.clock, wakeWall := s.time.wall, awaiting := [], brownOut := false } }

/-- R461, R515: the stopped state entered again at a reset exit: only the event domain is voted on. The level pins are read
as at every reset exit (R40). -/
def State.stopAgain (s : State) : State :=
  let s := { s with
    adm := { s.adm with dev := .stopped, since := s.clock }
    pins := { s.pins with fault := true }
    markers := { s.markers with inhibited := true } }
  (s.addVote .admission domEvent false).settleClocks

/-- R71, R515: admission starts at step 1. -/
def State.startAdmission (s : State) : State :=
  { s with
    adm := { s.adm with dev := .admitting, since := s.clock }
    power := { Power.atExit s.clock with junction := s.power.junction, vidSince := s.power.vidSince } }

/-- RESET_EXIT (R35, R57, R62, R70, R71, R461): both reset pins are high, and a supply fault holds the device no longer. -/
def execResetExit (testN : Bool) (junction : Int) (s : State) : Result :=
  when (s.adm.dev == .inReset && s.suppliesBack) s fun s =>
    let s := { s with
      pins := { s.pins with porstN := true, rstN := true }
      web := { s.web with lost := false }
      levels := { s.levels with test1 := testN }
      power := { s.power with junction := junction, supplyFrom := none } }
    let s := (s.releaseTrip junction).exitRecord
    if s.pins.thermtrip then s.stopAgain else s.startAdmission

end Sys2Proof.Machine
end

