-- ==== Sys2Proof/Machine/Verify.lean ====
section
/-! DEFINITION. Admission steps 1 to 4: the level pins, the flash and the boot header, the verification of a slot and
compatibility (R40 to R46, R55, R57, R75, R76, R80 to R84, R100, R101, R104, R117). Each check answers the refusal code
of Table: refusal codes, none where it passes. -/

namespace Sys2Proof.Machine

/-- The code of the first check of a list that fails. -/
def firstCode (l : List (Bool × Nat)) : Option Nat := (l.find? (·.1)).map (·.2)

/-! ### Step 1 (R40 to R46, R55, R57) -/

/-- R40 to R46: the level pins as two passes of readings decode, with the samples of the end of pass 2. No pin decodes
with LVL_REF in fault in either pass. With the hold-up bank declared absent the samples taken before stay as they are (log
114). -/
def State.readLevels (s : State) (x : StepInput) : State :=
  let r1 := x.pass1.headD 0
  let r2 := x.pass2.headD 0
  let good := refGood r1 && refGood r2
  let one (i : Nat) : LevelPin :=
    { pass1 := decodeLevel (x.pass1.getD (i + 1) 0) r1, pass2 := decodeLevel (x.pass2.getD (i + 1) 0) r2 }
  let s := { s with levels := { s.levels with
    pin := if good then (List.range 10).map one else List.replicate 10 {}
    decoded := good, refFault := !good, test2 := x.testN, bootHold := x.bootHold } }
  let s := if (s.level 8).isSome then { s with web := { s.web with bLeads := s.lvlI 2 } } else s
  if s.holdUpAbsent then { s with hold := { s.hold with st := .absentByStrap } } else s

/-- R54, R55: VDDIO_FL in mV lies in the range of the flash class. -/
def vddioOk (cls mv : Nat) : Bool :=
  if cls < 2 then decide (2700 ≤ mv ∧ mv ≤ 3600) else decide (1620 ≤ mv ∧ mv ≤ 1980)

/-- R41, R43, R44, R55, R57: the first strap problem in its order. -/
def State.strapCode (s : State) (mv : Nat) : Option Nat :=
  firstCode
    [(!(s.levels.test1 && s.levels.test2), 0x3F), (s.levels.refFault, 0x3C), (s.levels.pin.any (·.fault), 0x3E),
     ((List.range 10).any fun i => (s.level i).isNone, 0x3D), (!vddioOk s.flashClass mv, 0x3B)]

/-! ### Step 2 (R75, R76, R100, R101, R104) -/

/-- Bits of a DWORD of an SFDP table; DWORD 1 comes first. -/
def dwordBits (l : List (BitVec 32)) (n hi lo : Nat) : Nat := field (l.getD (n - 1) 0).toNat hi lo

/-- R101: the density of BFPT DWORD 2 is at least 2³⁰ bits. -/
def densityOk (d : Nat) : Bool :=
  if bitAt d 31 then decide (30 ≤ d % 2 ^ 31) else decide (2 ^ 30 ≤ d + 1)

/-- R101: one of the four erase types of BFPT DWORD 8 and 9 is of 2¹⁶ bytes: the types that are. -/
def eraseTypes (f : FlashId) : List Nat :=
  (List.range 4).filter fun i => dwordBits f.bfpt (8 + i / 2) (16 * (i % 2) + 7) (16 * (i % 2)) == 16

/-- R75, R101, R104: the flash has every value required. -/
def flashIdOk (f : FlashId) : Bool :=
  let bytes := dwordBits f.bfpt 1 18 17
  let qer := dwordBits f.bfpt 15 22 20
  f.responds && f.signature == 0x50444653 && f.hasBfpt && f.hasBait && (bytes == 1 || bytes == 2) &&
    dwordBits f.bfpt 1 21 21 == 1 && dwordBits f.bfpt 1 22 22 == 1 && densityOk (f.bfpt.getD 1 0).toNat &&
    decide (8 ≤ dwordBits f.bfpt 11 7 4) && qer != 7 && (qer == 0 || f.qe) &&
    dwordBits f.bait 1 4 4 == 1 && dwordBits f.bait 1 5 5 == 1 && dwordBits f.bait 1 6 6 == 1 &&
    (eraseTypes f).any fun i => dwordBits f.bait 1 (9 + i) (9 + i) == 1 && dwordBits f.bait 2 (8 * i + 7) (8 * i) == 0xDC

/-- R100: the magic, the map version and the seven pointer and size fields of a boot header. -/
def bootFields : List Byte :=
  bytesOf [0x46, 0x48, 0x58, 0x42, 0x4F, 0x4F, 0x54, 0x0A, 1, 0] ++ leBytes 2 0
    ++ [0x0010000, 0x3000000, 0x3010000, 0x3000000, 0x6010000, 0x6810000, 0x800000].flatMap (leBytes 4)

/-- R100: a boot-header copy carries what Table: flash map requires; reserved bytes are not compared. -/
def bootOk (b : List Byte) : Bool :=
  sliceB b 0 10 == bootFields.take 10 && sliceB b 12 28 == bootFields.drop 12

/-- R75, R100: the first copy with a valid CRC-32 decides. -/
def State.bootCode (s : State) : Option Nat :=
  let good (b : List Byte) : Bool := (crc32 (sliceB b 0 0x3C)).toNat == uAt b 0x3C 4
  match [s.flashBytes 0 64, s.flashBytes 0x800 64].find? good with
  | some b => if bootOk b then none else some 0x02
  | none => some 0x02

/-- R76: the slots in the order of the policy. -/
def State.slotOrder (s : State) : List Nat :=
  match slotPolicy ((s.level 4).getD 0) with
  | some l => l
  | none =>
    let a := s.readHead 0
    let b := s.readHead 1
    if a.readable && b.readable && decide (a.issue < b.issue) then [1, 0] else [0, 1]

/-! ### Step 3 (R80 to R83) -/

/-- R82, R83: the signature checks of a pattern with a seal flag, over the digest: the code, and the digest of the key
carried, none where no signature is carried. -/
def State.signatureCode (s : State) (sealing : Bool) (sg : SignSec) (digest : List Byte) : Option Nat :=
  let key := digestBits (sha256 sg.key)
  firstCode
    [(!sg.present && (s.fuses.flag || s.sealedRole || sealing), 0x0B),
     (sg.present && !ed25519Ok sg.key digest sg.signature, 0x0B),
     (s.fuses.flag && s.fuses.key != key, 0x0D),
     (sealing && (s.fuses.flag || s.fuses.key &&& ~~~key != 0), 0x0E)]

/-- R80, R81: the checks of step 3 that HEAD alone decides. The spec gives a read timeout or controller error (0x0F) no place
among the checks of R80; here it comes before them all (log 109). -/
def State.headCode (s : State) (h : Head) (flashError : Bool) : Option Nat :=
  firstCode
    [(s.sealedRole && !s.fuses.flag, 0x0C), (flashError, 0x0F), (h.bytes.all (· == 0xFF), 0x03), (!h.ok, 0x04),
     (!h.totalOk, 0x05)]

/-- R80: the checks of step 3 over the sections of a well-formed table. -/
def State.sectionsCode (s : State) (slot : Nat) (h : Head) (es : List SectionEntry) : Option Nat :=
  let sealing := h.flags % 2 == 1
  let recd := ((es.find? (·.tag == tagRecd)).map (s.sectionBytes slot)).getD []
  let sg := parseSign (((es.find? (·.tag == tagSign)).map (s.sectionBytes slot)).getD [])
  let digest := s.slotDigest slot es
  (firstCode
    [(es.any fun e => !s.sectionOk slot e, 0x07),
     (sectionsIncomplete sealing es || (!sealing && (readRecd recd).isNone), 0x08), (sg.digest != digest, 0x09),
     (h.fingerprint != digest.take 8, 0x0A)]).or (s.signatureCode sealing sg digest)

/-- R80: step 3 over a slot; the sections are read only where the table bounds them. -/
def State.verifyCode (s : State) (slot : Nat) (flashError : Bool) : Option Nat :=
  let h := s.readHead slot
  match s.headCode h flashError with
  | some c => some c
  | none => if s.tableMalformed slot h then some 0x06 else s.sectionsCode slot h (s.readTable slot h)

/-- R82: the first 64 bits of the key digest of a pattern that carries a signature. -/
def signerOf (sg : SignSec) : List Byte := if sg.present then (sha256 sg.key).take 8 else []

/-! ### Step 4 (R84, R117) -/

/-- R84: step 4 over the pattern read. -/
def State.compatCode (s : State) : Option Nat :=
  let h := s.pat.head
  let b := s.pat.bound
  let die := Config.stepping.toNat
  let boundList := (List.range (min 16 (uAt b 8 1))).map fun i => uAt b (0x0C + 2 * i) 2
  firstCode
    [(h.stepCount == 0 || decide (16 < h.stepCount) || !(h.steppings.take h.stepCount).contains die, 0x38),
     (h.major != 1 || decide (2 < h.minor), 0x39), (s.pat.table.any (·.version != 1), 0x39),
     (!boundList.contains die, 0x38),
     (b != sliceB h.bytes 8 4 ++ sliceB h.bytes 0x14 4 ++ sliceB h.bytes 0x30 0x24, 0x39)]

end Sys2Proof.Machine
end

