-- ==== Sys2Proof/Machine/Admission.lean ====
section
/-! DEFINITION. The admission sequence: its steps, refusal and fallback, sealing, loading, the reference check, records and
the start of bolt formation; the lock of the PLL (R58, R72 to R97, R102, R168, R182, R190, R193, R456, R457, R476, R485). -/

namespace Sys2Proof.Machine

/-! ### Refusal and fallback (R77, R78, R95 to R97) -/

/-- R95: the codes after which no other slot is tried. -/
def endsAdmission (code : Nat) : Bool :=
  code == 0x01 || code == 0x02 || code == 0x0C || code == 0x3A || decide (0x3B ≤ code ∧ code ≤ 0x3F)

/-- R78: the code and the step of a refusal, kept for the slot under test. -/
def State.noteCode (s : State) (code step : Nat) : State :=
  let a := { s.adm with shown := code }
  { s with adm := match s.adm.slot with
    | some 0 => { a with codeA := (code, step) }
    | some _ => { a with codeB := (code, step) }
    | none => a }

/-- R77: every result of an attempt is discarded. -/
def State.discardAttempt (s : State) : State :=
  let s := { s with
    adm := { s.adm with signer := [], warm := false, partly := false, chosen := none, otherReads := none }
    pat := {}, hbm := {}, tables := {}, sentinel := {}, intake := {}
    commons := { s.commons with stream := [] } }
  s.dropVote .admission domHbm false

/-- R60, R96: the refused state; what admission powers falls to the control sequencer, the event domain and, from step 2 on,
the flash controller (R515). The blink timers run on, so the code's first cycle may begin in its middle (log 112). -/
def State.refusedState (s : State) : State :=
  let s := s.dropVote .admission domHbm false
  { s with
    adm := { s.adm with dev := .refused }
    pins := { s.pins with fault := true, flash := .highZ } }

/-- R77, R78: a refusal of the slot under test, which discards its attempt, or of the device. -/
def State.refuse (s : State) (code : Nat) : State :=
  let s := s.noteCode code s.adm.step
  if endsAdmission code then s.refusedState
  else match s.adm.order with
    | next :: rest =>
      let s := s.discardAttempt
      { s with adm := { s.adm with step := 3, slot := some next, order := rest } }
    | [] => s.discardAttempt.refusedState

/-- R97: a platform check fails, with its subcause and array. -/
def State.refusePlatform (s : State) (subcause array : Nat) : State :=
  ({ s with adm := { s.adm with subcause := subcause, subArray := array } }).refuse 0x3A

/-- R72: a step that ends with a code refuses; otherwise f takes admission on. -/
def State.orRefuse (s : State) (code : Option Nat) (f : State → State) : State :=
  match code with
  | some c => s.refuse c
  | none => f s

/-- R72: the next step begins. -/
def State.toStep (s : State) (n : Nat) : State := { s with adm := { s.adm with step := n } }

/-! ### Steps 1 to 4 -/

/-- R36, R74, R75, R515: step 2 begins: the flash controller is voted on and its pins are driven. The PLL is requested
with it (State.pllNeeded). -/
def State.startFlash (s : State) : State :=
  let s := { s with adm := { s.adm with dev := .admitting, step := 2 }, pins := { s.pins with flash := .driven } }
  s.addVote .admission domFlash false

/-- Step 1 (R40 to R46, R55, R57, R58). -/
def State.endStep1 (s : State) (x : StepInput) : State :=
  let s := s.readLevels x
  s.orRefuse (s.strapCode x.vddioMv) fun s =>
    if x.bootHold then s.startFlash else { s with adm := { s.adm with dev := .bootHold } }

/-- Step 2 (R75, R76, R101). -/
def State.endStep2 (s : State) (x : StepInput) : State :=
  let s := { s with adm := { s.adm with jedec := x.flash.jedec } }
  s.orRefuse (if !flashIdOk x.flash || x.flashError then some 0x01 else s.bootCode) fun s =>
    let l := s.slotOrder
    { s with adm := { s.adm with step := 3, slot := l.head?, order := l.drop 1 } }

/-- Step 3 (R80). -/
def State.endStep3 (s : State) (slot : Nat) (x : StepInput) : State :=
  s.orRefuse (s.verifyCode slot x.flashError) fun s =>
    let p := s.readPattern slot
    ({ s with pat := p, adm := { s.adm with signer := signerOf p.sign } }).toStep 4

/-- R83: the fuse burn of a seal pattern begins. -/
def State.startBurn (s : State) : State := { s with adm := { s.adm with burning := true } }

/-- R83: the fuse burn ends: every bit of the digest is burned, reads back so, and the seal flag follows. A fuse that does
not take is not modelled, since the spec does not say what follows a difference of the read-back (log 66). -/
def State.burn (s : State) : State :=
  { s with
    fuses := { key := s.fuses.key ||| s.sealDigest, flag := true }
    adm := { s.adm with dev := .sealComplete, burning := false } }

/-- Step 4 (R83, R84): the checks, and for a seal pattern the burn, which a further end of the step completes. -/
def State.endStep4 (s : State) : State :=
  if s.adm.burning then s.burn
  else s.orRefuse s.compatCode fun s => if s.pat.head.flags % 2 == 1 then s.startBurn else s.toStep 5

/-! ### Steps 8 to 10 -/

/-- Step 8 (R86): training, the second read with its CRCs, and the read-back, in that order (R85); of an error of the second
read and a CRC that fails the error counts (log 109). -/
def State.endStep8 (s : State) (slot : Nat) (x : StepInput) : State :=
  if !x.hbmTrains then s.refusePlatform 2 0
  else if x.flashError then s.refuse 0x0F
  else if !s.loadOk slot then s.refuse 0x07
  else if !x.hbmReadsBack then s.refusePlatform 2 0
  else (s.loadHbm slot).toStep 9

/-- R170, R188: the rows of a macro as SNTL writes them; a macro that is not used holds zeros. -/
def Sntl.macroRows (n : Sntl) (m : Nat) : List (BitVec 128) :=
  if n.groupOf.getD m 0xFF = 0xFF then []
  else (List.range 256).map fun r => BitVec.ofNat 128 (uAt (n.imageOf m) (8 * r) 8)

/-- R170: the cells of a value in w columns. -/
def cellBits (w : Nat) (v : Int) : Nat := if w = 1 then bit (v == 1) else unsigned w v

/-- R124, R193: the columns of row r of a lattice tensor, the first at bit 0. -/
def State.latticeRow (s : State) (slot : Nat) (e : WghtEntry) (r : Nat) : Nat :=
  let data := s.tensorData slot e
  ((List.range (e.dims.getD 0 0)).map fun c =>
    cellBits e.latBits (latticeElem e.fmt data (c * e.dims.getD 1 0 + r)) * 2 ^ (e.latBits * c)).sum

/-- R88, R193: the rows of a lattice: every tensor placed in it. -/
def State.latticeRows (s : State) (slot panel lattice : Nat) : List (BitVec 128) :=
  let es := s.pat.wght.filter fun e =>
    e.lattice && e.placement.panel == panel && e.placement.lattice == lattice
  if es.isEmpty then []
  else (List.range 512).map fun r =>
    BitVec.ofNat 128 ((es.map fun e =>
      let p := e.placement
      if p.row ≤ r ∧ r < p.row + p.rows then s.latticeRow slot e (r - p.row) * 2 ^ p.col else 0).sum)

/-- R88, R168: the cells of an array as step 10 writes them. -/
def State.cellsOf (s : State) (slot : Nat) (x : ArrayId) : List (BitVec 128) :=
  if isMacro x then s.pat.sntl.macroRows x.val
  else s.latticeRows slot ((x.val - 8) / 2) ((x.val - 8) % 2)

/-- R181, R182: the reference sweep of step 10 over one array, with its provisional trims; the first array with a reference
column out of range is kept. -/
def State.referenceSweep (s : State) (bad : Option ArrayId) (x : ArrayId) : Option ArrayId × State :=
  let (trims, refs, clamped) := s.sentinel.arrays[x].sweep (s.timeDomain x) (arrayRows x) (arrayCols x) 16 s.free
  let s := { s with free := s.free + sweepFree (arrayRows x) (arrayCols x) 16 }
  let s := s.updArray x fun a => { a with trims := trims, provisional := trims }
  let s := { s with sentinel := { s.sentinel with clamped := satAdd 16 s.sentinel.clamped clamped } }
  (bad.orElse fun _ => if refs.isEmpty then none else some x, s)

/-- R51, R190: the effective basting threshold. -/
def State.effectiveThreshold (s : State) : Int :=
  clampInt (-32768) 32767 (s.pat.sntl.threshold + 64 * s.sentinelTrim)

/-- R90, R156: the FLAT defaults of every pixel. -/
def Pattern.flatCoefs (p : Pattern) : CoefSet :=
  { g := p.flat.gains, o := p.flat.offsets, m := List.replicate p.intk.width 16384 }

/-- Step 10 (R88, R168, R182). -/
def State.endStep10 (s : State) (slot : Nat) : State :=
  let write (s : State) (x : ArrayId) : State := s.updArray x fun _ => { rows := s.cellsOf slot x }
  let s := (List.finRange 40).foldl write s
  let (bad, s) := (List.finRange 40).foldl (fun (bad, s) x => State.referenceSweep s bad x) (none, s)
  match bad with
  | some x => s.refusePlatform 3 x.val
  | none =>
    ({ s with
      sentinel := { s.sentinel with threshold := s.effectiveThreshold }
      intake := { s.intake with coef := s.pat.flatCoefs } }).toStep 11

/-! ### Step 11: records (R89 to R92, R137, R476, R485) -/

/-- R91, R109: the classes that the other slot's RECD declares, none where it cannot be read within the slot's total length
or is not well formed. -/
def State.readsOf (s : State) (slot : Nat) : Option (List Nat) :=
  let h := s.readHead slot
  let inside (a n : Nat) : Bool := decide (a + n ≤ h.total)
  let tableOk := decide (h.sections ≤ 15) && h.tableOff == 0x100 && inside 0x100 (32 * h.sections) &&
    (crc32 (s.flashBytes (slotBase slot + 0x100) (32 * h.sections))).toNat == h.tableCrc
  if h.ok && h.totalOk && tableOk then
    match (s.readTable slot h).find? (·.tag == tagRecd) with
    | some e =>
      if inside e.offset e.length && s.sectionOk slot e then
        (readRecd (s.sectionBytes slot e)).map fun l => l.map fun r => r.kind + 65536 * r.version
      else none
    | none => none
  else none

/-- R90: the class that the pattern reads: the first read entry in RECD order whose class the copy holds. -/
def State.readClass (s : State) : Option (RecEntry × RecClass) :=
  let cs := (s.adm.chosen.map (·.classes)).getD []
  s.pat.reads.findSome? fun e =>
    (cs.find? fun c => c.kind == e.kind && c.version == e.version).map fun c => (e, c)

/-- R480: the element size and count that the device uses for a field. -/
def Pattern.fieldShape (p : Pattern) (id : Nat) : Option (Nat × Nat) :=
  if id = 1 ∨ id = 2 ∨ id = 5 then some (2, p.intk.width)
  else if id = 3 then some (4, 544)
  else if id = 4 then some (4, 4224)
  else if id = 6 then some (4, 10)
  else if id = 7 then some (8, 64)
  else none

/-- R137: the elements of a declared field that the class holds as the declaration and the device's own use have it. -/
def State.readField (s : State) (c : RecClass) (f : RecField) : Option (List Nat) :=
  if s.pat.fieldShape f.id = some (f.size, f.count) then
    (c.field f).map fun b => (List.range f.count).map fun i => uAt b (f.size * i) f.size
  else none

/-- R137: trims for the arrays from index i on, n of them with c columns. -/
def State.loadTrims (s : State) (i n c : Nat) (ws : List Nat) : State :=
  (List.finRange 40).foldl (fun s x =>
    if i ≤ x.val ∧ x.val < i + n then
      s.updArray x fun a => { a with trims := ((ws.drop (c * (x.val - i))).take c).map trimOf }
    else s) s

/-- R402, R403: the latency results of a record. -/
def State.loadLatency (s : State) (ws : List Nat) : State :=
  let links := s.bolt.links.mapIdx fun i (l : BoltLink) =>
    let m := ws.getD (2 + 2 * i) 0
    { l with mean := if m = 0 then none else some m, maxOneWay := ws.getD (3 + 2 * i) 0 }
  { s with bolt := { s.bolt with
    latGen := BitVec.ofNat 32 (ws.getD 0 0), grace := ws.getD 1 0, links := links } }

/-- R137: one field of a warm start takes effect. -/
def State.loadField (s : State) (id : Nat) (v : List Nat) : State :=
  let c := s.intake.coef
  if id = 1 then { s with intake := { s.intake with coef := { c with g := v } } }
  else if id = 2 then { s with intake := { s.intake with coef := { c with o := v.map (signed 16) } } }
  else if id = 3 then s.loadTrims 0 8 68 v
  else if id = 4 then s.loadTrims 8 32 132 v
  else if id = 5 then { s with intake := { s.intake with coef := { c with m := v } } }
  else if id = 6 then s.loadLatency v
  else if id = 7 then { s with flash := { s.flash with counters := v } }
  else s

/-- R90, R137: a warm start: the declared fields are taken from the class, and any default sets the "partial" flag. -/
def State.warmStart (s : State) (e : RecEntry) (c : RecClass) : State :=
  let s := { s with adm := { s.adm with warm := true, partly := e.fields.any fun f => (s.readField c f).isNone } }
  e.fields.foldl (fun s f =>
    match s.readField c f with
    | some v => s.loadField f.id v
    | none => s) s

/-- R485: the newest counter entry of the chosen copy: its counters count where it is of the class read. -/
def State.loadJournal (s : State) (read : Option (RecEntry × RecClass)) : State :=
  match s.adm.chosen.bind s.newestEntry with
  | some (idx, kind, version, counters) =>
    let mine := (read.map fun (_, c) => c.kind == kind && c.version == version).getD false
    { s with flash := { s.flash with
      journal := idx + 1, counters := if mine then counters else s.flash.counters } }
  | none => s

/-- R486: counter 19 before the record is read: the highest reading so far. -/
def State.startPeak (s : State) : State :=
  { s with flash := { s.flash with counters := s.flash.counters.set 19 (unsigned 64 (s.power.peak.getD 0)) } }

/-- R486: counter 19 after it: the higher of the stored value and the readings since the reset exit. -/
def State.joinPeak (s : State) : State :=
  let peak c := unsigned 64 (max (signed 64 c) (s.power.peak.getD (signed 64 c)))
  { s with flash := { s.flash with counters := s.flash.counters.modify 19 peak } }

/-- R476: K from counter 13 of a warm start, where the thimble holds none. -/
def State.loadCharge (s : State) : State :=
  let k := s.flash.counters.getD 13 0
  if s.adm.warm && s.hold.k.isNone && k != 0 then { s with hold := { s.hold with k := some k } } else s

/-- R93, R381, R397, R515: step 12 begins: a standalone device and the position master raise READY, the others form the bolt. -/
def State.startBolt (s : State) : State :=
  let s := s.toStep 12
  if s.role = 0 then s.raiseReady
  else
    let seams := (s.entry.map (·.seams)).getD 0
    let s := s.addVotes .admission ((allPorts.filter fun q => bitAt seams q.val).map fun q => domSeam q.val) false
    let s := { s with bolt := { s.bolt with mode := 1, formFrom := s.clock } }
    if s.isMaster then ({ s with bolt := { s.bolt with mode := 2 } }).raiseReady.helloAll else s

/-- Step 11 (R89 to R92, R402). -/
def State.endStep11 (s : State) (slot : Nat) (x : StepInput) : State :=
  if x.flashError then s.refuse 0x0F
  else
    let s := { s with adm := { s.adm with chosen := s.chooseCopy, otherReads := s.readsOf (1 - slot) } }
    if copySize < s.recordBytes then s.refuse 0x1A
    else
      let read := s.readClass
      let s := { s with bolt := { s.bolt with grace := s.graceZero } }.startPeak
      let s := match read with
        | some (e, c) => s.warmStart e c
        | none => s
      ((s.loadJournal read).joinPeak.loadCharge).startBolt

/-! ### The commands -/

/-- The domains that the end of a step needs on: the flash controller for what reads it, and HBM for its load. -/
def State.stepPowered (s : State) : Bool :=
  let n := s.adm.step
  s.isOn domControl && (n < 2 || s.isOn domFlash) && (n < 2 || s.power.locked) && (n != 8 || s.isOn domHbm)

/-- One step of admission ends on the slot under test. -/
def State.endStep (s : State) (x : StepInput) : State :=
  let slot := s.adm.slot.getD 0
  match s.adm.step with
  | 1 => s.endStep1 x
  | 2 => s.endStep2 x
  | 3 => s.endStep3 slot x
  | 4 => s.endStep4
  | 5 => s.orRefuse (lowestCode (s.stepFive slot)) fun s => s.toStep 6
  | 6 => s.orRefuse (lowestCode s.stepSix) fun s =>
      ({ s with commons := { s.commons with stream := s.streamLines } }).toStep 7
  | 7 => s.orRefuse (lowestCode s.boltStepCodes) fun s => (s.addVote .admission domHbm false).toStep 8
  | 8 => s.endStep8 slot x
  | 9 => (s.buildWeights slot).toStep 10
  | 10 => s.endStep10 slot
  | 11 => s.endStep11 slot x
  | _ => s

/-- R40, R461: the level pins of a stopped device whose reset exit came with the trip latched, or which stopped in step 1,
are still to be read. -/
def State.levelsDue (s : State) : Bool :=
  s.adm.dev == .stopped && s.adm.step == 1 && !s.levels.decoded && !s.levels.refFault &&
    decide (s.adm.since + 11 * msPs ≤ s.clock)

/-- ADMISSION_STEP_COMPLETE (R72): the step that runs ends; step 1 no earlier than the end of pass 2 (R40). A stopped device
only reads its level pins. -/
def execAdmissionStepComplete (x : StepInput) (s : State) : Result :=
  if s.levelsDue then .next (s.readLevels x).settle
  else when (s.adm.dev == .admitting && s.stepPowered &&
      (s.adm.step != 1 || decide (s.adm.since + 11 * msPs ≤ s.clock))) s fun s => (s.endStep x).settle

/-- BOOT_HOLD_RELEASE (R58): BOOT_HOLD has been high for 10 ms, so the wait ends. -/
def execBootHoldRelease (s : State) : Result :=
  when (s.adm.dev == .bootHold) s fun s => s.startFlash.settle

/-- R457: the core clock runs as the PLL locks: at 400 MHz before READY; from READY at the level's rate once VID has settled. -/
def State.startCore (s : State) : State :=
  let still := s.pins.vid == s.power.vidTarget && decide (s.power.vidSince + 10 * usPs ≤ s.clock)
  { s with power :=
    if !s.sinceReady || still then { s.power with coreMhz := s.clockGoal, clockPending := false }
    else { s.power with clockPending := true } }

/-- PLL_LOCK (R74, R251, R456, R457, R466): the control sequencer moves to the PLL where admission or PLLSW asks for it, once
the core clock runs. -/
def execPllLock (s : State) : Result :=
  when (s.power.pll && !s.power.locked) s fun s =>
    let s := { s with
      power := { s.power with locked := true }
      control := { s.control with wantPll := s.control.wantPll || s.adm.dev == Device.admitting } }
    let s := s.startCore
    ((if s.power.clockPending then s else s.joinPll).controlEvent 0).settle

/-- PLL_LOCK_TIMEOUT (R74, R471): no lock 1 ms after the request: admission is refused, and a running device resets as for
the loss of REFCLK. -/
def execPllLockTimeout (s : State) : Result :=
  when (s.power.pll && !s.power.locked && decide (s.power.pllSince + msPs ≤ s.clock)) s fun s =>
    if s.adm.dev == .admitting then (s.refusePlatform 1 0).settle
    else if s.running then s.supplyReset 5
    else s

end Sys2Proof.Machine
end

