-- ==== Sys2Proof/Machine/Status.lean ====
section
/-! DEFINITION. The outputs that follow from the state, the status pages and the identity block
(R36, R61 to R67, R342, R343, R416, R439, R479). -/

namespace Sys2Proof.Machine

/-! ### Outputs -/

/-- What a push-pull or tristate output shows. -/
inductive Drive where
  | highZ | low | high
  deriving DecidableEq, Repr

/-- R35: a reset pin is asserted. -/
def State.inReset (s : State) : Bool := s.adm.dev == .inReset

/-- R36, R53, R347: a marker output. -/
def State.markerPin (s : State) (m : MarkerId) : Drive :=
  if s.inReset || (s.level 8).isNone then .highZ
  else
    let on := !s.markers.inhibited && s.markers.fires.any fun f => f.marker == m.val && f.stage == .pulse
    if on != s.lvlI 1 then .high else .low

/-- R36, R58, R489: FL_CS_N, low while a command is on the flash bus. -/
def State.flCsN (s : State) (qer : Nat) : Drive :=
  if s.pins.flash != .driven then .highZ else if (s.flashBus qer).isEmpty then .high else .low

/-- R61: READY. -/
def State.ready (s : State) : Bool := s.running
/-- R340: EVT_RDY. -/
def State.evtRdy (s : State) : Bool := !s.inReset && s.isOn domEvent && !s.events.queue.isEmpty
/-- R36, R63: RATE_RISK, low until the level pins have been read. -/
def State.rateRisk (s : State) : Bool :=
  (s.levels.decoded || s.levels.refFault) && (s.pins.riskRate || s.pins.riskThermal)
/-- R63: BOLT_OK. -/
def State.boltOk (s : State) : Bool := s.running && (s.role == 0 || s.inBolt)

/-- What a STAT output shows (R65, R66): `code` blinks a refusal code. -/
inductive Light where
  | off | on | hz1 | hz4 | code (c : Nat)
  deriving DecidableEq, Repr

/-- R67, R464: STAT[3:0] are released with the PLL stopped and the web client without run votes. -/
def State.statReleased (s : State) : Bool :=
  s.running && !s.power.pll && (s.power.web == .rest || s.power.web == .deep)

/-- R65: the indications of STAT0 to STAT3; the first row of the table that applies wins. The table has no row for the
flushed state, in which all four are off here (log 113). -/
def State.lights (s : State) : List Light :=
  match s.adm.dev with
  | .inReset => [.off, .off, .off, .off]
  | .stopped => [.off, .hz4, .off, .off]
  | .refused => [.off, .code s.adm.shown, .off, .off]
  | .bootHold => [.hz4, .off, .off, .off]
  | .admitting => [.hz1, .off, .off, if s.adm.step = 12 then .hz1 else .off]
  | .sealComplete => [.on, .off, .off, .off]
  | .flushed => [.off, .off, .off, .off]
  | .running =>
    if s.statReleased then [.off, .off, .off, .off]
    else [.on, if s.pins.fault then .on else .off,
      if s.rateRisk then .hz4 else if s.web.stopped then .off else .on,
      if s.role == 0 then .off else if s.inBolt then .on else .hz4]

/-- R66: the blink of a code in steps of 200 ms from the start of its cycle: two groups of blinks, each 200 ms on
and off, with 1.0 s and 3.0 s off after them. -/
def codeLit (c step : Nat) : Bool :=
  let n1 := c / 16 % 4 + 1
  let n2 := c % 16 + 1
  let t := step % (2 * n1 + 5 + 2 * n2 + 15)
  if t < 2 * n1 then t % 2 == 0
  else if t < 2 * n1 + 5 then false
  else if t < 2 * n1 + 5 + 2 * n2 then (t - (2 * n1 + 5)) % 2 == 0
  else false

/-- R65, R66: whether a light is lit at a phase of the blink timers. The phase counts 25 ms, a common divisor of the
125 ms, 200 ms and 500 ms of the indications. -/
def Light.lit (l : Light) (phase : Nat) : Bool :=
  match l with
  | .off => false
  | .on => true
  | .hz1 => phase / 20 % 2 == 0
  | .hz4 => phase / 5 % 2 == 0
  | .code c => codeLit c (phase / 8)

/-- R65: STAT[3:0] sinking current now, STAT0 first. -/
def State.stat (s : State) : List Bool := s.lights.map (·.lit s.pins.blink)

/-- R65, R66: a step of the blink timers, 25 ms of the wall timebase (R505). -/
def blinkPs : Nat := 25 * msPs

/-- STAT_BLINK_TIMER (R66, R505): the blink timers step, on the wall timebase. -/
def execStatBlinkTimer (s : State) : Result :=
  when (decide (s.pins.blinkAt + blinkPs ≤ s.time.wall)) s fun s =>
    { s with pins := { s.pins with blink := s.pins.blink + 1, blinkAt := s.pins.blinkAt + blinkPs } }

/-! ### Identity and status pages -/

/-- Bytes placed at offsets of a block of n bytes; the rest reads 0. -/
def layBytes (n : Nat) (parts : List (Nat × List Byte)) : List Byte :=
  parts.foldl (fun b (o, x) => (b.take o ++ x ++ b.drop (o + x.length)).take n) (List.replicate n 0)

/-- R81: the sealed state. -/
def State.isSealed (s : State) : Bool := s.fuses.flag

/-- R342: the fingerprint of the running pattern; zero when none runs. -/
def State.fingerprintShown (s : State) : List Byte :=
  if s.running then sliceB s.pat.head.fingerprint 0 8 else List.replicate 8 0

/-- R342: the identity block. -/
def State.identityBlock (s : State) : List Byte :=
  layBytes 32
    [(0, leBytes 2 0x7240), (2, leBytes 2 Config.stepping.toNat), (4, leBytes 1 ((s.station).getD 0)),
     (5, leBytes 1 ((s.level 4).getD 0)), (6, leBytes 2 s.address.toNat), (8, s.fingerprintShown),
     (0x10, leBytes 8 Config.dieSerial.toNat), (0x18, leBytes 1 (bit s.isSealed))]

/-- R343: the state code of page 0; a flushed or refused device reads as the table lists. -/
def stateCode : Device → Nat
  | .inReset => 0 | .admitting => 0 | .bootHold => 1 | .running => 2 | .refused => 3 | .sealComplete => 4
  | .stopped => 5 | .flushed => 2

/-- R337: the oldest ticket. -/
def Events.oldest (e : Events) : BitVec 16 := (e.queue.head?.map (·.ticket)).getD e.nextTicket

/-- R343: page 0. -/
def State.page0 (s : State) : List Byte :=
  let a := s.adm
  layBytes 64
    [(0, leBytes 1 (stateCode a.dev)), (1, leBytes 1 a.step), (2, leBytes 1 (a.slot.getD 0xFF)),
     (3, leBytes 1 s.wake.cause), (4, leBytes 1 a.codeA.1 ++ leBytes 1 a.codeA.2),
     (6, leBytes 1 a.codeB.1 ++ leBytes 1 a.codeB.2), (8, s.fingerprintShown),
     (0x10, sliceB a.signer 0 8)] |>
  fun b => layBytes 64
    [(0, b),
     (0x18, leBytes 1 (bit s.isSealed + 2 * bit a.warm + 4 * bit a.partly + 8 * bit s.web.stopped
        + 16 * bit s.web.lost + 32 * bit s.rateRisk + 64 * bit s.inBolt + 128 * bit (s.bolt.mode == 3))),
     (0x19, leBytes 1 (bit s.power.degraded)), (0x1A, leBytes 2 (unsigned 16 s.power.junction)),
     (0x1C, leBytes 2 s.events.queue.length), (0x1E, leBytes 2 s.events.oldest.toNat),
     (0x20, leBytes 4 s.events.discarded), (0x24, leBytes 1 s.power.level),
     (0x25, leBytes 3 a.jedec.toNat), (0x28, leBytes 1 a.subcause), (0x29, leBytes 1 a.subArray)]

/-- R343: the byte of page 1 for a level pin. -/
def State.levelByte (s : State) (i : Nat) : Byte :=
  let p := s.levels.pin.getD i {}
  let l := match p.pass2, p.pass1 with
    | some l, _ => l
    | none, some l => l
    | none, none => 0
  if s.levels.refFault || !s.levels.decoded then 0
  else BitVec.ofNat 8 (l + 64 * bit (match p.level with | some l => reservedLevel i l | none => false)
    + 128 * bit p.fault)

/-- R479: the hold-up state's code. -/
def holdCode : HoldState → Nat
  | .absentByStrap => 0 | .notReady => 1 | .armed => 2 | .absent => 3 | .flushing => 4 | .flushed => 5

/-- R477: the available charge in µC; none is unbounded. -/
def HoldUp.available (h : HoldUp) : Option Nat := h.k.map fun k => k * (h.mv - 500)

/-- R479, R485: the valid counter entries in the journal of the chosen copy. -/
def State.journalEntries (s : State) : Nat :=
  match s.adm.chosen with
  | some c => (List.range (64 * journalBlocks c.bodyLen)).countP fun i => (s.readEntry c i).isSome
  | none => 0

/-- R15, R30: the high-water position; before READY that of ENC0, which is its position (log 108). -/
def State.highWaterShown (s : State) : Pos := if s.sinceReady then s.web.highWater else s.position

/-- R343, R479: page 1. -/
def State.page1 (s : State) : List Byte :=
  let h := s.hold
  layBytes 64
    [(0, (List.range 10).map s.levelByte), (0x0A, leBytes 1 (bit s.levels.refFault)),
     (0x0B, leBytes 1 (bit (s.levels.test1 && s.levels.test2) + 2 * bit s.levels.bootHold)),
     (0x0C, leBytes 2 s.web.enc[0].illegal.toNat), (0x0E, leBytes 2 s.web.enc[1].illegal.toNat),
     (0x10, leBytes 2 (min s.uncertainty 65535)),
     (0x14, leBytes 6 s.web.enc[0].lastIndex.toNat), (0x1A, leBytes 6 s.web.enc[1].lastIndex.toNat),
     (0x20, leBytes 6 s.highWaterShown.toNat)] |>
  fun b => layBytes 64
    [(0, b), (0x28, leBytes 1 (holdCode h.st)), (0x29, leBytes 1 h.removal.toNat),
     (0x2A, leBytes 2 h.mv), (0x2C, leBytes 4 (h.k.getD 0)),
     (0x30, leBytes 4 (match h.available with | some q => min (q / 1000) (2 ^ 32 - 1) | none => 2 ^ 32 - 1)),
     (0x34, leBytes 2 s.journalEntries), (0x38, leBytes 4 s.flash.commits)]

/-- R343: page 2. -/
def State.page2 (s : State) : List Byte :=
  s.intake.port.toList.flatMap fun p =>
    leBytes 4 p.ignored ++ leBytes 4 p.omitted ++ leBytes 4 p.corrected ++ leBytes 4 p.damaged

/-- R343: page 3. -/
def State.page3 (s : State) : List Byte :=
  layBytes 64
    [(0, s.panels.toList.flatMap fun p => leBytes 2 p.saturated), (0x20, leBytes 2 s.sentinel.clamped),
     (0x22, leBytes 2 s.tables.flatTensors), (0x24, leBytes 2 s.tables.keptDefaults),
     (0x28, leBytes 4 s.look.dupClosures), (0x2C, leBytes 4 s.look.dupVerdicts),
     (0x30, leBytes 4 s.history.discarded), (0x34, leBytes 4 s.hbm.corrected),
     (0x38, leBytes 4 s.hbm.scrubs), (0x3C, leBytes 4 s.look.refused)]

/-- R343: pages 4 to 11: blocks encoded at the shave levels of two panels. -/
def State.pageShave (s : State) (k : Nat) : List Byte :=
  let of (p : Nat) := ((s.panels.toList[p]?).map (·.encoded)).getD []
  layBytes 64 [(0, (of (2 * k)).flatMap (leBytes 4)), (0x20, (of (2 * k + 1)).flatMap (leBytes 4))]

/-- R439: page 12. -/
def State.page12 (s : State) : List Byte :=
  let f := s.faults
  layBytes 64 [(0, [f.scratch, f.commons, f.hbm, f.repairs, f.repeats, f.linkFailures, f.creditNs, f.awaiting,
    f.missing, f.replaySent, f.replayReceived, f.replayDiscarded, f.resent, f.resendDropped,
    f.duplicates].flatMap (leBytes 4))]

/-- R439: page 13. -/
def State.page13 (s : State) : List Byte :=
  let k := s.look
  layBytes 64
    [(0, leBytes 2 k.ledger.length), (2, leBytes 2 k.highWater),
     (4, leBytes 2 (k.ledger.countP (·.st == .held))),
     (6, leBytes 2 (k.ledger.countP (·.st == .replayReady))), (8, leBytes 4 k.marked),
     (0x0C, leBytes 4 k.replays), (0x10, leBytes 4 k.replayClosed), (0x14, leBytes 4 k.slackClosed),
     (0x18, leBytes 4 k.replayLost), (0x1C, leBytes 4 s.faults.lastId.toNat)]

/-- R416: the link-state code of page 14. -/
def linkCode : LinkState → Nat
  | .unpowered => 0 | .up => 2 | .standby => 3 | .off => 4 | .idleFailed => 5 | _ => 1

/-- R416: page 14. -/
def State.page14 (s : State) : List Byte :=
  let b := s.bolt
  let per (f : SeamId → List Byte) := allPorts.flatMap f
  layBytes 64
    [(0, leBytes 1 b.mode), (1, leBytes 1 b.reason), (2, leBytes 2 s.pat.boltMaster),
     (4, leBytes 2 s.pat.boltCollector), (8, leBytes 8 (unsigned 64 b.beta.toInt)),
     (0x10, leBytes 4 (unsigned 32 b.kappa)), (0x14, leBytes 4 (unsigned 32 (b.lastE * 256))),
     (0x18, leBytes 4 (s.graceAt s.position)), (0x1C, leBytes 4 b.latGen.toNat), (0x20, leBytes 4 b.calGen.toNat),
     (0x24, leBytes 4 b.steps)] |>
  fun x => layBytes 64
    [(0, x),
     (0x28, per fun q => leBytes 1 (linkCode s.seams[q].link + 8 * bit s.bolt.links[q].inBolt
        + 16 * s.seams[q].cause)),
     (0x2C, per fun q => leBytes 2 (s.seams[q].rho.getD 0)),
     (0x34, per fun q => leBytes 2 ((s.adoptedMean q).getD 0))]

/-- R416: page 15. -/
def State.page15 (s : State) : List Byte :=
  s.seams.toList.flatMap fun p =>
    leBytes 4 p.episodes ++ leBytes 4 p.goBacks ++ leBytes 4 p.badFlits ++ leBytes 2 p.failures
      ++ leBytes 2 p.unroutable

/-- R343: a status page; any other page reads zeros. -/
def State.statusPage (s : State) (page : Nat) : List Byte :=
  if page = 0 then s.page0 else if page = 1 then s.page1 else if page = 2 then s.page2
  else if page = 3 then s.page3 else if page < 12 then s.pageShave (page - 4)
  else if page = 12 then s.page12 else if page = 13 then s.page13 else if page = 14 then s.page14
  else if page = 15 then s.page15 else List.replicate 64 0

end Sys2Proof.Machine
end

