-- ==== Sys2Proof/Machine/EventPort.lean ====
section
/-! DEFINITION. The event port: the commands of R334 and a transaction cut short (R333 to R341), and the entry of
held records (R516). -/

namespace Sys2Proof.Machine

/-- R333: the station this byte selects is this device, its levels decoded and the device out of reset. -/
def State.selected (s : State) (station : Byte) : Bool :=
  !s.inReset && match s.station with
    | some a => station.toNat == 0x58 + a
    | none => false

/-- R334: the response of the last transaction; nothing while EVT_SDO stays at high impedance. -/
def State.respond (s : State) (bs : List Byte) : State := { s with port := { s.port with response := bs } }

/-- R336: a response with its CRC over every byte before it. -/
def withCrc (bs : List Byte) : List Byte := bs ++ leBytes 2 (crc16 bs).toNat

/-- The status byte 0x5A with data and CRC (R334). -/
def reply (data : List Byte) : List Byte := withCrc (0x5A#8 :: data)

/-- R335: the event domain is not on: the answer is busy, and the event-port wake is raised. -/
def State.busy (s : State) : State :=
  ((s.respond [0xC3#8]).raiseWake 0x11 (s.station.getD 0) [domEvent]).settle

/-- R337: the records that read events returns. -/
def Events.batch (e : Events) (n : Nat) : List Entry := e.queue.take n

/-- R337: the first n records of the queue are returned. -/
def markFirst : Nat → List Entry → List Entry
  | 0, q => q
  | _ + 1, [] => []
  | n + 1, x :: q => { x with returned := true } :: markFirst n q

/-- R337: records clocked out whole count as returned. The queue is in ticket order, so the last of them that has been returned
is the newest. -/
def State.markReturned (s : State) (n : Nat) : State :=
  if (s.events.batch n).isEmpty then s
  else
    let q := markFirst n s.events.queue
    { s with events := { s.events with
      queue := q, returned := ((q.filter (·.returned)).getLast?).map (·.ticket) } }

/-- R337: the response of read events. -/
def State.readResponse (s : State) (n : Nat) : List Byte :=
  let b := s.events.batch n
  reply (leBytes 2 s.events.oldest.toNat ++ leBytes 1 b.length ++ b.flatMap (·.record.toBytes))

/-- READ_EVENTS (R337). -/
def execReadEvents (station n : Byte) (s : State) : Result :=
  if !s.selected station then .next (s.respond [])
  else if !s.isOn domEvent then .next s.busy
  else .next ((s.respond (s.readResponse n.toNat)).markReturned n.toNat)

/-- R338: a record that acknowledge and drain releases: already returned and before T_end. A T_end not after the oldest ticket
releases nothing. -/
def Events.releases (e : Events) (tEnd : BitVec 16) (x : Entry) : Bool :=
  x.returned && decide (0 < (tEnd - e.oldest).toInt) && decide (x.ticket - e.oldest < tEnd - e.oldest)

/-- R338: the release, and the LOSS record that it may make room for (R331). -/
def State.drain (s : State) (tEnd : BitVec 16) : State :=
  ({ s with events := { s.events with
    queue := s.events.queue.filter fun x => !s.events.releases tEnd x } }).tryLoss.settle

/-- R334: the response to acknowledge and drain, taken after the release. -/
def State.drainResponse (s : State) : List Byte :=
  reply (leBytes 2 s.events.oldest.toNat ++ leBytes 2 s.events.queue.length)

/-- ACKNOWLEDGE_AND_DRAIN (R338). -/
def execAcknowledgeAndDrain (station : Byte) (tEnd : BitVec 16) (s : State) : Result :=
  if !s.selected station then .next (s.respond [])
  else if !s.isOn domEvent then .next s.busy
  else
    let s := s.drain tEnd
    .next (s.respond s.drainResponse)

/-- READ_STATUS (R343). -/
def execReadStatus (station page : Byte) (s : State) : Result :=
  if !s.selected station then .next (s.respond [])
  else if !s.isOn domEvent then .next s.busy
  else .next (s.respond (reply (s.statusPage page.toNat)))

/-- IDENTITY (R342): served by the thimble. -/
def execIdentity (station : Byte) (s : State) : Result :=
  if !s.selected station then .next (s.respond [])
  else .next (s.respond (reply s.identityBlock))

/-- R341: 0x21 loads the high-half latch. -/
def State.loadLatch (s : State) : State :=
  { s with port := { s.port with latch := (s.position >>> 24).setWidth 24 } }

/-- LIVE_POSITION_LOW_HALF (R341). -/
def execLivePositionLowHalf (station : Byte) (s : State) : Result :=
  if !s.selected station then .next (s.respond [])
  else .next (s.loadLatch.respond (0x5A#8 :: leBytes 3 s.position.toNat))

/-- LIVE_POSITION_HIGH_HALF (R341). -/
def execLivePositionHighHalf (station : Byte) (s : State) : Result :=
  if !s.selected station then .next (s.respond [])
  else .next (s.respond (0x5A#8 :: leBytes 3 s.port.latch.toNat))

/-- R341: the flags byte of 0x23. -/
def State.liveFlags (s : State) : Nat :=
  bit s.web.lost + 2 * bit s.coarse + 4 * bit s.web.stopped + 8 * bit (s.source == 1) + 16 * bit s.running

/-- ATOMIC_POSITION_SNAPSHOT (R341). -/
def execAtomicPositionSnapshot (station : Byte) (s : State) : Result :=
  if !s.selected station then .next (s.respond [])
  else .next (s.respond (reply (leBytes 6 s.position.toNat ++ leBytes 5 s.timestamp.toNat
    ++ leBytes 1 s.liveFlags)))

/-- R339: what a read events cut short after `clocked` response bytes has returned: the records whose 32nd byte was
clocked out. Status byte, ticket and count come first. -/
def cutRecords (n clocked : Nat) : Nat := min n ((clocked - 4) / 32)

/-- R334: the bytes of a response that were clocked; those past its end read 0. -/
def clockedBytes (r : List Byte) (clocked : Nat) : List Byte :=
  if r.isEmpty then [] else (r ++ List.replicate (clocked - r.length) 0).take clocked

/-- R334, R339: the response of a transaction cut short, before it is clocked. -/
def State.cutResponse (s : State) (sent : List Byte) : List Byte :=
  match sent with
  | _ :: c :: n :: _ =>
    if c == 0x0B then (if s.isOn domEvent then s.readResponse n.toNat else [0xC3#8])
    else if c == 0x05 then (if s.isOn domEvent then reply (s.statusPage n.toNat) else [0xC3#8])
    else if c == 0x0E then (if s.isOn domEvent then s.drainResponse else [0xC3#8])
    else if c == 0x21 then 0x5A#8 :: leBytes 3 s.position.toNat
    else if c == 0x22 then 0x5A#8 :: leBytes 3 s.port.latch.toNat
    else if c == 0x9F then reply s.identityBlock
    else if c == 0x23 then reply (leBytes 6 s.position.toNat ++ leBytes 5 s.timestamp.toNat
      ++ leBytes 1 s.liveFlags)
    else []
  | _ => []

/-- TRANSACTION_CUT_SHORT (R339): records returned whole stay returned; an acknowledgement whose T_end arrived whole
before the dummy byte began releases; 0x21 has loaded the latch once its command byte was sampled; an event-domain
command that met a sleeping domain has raised the wake (R335). The bits of a byte not sent whole do nothing, since
every effect of R339 waits for a whole byte. -/
def execTransactionCutShort (sent : List Byte) (_lastBits clocked : Nat) (s : State) : Result :=
  match sent with
  | st :: c :: args =>
    if !s.selected st then .next (s.respond [])
    else if (c == 0x0B || c == 0x0E || c == 0x05) && !s.isOn domEvent then
      .next (s.busy.respond (clockedBytes (s.cutResponse sent) clocked))
    else
      let r := clockedBytes (s.cutResponse sent) clocked
      if c == 0x21 then .next (s.loadLatch.respond r)
      else if c == 0x0B then
        match args with
        | n :: _ => .next ((s.respond r).markReturned (cutRecords n.toNat clocked))
        | [] => .next (s.respond [])
      else if c == 0x0E then
        match args with
        | lo :: hi :: _ =>
          let s := s.drain (BitVec.ofNat 16 (leNat [lo, hi]))
          .next (s.respond (clockedBytes s.drainResponse clocked))
        | _ => .next (s.respond [])
      else .next (s.respond r)
  | _ => .next (s.respond [])

/-- HELD_RECORD_ENTRY (R516): once the event domain is on, the held records enter in the order of their causes. -/
def execHeldRecordEntry (s : State) : Result :=
  when (s.isOn domEvent) s fun s =>
    let held := s.events.held
    let s := { s with events := { s.events with held := [] } }
    ((held.foldl State.enterOne s).tryLoss).settle

end Sys2Proof.Machine
end

