-- ==== Sys2Proof/Machine/Flash.lean ====
section
/-! DEFINITION. Commits: record commits and counter entries, their operations and their failures, STAGE and COMMIT
(R105, R138, R139, R480 to R486). -/

namespace Sys2Proof.Machine

/-- R444, R482, R487: the domains that a commit holds on; during a flush HBM only when a field is staged. -/
def State.commitDomains (s : State) : List Nat :=
  if s.hold.st == .flushing && s.flash.staged.isEmpty then [domFlash] else [domFlash, domHbm]

/-- R486: the counters brought up to now: running time and K. -/
def State.freshCounters (s : State) : State :=
  let ran := s.time.wall * 32768 / 10 ^ 12 - s.flash.runFrom * 32768 / 10 ^ 12
  let s := s.bump 6 ran
  { s with flash := { s.flash with counters := s.flash.counters.set 13 (s.hold.k.getD 0), runFrom := s.time.wall } }

/-- R486, R490: counters 8, 9 and 10 with what the thimble SRAM gathered. -/
def State.withGathered (s : State) (x : Nat × Nat × Nat) : State := ((s.bump 8 x.1).bump 9 x.2.1).bump 10 x.2.2

/-- R139, R490: a commit is made: what it took from the thimble SRAM is counted in flash and no longer there. One that fails
leaves it. -/
def State.takeGathered (s : State) (x : Nat × Nat × Nat) : State :=
  let (a, b, c) := s.hold.sram
  { s.withGathered x with hold := { s.hold with sram := (a - x.1, b - x.2.1, c - x.2.2) } }

/-- R138: the programs of a body, page by page from copy offset 0x100. -/
def pagePrograms (a : Nat) (b : List Byte) : List FlashOp :=
  (List.range (ceilDiv b.length 256)).map fun i => .program (a + 256 * i) ((b.drop (256 * i)).take 256)

/-- R138: the operations of a record commit to a copy. DESIGN CHOICE: step 1 is one read of the flash, which may fail, also
where no class is kept or no copy is chosen (log 139). -/
def recordOps (target sequence : Nat) (cs : List RecClass) : List FlashOp :=
  let body := recordBody cs
  let base := copyBase target
  .readKept :: ((List.range (ceilDiv (0x100 + body.length) blockSize)).map fun i => .erase (base + blockSize * i))
    ++ pagePrograms (base + 0x100) body ++ [.program base (recordHeader sequence cs.length body), .readBack]

/-- R138, R482: a record commit begins: the body is built from the kept classes and the fields' values. -/
def State.startRecord (s : State) : State :=
  let s := s.freshCounters
  let (target, sequence) := match s.adm.chosen with
    | some c => (1 - c.copy, (c.sequence + 1) % 2 ^ 32)
    | none => (0, 1)
  let run : CommitRun :=
    { kind := .record, target := target, sequence := sequence, opSince := s.clock, gathered := s.hold.sram
      ops := recordOps target sequence (s.keptClasses ++ [(s.withGathered s.hold.sram).writtenClass sequence]) }
  ({ s with flash := { s.flash with run := some run, wantRecord := false } }).addVotes .commit s.commitDomains false

/-- R483: the block of a slot is not erased: the slot is its first and the block is not blank. -/
def State.blockDirty (s : State) (c : Chosen) (i : Nat) : Bool :=
  i % 64 == 0 && s.flash.mem.any fun x => decide (journalBlock c i ≤ x.1 ∧ x.1 < journalBlock c i + blockSize)

/-- R483, R484: a counter entry begins, in the slot after the newest entry. -/
def State.startCounter (s : State) (c : Chosen) : State :=
  let s := s.freshCounters
  let i := s.flash.journal
  let ops := (if s.blockDirty c i then [FlashOp.erase (journalBlock c i)] else [])
    ++ pagePrograms (journalSlot c i) ((s.withGathered s.hold.sram).counterEntry c.sequence i)
  let run : CommitRun :=
    { kind := .counter, target := c.copy, sequence := c.sequence, index := i, opSince := s.clock, gathered := s.hold.sram
      ops := ops }
  ({ s with flash := { s.flash with run := some run, wantCounter := false } }).addVotes .commit s.commitDomains false

/-- R105, R482, R483: the next waiting commit begins, unless one runs or the device polls a busy part. A counter entry
without a journal is made as a record commit. -/
def State.nextCommit (s : State) : State :=
  if s.flash.run.isSome || s.adm.flashWaiting then s
  else if s.flash.wantRecord then s.startRecord
  else if s.flash.wantCounter then
    match s.adm.chosen with
    | some c =>
      if journalBlocks c.bodyLen = 0 then
        { s with flash := { s.flash with wantCounter := false } }.startRecord
      else s.startCounter c
    | none => { s with flash := { s.flash with wantCounter := false } }.startRecord
  else s

/-- R482: a commit is requested; several requests of one kind merge. -/
def State.requestCommit (s : State) (k : CommitKind) : State :=
  { s with flash := { s.flash with
    wantRecord := s.flash.wantRecord || k == CommitKind.record
    wantCounter := s.flash.wantCounter || k == CommitKind.counter } }.nextCommit

/-! ### Operations -/

/-- R486, R488: the time that the last erase or program took, in µs. -/
def State.noteTime (s : State) (o : FlashOp) (since : Nat) : State :=
  let us := (s.clock - since) / usPs
  let set (i : Nat) : State := { s with flash := { s.flash with counters := s.flash.counters.set i us } }
  match o with
  | .erase _ => set 14
  | .program _ _ => set 15
  | _ => s

/-- R328: the step of R138 of an operation. -/
def CommitRun.step (r : CommitRun) (o : FlashOp) : Nat :=
  match o with
  | .readKept => 1
  | .erase _ => 2
  | .program a _ => if r.kind = .record ∧ a = copyBase r.target then 4 else 3
  | .readBack => 5

/-- R251, R452: a commit has ended (log 42). -/
def State.commitOver (s : State) : State :=
  let s := { s with flash := { s.flash with run := none } }
  let s := s.dropVotes .commit [domFlash, domHbm] false
  (s.controlEvent 1).raiseEntry 5

/-- R139, R417: a commit fails; the second failure in a row asserts FAULT_N. -/
def State.failCommit (s : State) (step : Nat) : State :=
  let s := s.faultRecord 6 0 step
  let s := if 1 ≤ s.flash.fails then s.assertFault else s
  ({ s with flash := { s.flash with fails := s.flash.fails + 1 } }).commitOver

/-- R138, R479, R483, R487: a record copy is made: it is the chosen one, its journal starts again and its first journal block
is erased. Made in step 3 of a flush, it stands for that step's commit. -/
def State.recordMade (s : State) (r : CommitRun) (c : Chosen) : State :=
  let s := (s.takeGathered r.gathered).bump 11 1
  let s := { s with
    adm := { s.adm with chosen := some c }
    flash := { s.flash with fails := 0, commits := satAdd 32 s.flash.commits 1, journal := 0 }
    hold := { s.hold with committed := s.hold.committed || (s.hold.st == HoldState.flushing && s.hold.step == 3) } }
  if journalBlocks c.bodyLen = 0 then s.commitOver
  else { s with flash := { s.flash with
    run := some { r with ops := [.erase (journalBlock c 0)], opSince := s.clock, tail := true } } }

/-- R483: a counter entry is made; one in slot 32 lets the next journal block be erased. -/
def State.entryMade (s : State) (r : CommitRun) : State :=
  let s := (s.takeGathered r.gathered).bump 12 1
  let s := { s with flash := { s.flash with fails := 0, journal := r.index + 1 } }
  match s.adm.chosen with
  | some c =>
    if r.index % 64 = 32 then
      { s with flash := { s.flash with
        run := some { r with ops := [.erase (journalBlock c (r.index + 32))], opSince := s.clock, tail := true } } }
    else s.commitOver
  | none => s.commitOver

/-- R138, R483: an operation of a commit has ended well. -/
def State.opDone (s : State) (r : CommitRun) (o : FlashOp) (rest : List FlashOp) : State :=
  let s := (s.applyOp o).noteTime o r.opSince
  let next : State := { s with flash := { s.flash with run := some { r with ops := rest, opSince := s.clock } } }
  if r.tail then s.commitOver
  else match o with
    | .readBack =>
      match s.readCopy r.target with
      | some c => if c.sequence = r.sequence then s.recordMade r c else s.failCommit 5
      | none => s.failCommit 5
    | _ => if rest.isEmpty then s.entryMade r else next

/-- R105, R139: an operation of a commit has ended in an error; an error while a journal block is erased fails no commit. -/
def State.opFailed (s : State) (r : CommitRun) (o : FlashOp) : State :=
  let s := (s.mayApply o).noteTime o r.opSince
  if r.tail then s.commitOver else s.failCommit (r.step o)

/-- R105: a busy part is ready at last. -/
def State.flashReady (s : State) : State :=
  let s := match s.flash.late with
    | some o => s.mayApply o
    | none => s
  let s := { s with adm := { s.adm with flashWaiting := false }, flash := { s.flash with late := none } }
  s.dropVotes .polling [domFlash] false

/-- R105, R138: the effect of a FLASH_OPERATION_DONE on the commit under way, before the next one starts. -/
def State.operationDone (s : State) (error : Bool) : State :=
  if s.adm.flashWaiting then s.flashReady
  else match s.flash.run with
    | some r =>
      match r.ops with
      | o :: rest => if error then s.opFailed r o else s.opDone r o rest
      | [] => s
    | none => s

/-- R105: the longest busy time of an operation in ps. -/
def FlashOp.limit : FlashOp → Nat
  | .erase _ => 3000 * msPs
  | .program _ _ => 5 * msPs
  | _ => 0

/-- R105: the operation under way is an erase or program beyond its longest busy time. -/
def State.operationLate (s : State) : Option (CommitRun × FlashOp) :=
  match s.flash.run with
  | some r =>
    match r.ops with
    | o :: _ => if 0 < o.limit ∧ r.opSince + o.limit ≤ s.clock then some (r, o) else none
    | [] => none
  | none => none

/-- R105: the commit fails, and the device polls until the part is ready, holding the flash controller on. -/
def State.operationTimeout (s : State) (r : CommitRun) (o : FlashOp) : State :=
  let s := { s with adm := { s.adm with flashWaiting := true }, flash := { s.flash with late := some o } }
  let s := s.addVotes .polling [domFlash] false
  if r.tail then s.commitOver else s.failCommit (r.step o)

/-! ### STAGE, COMMIT and the periodic commits (R251, R480, R481) -/

/-- R480: the bytes of a commons tile in transfer order; two 4-bit elements share a byte, the first in bits 3:0. -/
def State.stageBytes (s : State) (loops : List LoopLevel) (f : Nat) : List Byte × List Found :=
  let d := s.pat.tile f
  let (units, fs, _) := s.readUnits 0 d d.base loops
  (if d.fmt = fmtI4 ∧ !d.isBlocked then
    let es := s.elemsOf d d.base loops units
    (List.range (ceilDiv es.length 2)).map fun i => BitVec.ofNat 8 (es.getD (2 * i) 0 + 16 * es.getD (2 * i + 1) 0)
  else units.flatten, fs)

/-- R480: a field is staged. Without HBM there is no staging area (log 43). -/
def State.stageField (s : State) (id : Nat) (b : List Byte) : State :=
  if s.isOn domHbm then
    { s with flash := { s.flash with staged := (id, b) :: s.flash.staged.filter (·.1 != id) } }
  else s

/-- R251, R437, R480: the commons tile f becomes the value of a record field; the parity errors that its words show are
detected. -/
def State.stageTile (s : State) (u : List Upset) (loops : List LoopLevel) (f id : Nat) : State :=
  let s := s.upsets 0 (u.filter (·.store == .commons))
  let (b, fs) := s.stageBytes loops f
  let s := fs.foldl (fun s x => match x with
    | .commons w => (State.detectCommons s w 0xFFFFFFFF).2
    | _ => s) s
  s.stageField id b

/-- STAGE (R251, R226): the tile's addresses take the loop indices with which the instruction issues. -/
def execStage (u : List Upset) (s : State) : Result :=
  let loops := s.control.seq.loops
  controlIssue s fun
    | .stage f id => some fun s => s.stageTile u loops f id
    | _ => none

/-- COMMIT (R251, R481). -/
def execCommit (s : State) : Result :=
  controlIssue s fun
    | .commit => some fun s => s.requestCommit .record
    | _ => none

/-- R475, R481: commits are periodic: the hold-up supervisor is not armed. -/
def State.periodic (s : State) : Bool := s.hold.st != .armed && s.hold.st != .flushing && s.hold.st != .flushed

/-- R481: the multiple of 2²⁰ that the last line numbered has reached. -/
def State.periodNow (s : State) : Nat := (s.intake.nextSeq - 1).toNat / 2 ^ 20

/-- PERIODIC_COMMIT (R481): at line 2²⁰ × n, while commits are periodic. -/
def execPeriodicCommit (s : State) : Result :=
  when (s.running && s.intake.nextSeq != 0 && s.periodNow != 0 && s.periodNow != s.flash.periodAt) s fun s =>
    let s := { s with flash := { s.flash with periodAt := s.periodNow } }
    if s.periodic then (s.requestCommit (if s.recordDirty then .record else .counter)).settle else s

end Sys2Proof.Machine
end

