-- ==== Sys2Proof/Machine/HoldUp.lean ====
section
/-! DEFINITION. Power loss and hold-up: the supervisor, the flush, and the flash operations that commits wait for (R105, R473
to R490). -/

namespace Sys2Proof.Machine

/-! ### Estimates (R477, R488) -/

/-- R488: 1.25 × I_f × T exceeds Q_avail, where T is a number of µs and the time to read `bytes` at the flash clock, four
bits a clock. With K unknown nothing exceeds Q_avail. -/
def State.exceeds (s : State) (us bytes : Nat) : Bool :=
  match s.hold.k with
  | some k =>
    let f := s.flashKhz .areaRead
    decide (4 * 10 ^ 6 * (k * (s.hold.mv - 500)) * f < 5 * s.hold.meanUa * (us * f + 2000 * bytes))
  | none => false

/-- R138, R488: a record commit costs too much. The pages of the copy are those of its body (log 140). -/
def State.recordTooLong (s : State) : Bool :=
  let kept := s.keptClasses
  let n := s.recordBytes
  let pages := ceilDiv (n - 0x100) 256
  s.exceeds (ceilDiv n blockSize * s.flash.counters.getD 14 0 + pages * s.flash.counters.getD 15 0)
    ((kept.map (·.bytes.length)).sum + n)

/-- R488: a counter entry costs too much; one made as a record commit is estimated as that. -/
def State.counterTooLong (s : State) : Bool :=
  match s.adm.chosen with
  | some c =>
    if journalBlocks c.bodyLen = 0 then s.recordTooLong
    else s.exceeds (3 * s.flash.counters.getD 15 0
      + (if s.blockDirty c s.flash.journal then s.flash.counters.getD 14 0 else 0)) 0
  | none => s.recordTooLong

/-! ### The flush (R487 to R490) -/

/-- R487: every span has ended, and the stores toward the collector are empty. -/
def State.flushDrained (s : State) : Bool :=
  s.pat.groupNumbers.all (fun g => !(s.group g).inSpan) &&
    (!(s.role == 1 || s.role == 3) || allPorts.all fun q => s.seams[q].resendStore.isEmpty)

/-- R487: the domains whose votes step 2 leaves. -/
def State.flushKeeps (s : State) (id : Nat) : Bool :=
  id == domEvent || id == domFlash || id == domControl || (id == domHbm && !s.flash.staged.isEmpty) ||
    ((s.role == 1 || s.role == 3) &&
      ((s.route (BitVec.ofNat 16 s.pat.boltCollector)).map fun q => domSeam q.val == id).getD false)

/-- Votes of every client for the domains that meet a condition are withdrawn. -/
def State.withdraw (s : State) (c : Nat → Bool) : State :=
  (s.power.votes.filter fun v => c v.domain).foldl (fun s v => s.dropVote v.client v.domain v.retain) s

/-- R487: step 2, at once. -/
def State.flushStepTwo (s : State) : State :=
  let s := s.withdraw fun id => !s.flushKeeps id
  { s with power := { s.power with web := .idle }, hold := { s.hold with step := 3, began := false } }

/-- R489, R490: the flush is over: READY is low and the markers are inactive. -/
def State.enterFlushed (s : State) : State :=
  { s with
    hold := { s.hold with st := .flushed, step := 0, began := false }
    adm := { s.adm with dev := .flushed }
    markers := { fires := [], inhibited := true } }

/-- R490: step 5 has completed. -/
def State.flushDone (s : State) : State :=
  let (a, b, c) := s.hold.sram
  { s with hold := { s.hold with sram := (a, b + 1, c), completed := true } }.enterFlushed

/-- The flush goes to its next step. -/
def State.flushNext (s : State) (step : Nat) : State := { s with hold := { s.hold with step := step, began := false } }

/-- R482, R487: a commit runs or waits. -/
def State.commitBusy (s : State) : Bool := s.flash.run.isSome || s.flash.wantRecord || s.flash.wantCounter

/-- R487: a record commit runs: from the erase of its journal block on, it is made and is no item any more. -/
def State.recordRuns (s : State) : Bool :=
  s.flash.run.any fun r => r.kind == CommitKind.record && !r.tail

/-- An item of the flush begins. -/
def State.beginItem (s : State) (k : CommitKind) : State :=
  { s with hold := { s.hold with began := true } }.requestCommit k

/-- R487: the control program still executes its power-loss entry, or has it before it, within 1 ms of the power fail. -/
def State.awaitsHalt (s : State) : Bool :=
  ((s.control.seq.active && !s.control.seq.halted) || !s.control.pendingEntry.isEmpty) &&
    decide (s.clock < s.hold.failAt + msPs)

/-- R487, R488: step 3: the record commit that the power fail met goes on as the item; else, when the record is dirty, one
begins once the control program has halted or 1 ms has passed. -/
def State.flushRecord (s : State) : State :=
  if s.hold.began then (if s.recordRuns || s.flash.wantRecord then s else s.flushNext 4)
  else if s.recordRuns then { s with hold := { s.hold with began := true } }
  else if !s.recordDirty then s.flushNext 4
  else if s.awaitsHalt then s
  else if s.recordTooLong then { s with hold := { s.hold with skipped := s.hold.skipped ++ [0] } }.flushNext 4
  else s.beginItem .record

/-- R487, R488: step 4: the counter entry, unless step 3 completed a record commit; one that the power fail met goes on. -/
def State.flushCounter (s : State) : State :=
  if s.hold.began then (if s.commitBusy then s else s.flushNext 5)
  else if s.hold.committed then s.flushNext 5
  else if s.hold.counterItem then { s with hold := { s.hold with began := true } }
  else if s.counterTooLong then { s with hold := { s.hold with skipped := s.hold.skipped ++ [1] } }.flushNext 5
  else s.beginItem .counter

/-- R487, R488: step 5: the skipped items in their order, then whatever still runs ends. -/
def State.flushRetry (s : State) : State :=
  if s.commitBusy then s
  else match s.hold.skipped with
    | [] => s.flushDone
    | i :: rest => { s with hold := { s.hold with skipped := rest } }.beginItem (if i = 0 then .record else .counter)

/-- R487: one move of the flush, where its present step allows it. -/
def State.flushMove (s : State) : State :=
  if s.hold.st != .flushing then s
  else match s.hold.step with
    | 1 => if s.flushDrained || decide (s.hold.failAt + 5 * msPs ≤ s.clock) then s.flushStepTwo else s
    | 3 => s.flushRecord
    | 4 => s.flushCounter
    | 5 => s.flushRetry
    | _ => s

/-- R490: the input has been good for 10 ms, so that the flush waits only for the item in progress. -/
def State.inputBack (s : State) : Bool := s.hold.inputGood && decide (s.hold.goodSince + 10 * msPs ≤ s.clock)

/-- R487, R490: the flush goes on as far as it can, at most two moves a step and two an item; it begins nothing more once the
input is back. -/
def State.flushAdvance (s : State) : State :=
  if s.inputBack then s else (List.range 12).foldl (fun s _ => s.flushMove) s

/-- R482, R487: the power fail meets the commits: a counter entry in progress or waiting is the item of step 4; a record
commit that waits is made by step 3, where the record is dirty (log 141). -/
def State.meetCommits (s : State) : State :=
  let counter := s.flash.run.any fun r => r.kind == CommitKind.counter && !r.tail
  { s with
    hold := { s.hold with counterItem := counter }
    flash := { s.flash with wantRecord := false, wantCounter := false } }

/-- R449, R453, R487: the flush starts: the wake votes for what it needs, the control program's power-loss entry is raised, and
the sentinel, the intakes and the schedules are let go. -/
def State.startFlush (s : State) : State :=
  let (a, b, c) := s.hold.sram
  let s := { s with hold := { s.hold with
    st := .flushing, step := 1, began := false, failAt := s.clock, inputGood := false, highSince := none, low := 0
    skipped := [], committed := false, completed := false, sram := (a + 1, b, c) } }
  let s := s.meetCommits
  let hbm := if s.isOn domHbm || s.dom domHbm == .retention then [domHbm] else []
  let s := (s.recordWake 0x15 0).addVotes .flush ([domEvent, domFlash, domControl] ++ hbm) false
  let s := s.raiseEntry 7
  let s := s.withdraw fun id => id == domSentinel || decide (0x10 ≤ id ∧ id ≤ 0x13)
  let s := s.pat.groupNumbers.foldl (fun s g =>
    if (s.group g).inSpan then s.endSpan g
    else if (s.group g).starting then
      let s := s.updGroup g fun x => { x with starting := false }
      s.dropVotes (.group g) ((s.pat.groupPanels g).map fun n => domPanel n.val) false
    else s) s
  s.flushAdvance

/-- POWER_FAIL (R475, R487): VIN_SENSE falls while the supervisor is armed. -/
def execPowerFail (s : State) : Result :=
  when (s.hold.st == .armed) s fun s => s.startFlush.settle

/-- FLUSH_STEP_TIMEOUT (R487): step 1 ends 5 ms after the power fail, and the record commit waits no longer than 1 ms. -/
def execFlushStepTimeout (s : State) : Result :=
  when (s.hold.st == .flushing) s fun s => s.flushAdvance.settle

/-- R489: two consecutive samples below 500 mV: no further flash command, a poll of a busy part included; the operation under
way may have had its effect (log 41). -/
def State.cutOff (s : State) : State :=
  let s := s.cutOp
  let s := s.dropVotes .polling [domFlash] false
  let (a, b, c) := s.hold.sram
  { s with
    adm := { s.adm with flashWaiting := false }
    flash := { s.flash with run := none, late := none, wantRecord := false, wantCounter := false }
    hold := { s.hold with sram := (a, b, c + 1), completed := false } }.enterFlushed

/-- INPUT_RESTORED (R490): the input has been good for 10 ms during the flush or in flushed, and no item is in progress: a reset
exit with cause 0x15 follows. -/
def execInputRestored (s : State) : Result :=
  when ((s.hold.st == .flushing || s.hold.st == .flushed) && s.inputBack && s.flash.run.isNone) s fun s =>
    s.resetOutside 0x15 (if s.hold.completed then 1 else 2)

/-! ### The supervisor (R473 to R478) -/

/-- R473: HOLD_V as the converter reads it, the charge count of a sample, which saturates at ±10 A over 1 ms, or over 10 µs
while flushing, and VIN_SENSE with its two thresholds. -/
def adcMv (mv : Nat) : Nat := min mv 1200
def HoldUp.counted (h : HoldUp) (dq : Int) : Int :=
  let m : Int := if h.st = .flushing then 100 else 10000
  clampInt (-m) m dq
def HoldUp.inputNow (h : HoldUp) (vinMv : Nat) : Bool :=
  if 1050 < vinMv then true else if vinMv < 1000 then false else h.inputGood

/-- R476: K is first learned over a rise of at least 200 mV since the start of a charge with the input good. A charge is a run
of samples in which charge flows into the bank, from the sample before the first of them (log 54). -/
def HoldUp.learn (h : HoldUp) (mv : Nat) (good : Bool) (dq : Int) : HoldUp :=
  if good && decide (0 < dq) && h.seen then
    let (v0, q0) := h.charge.getD (h.mv, 0)
    let q := q0 + dq
    if h.k.isNone && decide (v0 + 200 ≤ mv) then { h with k := some (rne q (mv - v0)).toNat, charge := some (v0, q) }
    else { h with charge := some (v0, q) }
  else { h with charge := none }

/-- R476, R478: a 50 ms window begins at the latest sample. -/
def HoldUp.openWindow (h : HoldUp) (clock : Nat) : HoldUp :=
  { h with winMv := h.mv, winQ := 0, winLow := decide (h.mv < 500), winFrom := clock }

/-- R473, R475 to R478, R488, R489: a sample taken. The first one, and one at which the input comes or goes, opens a window. -/
def HoldUp.sample (h : HoldUp) (mv : Nat) (good : Bool) (dq : Int) (meanUa clock : Nat) : HoldUp :=
  let fresh := !h.seen || good != h.inputGood
  let h := h.learn mv good dq
  let h : HoldUp := { h with
    mv := mv, inputGood := good, seen := true, meanUa := min meanUa (10 ^ 7)
    goodSince := if good && !h.inputGood then clock else h.goodSince
    highSince := if good && decide (900 ≤ mv) then some (h.highSince.getD clock) else none
    winQ := h.winQ + dq, winLow := h.winLow && decide (mv < 500)
    low := if mv < 500 then h.low + 1 else 0 }
  if fresh then h.openWindow clock else h

/-- HOLD_V_SAMPLE (R56, R473, R475 to R478, R488, R489): with no bank by strap the pins are ignored. -/
def execHoldVSample (mv vinMv : Nat) (dq : Int) (meanUa : Nat) (s : State) : Result :=
  when (s.adm.dev != .inReset && s.hold.st != .absentByStrap) s fun s =>
    let h := s.hold.sample (adcMv mv) (s.hold.inputNow vinMv) (s.hold.counted dq) meanUa s.clock
    let s := { s with hold := h }
    if s.hold.st == .flushing then
      (if 2 ≤ s.hold.low then s.cutOff else s.flushAdvance).settle
    else s

/-- HOLDUP_ARM (R475): HOLD_V at or above 900 mV for 50 ms with the input good, while a pattern runs. -/
def execHoldupArm (s : State) : Result :=
  when (s.running && s.hold.st == .notReady &&
      (s.hold.highSince.map fun t => decide (t + 50 * msPs ≤ s.clock)).getD false) s fun s =>
    { s with hold := { s.hold with st := .armed }.openWindow s.clock }

/-- R478: which removal checks a window fails: charge without rise, collapse. -/
def HoldUp.removed (h : HoldUp) : Bool × Bool :=
  let dv : Int := (h.mv : Int) - h.winMv
  let rise := match h.k with
    | some k => decide (20 * (k : Int) ≤ h.winQ) && decide (4 * (k : Int) * dv < h.winQ)
    | none => false
  (rise, h.winLow)

/-- R476: K refined after a window with charge and a rise of at least 20 mV. -/
def HoldUp.refine (h : HoldUp) : HoldUp :=
  let dv : Int := (h.mv : Int) - h.winMv
  match h.k with
  | some k =>
    if 0 < h.winQ ∧ 20 ≤ dv then { h with k := some (k + rne (h.winQ - k * dv) (8 * dv.toNat)).toNat } else h
  | none => h

/-- HOLDUP_WINDOW (R476, R478): the end of a 50 ms window, which refines K; over one in which the supervisor was armed and
the input good the removal checks run, with K as it stood over the window (log 72). -/
def execHoldupWindow (s : State) : Result :=
  when (s.adm.dev != .inReset && s.hold.seen && decide (s.hold.winFrom + 50 * msPs ≤ s.clock)) s fun s =>
    let (rise, low) := s.hold.removed
    let h := s.hold.refine.openWindow s.clock
    if s.hold.st == .armed && s.hold.inputGood && (rise || low) then
      { s with hold := { h with st := .absent, removal := BitVec.ofNat 2 (bit rise + 2 * bit low) } }.bump 16 1
    else { s with hold := h }

/-! ### Flash operations -/

/-- R482, R487, R490: what follows the end of a flash operation: the next commit, and the flush. A flush begins nothing more
once the input is back. -/
def State.flashNext (s : State) : State :=
  if s.hold.st == .flushing then (if s.inputBack then s else s.nextCommit.flushAdvance)
  else if s.running then s.nextCommit else s

/-- FLASH_OPERATION_DONE (R105, R138): the operation under way has ended, or a part that was busy too long is ready at last. -/
def execFlashOperationDone (error : Bool) (s : State) : Result :=
  when (s.isOn domFlash) s fun s => (s.operationDone error).flashNext.settle

/-- FLASH_BUSY_TIMEOUT (R105, R139). -/
def execFlashBusyTimeout (s : State) : Result :=
  match s.operationLate with
  | some (r, o) => when (s.isOn domFlash) s fun s => (s.operationTimeout r o).flashNext.settle
  | none => .next s

end Sys2Proof.Machine
end

