-- ==== Sys2Proof/Machine/Intake.lean ====
section
/-! DEFINITION. Intake: CSI-2 packets, pairing, stamping, flat-field correction, GAP records and the bobbin's writing
(R19 to R21, R140 to R166, R471). -/

namespace Sys2Proof.Machine

/-! ### Ports and pixels -/

/-- R119: a port's descriptor. -/
def Pattern.intkPort (p : Pattern) (c : Nat) : IntkPort := p.intk.ports.getD c {}

/-- One intake port changed. -/
def State.updCsi (s : State) (c : CsiId) (f : CsiPort → CsiPort) : State :=
  { s with intake := { s.intake with port := Vector.upd s.intake.port c f } }

/-- R447: the port's next part belongs to a line that it, or another port, had begun when its domain began to leave on. -/
def State.currentLine (s : State) (c : CsiId) : Bool :=
  let p := s.intake.port[c]
  let since := ((s.power.domains.find? (·.id == domIntake c.val)).map (·.since)).getD 0
  p.lineStart.isSome || s.intake.asm.any fun l =>
    l.k == p.index && (l.number, l.ordinal) == (p.frameNo.toNat, p.ordinal) && decide (l.firstAt ≤ since) &&
      (l.parts.getD c.val none).isNone

/-- R73, R119, R166, R447: the port receives: a pattern runs that uses it, and its domain is on, or is entering a low state
with the port's current line not yet finished (log 130). -/
def State.portOn (s : State) (c : CsiId) : Bool :=
  s.running && bitAt s.pat.intk.mask c.val &&
    match s.dom (domIntake c.val) with
    | .on => true
    | .entering _ _ => s.currentLine c
    | _ => false

/-- The used ports as port ids. -/
def Pattern.ports (p : Pattern) : List CsiId := ([0, 1, 2, 3] : List CsiId).filter fun c => bitAt p.intk.mask c.val

/-- R20, R148: the port gives the stamp: the lowest-lettered used one. -/
def Pattern.stampPort (p : Pattern) (c : CsiId) : Bool := p.ports.head? == some c

/-- R142: bytes and pixels of a pixel group of the depth. -/
def groupBytes (d : Nat) : Nat := if d = 10 then 5 else if d = 12 then 3 else 1
def groupPixels (d : Nat) : Nat := if d = 10 then 4 else if d = 12 then 2 else 1

/-- R142: one group unpacked as CSI-2 packs it (log 35). -/
def unpackGroup (d : Nat) (b : List Byte) : List Nat :=
  if d = 10 then
    (List.range 4).map fun i => 4 * uAt b i 1 + uAt b 4 1 / 4 ^ i % 4
  else if d = 12 then
    [16 * uAt b 0 1 + uAt b 2 1 % 16, 16 * uAt b 1 1 + uAt b 2 1 / 16]
  else [uAt b 0 1]

/-- R142: the whole groups of a payload as pixels. -/
def unpackRaw (d : Nat) : Nat → List Byte → List Nat
  | 0, _ => []
  | n + 1, b => unpackGroup d (b.take (groupBytes d)) ++ unpackRaw d n (b.drop (groupBytes d))

/-- R150, R152: the class of a part and its received pixels, from the word count, the payload and its check. DESIGN CHOICE:
where several rows of R150 apply to one part, format goes before short and short before the CRC, and a partial group counts
the whole pixels that its bytes hold in the oversize test (log 115). -/
def classify (d pixels wordCount : Nat) (payload : List Byte) (crcOk : Bool) : Part :=
  let whole := wordCount % groupBytes d == 0
  let groups := wordCount / groupBytes d
  let p := groups * groupPixels d
  let rx := unpackRaw d groups payload
  if pixels < max p (8 * wordCount / d) then { cls := .oversize }
  else if !whole then { cls := .damaged 3, pixels := rx }
  else if p = 0 then { cls := .empty }
  else if p < pixels then { cls := .damaged 2, pixels := rx }
  else if !crcOk then { cls := .damaged 5, pixels := rx }
  else { cls := .normal, pixels := rx }

/-- A part whose packet or whose absence damages its line. -/
def LineClass.damagedCause : LineClass → Option Nat
  | .damaged c => some c
  | _ => none

/-! ### Packet headers (R140, R141, R152) -/

/-- R140: which of the six ECC bits each of the 24 header bits enters, bit 0 of the header first (log 117). -/
def eccColumns : List Nat :=
  [0x07, 0x0B, 0x0D, 0x0E, 0x13, 0x15, 0x16, 0x19, 0x1A, 0x1C, 0x23, 0x25,
    0x26, 0x29, 0x2A, 0x2C, 0x31, 0x32, 0x34, 0x38, 0x1F, 0x2F, 0x37, 0x3B]

/-- R140: the header ECC of 24 header bits. -/
def headerEcc (h : Nat) : Nat :=
  eccColumns.zipIdx.foldl (fun e (c, i) => if bitAt h i then Nat.xor e c else e) 0

/-- What the six-bit header ECC said (R140, R152), and the 24 header bits after it. -/
inductive Header where
  | clean (h : Nat)
  | corrected (h : Nat)
  | uncorrectable
  deriving DecidableEq, Repr, Inhabited

/-- R140, R152: a header checked: one wrong bit, of the header or of its ECC, is corrected; more are detected. -/
def checkHeader (b : BitVec 32) : Header :=
  let h := b.toNat % 2 ^ 24
  let e := Nat.xor (headerEcc h) (field b.toNat 29 24)
  if e = 0 then .clean h
  else
    match eccColumns.findIdx? (· == e) with
    | some i => .corrected (Nat.xor h (2 ^ i))
    | none => if [1, 2, 4, 8, 16, 32].contains e then .corrected h else .uncorrectable

/-- R140: the word count of a long packet or the data field of a short one, the virtual channel and the data type of checked
header bits. -/
def headerCount (h : Nat) : Nat := field h 23 8
def headerChannel (h : Nat) : Nat := field h 7 6
def headerType (h : Nat) : Nat := field h 5 0

/-- R140, R141: the port takes the long packet: it has the declared virtual channel and data type. -/
def IntkPort.takes (p : IntkPort) (h : Nat) : Bool := headerChannel h == p.vc && headerType h == p.dataType

/-- R140: the payload's check passes: the CRC-16 of CSI-2 over a payload of the stated length (log 117). -/
def payloadOk (k : LongPacket) (h : Nat) : Bool :=
  k.payload.length == headerCount h && csiCrc k.payload == k.crc

/-! ### Stamps (R20, R30, R148) -/

/-- R20: a reading of the stamp timer, in ticks of 2.5 ns, of an instant (log 13). -/
def stampTick (phase ps : Nat) : Nat := (ps + phase % 2500) / 2500

/-- R20: the stamp of an instant, with c the counter, t and u in ticks of the stamp timer. -/
def stampOf (c : Pos) (forward : Bool) (t u : Nat) : Pos :=
  if u = 0 ∨ u ≤ t then c else if u ≤ 2 * t then countStep c forward else c

/-- R20: the stamp of the present instant. -/
def State.stampNow (s : State) : Pos × State :=
  let e := s.edges
  match e.last, e.prev with
  | some a, some b =>
    let (n, s) := s.takeFree
    let tick := stampTick (Config.stampPhase n)
    (stampOf s.position e.forward (tick s.clock - tick a) (tick a - tick b), s)
  | _, _ => (s.position, s)

/-- R30: a line with a stamp would be a revisit line now. -/
def State.isRevisit (s : State) (stamp : Pos) : Bool := decide (posDiff (s.web.highWater - 2) stamp ≤ 0)

/-- R20, R30: the stamp of the present instant, and whether it makes a revisit line. -/
def State.takeStamp (s : State) : (Pos × Bool) × State :=
  let (p, s) := s.stampNow
  ((p, s.isRevisit p), s)

/-- The stamp of a numbered line: in assembly, on its way, or in the bobbin. -/
def State.knownStamp (s : State) (q : LineSeq) : Option Pos :=
  match s.intake.asm.find? (·.seq == q) with
  | some l => l.stamp.map (·.1)
  | none =>
    match s.intake.done.find? (·.seq == q) with
    | some l => some l.stamp
    | none => ((s.bobbin.find? (·.2.seq == q)).map (·.2.stamp))

/-- R148: the stamp of the previous line plus that line's distance from the one before it; where they give none, a free
value (log 34). -/
def State.estimateStamp (s : State) (q : LineSeq) : Pos × State :=
  match s.knownStamp (q - 1), s.knownStamp (q - 2) with
  | some a, some b => (a + (a - b), s)
  | _, _ =>
    let (n, s) := s.takeFree
    (Config.freeStamp n, s)

/-! ### Flat-field correction (R155 to R157) -/

/-- R155: one pixel corrected. -/
def flatField (d x g : Nat) (o : Int) (m : Nat) : Nat :=
  let a := rne ((16 * (x : Int) - o) * g) (2 ^ 18)
  (clampInt 0 (2 ^ d - 1) (rne (a * m) (2 ^ 14))).toNat

/-- R155, R437: pixel i of the assembled line, value x, with default coefficients where a bad word of the set covers it. -/
def correctPixel (d : Nat) (c : CoefSet) (bad : List Nat) (i x : Nat) : Nat :=
  if bad.contains (6 * i / 64) || bad.contains ((6 * i + 5) / 64) then flatField d x 16384 0 16384
  else flatField d x (c.g.getD i 16384) (c.o.getD i 0) (c.m.getD i 16384)

/-- R149: the width that a port contributes. -/
def IntkPort.contribution (p : IntkPort) : Nat := p.pixels - p.ltrim - p.rtrim

/-- R149, R151, R155: the pixels of a line from its parts; what no part brings stays zero. -/
def linePixels (p : Pattern) (c : CoefSet) (bad : List Nat) (parts : List (Option Part)) : List Nat :=
  (p.ports.foldl (fun (acc : List Nat) (q : CsiId) =>
    let k := p.intkPort q.val
    let rx := (((parts.getD q.val none).map (·.pixels)).getD []).drop k.ltrim
    acc ++ (List.range k.contribution).map fun i =>
      if h : i < rx.length then correctPixel p.bits c bad (acc.length + i) rx[i] else 0) [])

/-- R437: words of the flat-field set in use that a line's correction finds with a parity error are reported once, and
used no more until the next switch (log 36). `bank` is the set that the line was numbered under: the one in use, or the one
before it. -/
def State.checkFlat (s : State) (bank : Nat) : State :=
  let size := s.pat.flatSetBytes
  let base := bank * size
  let known := if bank = s.intake.coefBank then s.intake.badWords else s.intake.badPrev
  let bad := (ascending ((badIn s.commons.badParity base size).map fun a => (a - base) / 64)).filter fun w =>
    !known.contains w
  bad.foldl (fun s w =>
    let s := (s.detectCommons (base / 64 + w) 0xFFFFFFFF).2
    if bank = s.intake.coefBank then { s with intake := { s.intake with badWords := w :: s.intake.badWords } }
    else { s with intake := { s.intake with badPrev := w :: s.intake.badPrev } }) s

/-- R157: the coefficients and the bad words of the set that corrects a line. -/
def State.coefsFor (s : State) (bank : Nat) : CoefSet × List Nat :=
  if bank = s.intake.coefBank then (s.intake.coef, s.intake.badWords) else (s.intake.coefPrev, s.intake.badPrev)

/-! ### Pairing (R145 to R147) -/

/-- R145: frames are identified by number: every used port's latest frame start carried one. -/
def State.byNumber (s : State) : Bool := s.pat.ports.all fun q => s.intake.port[q].frameNo != 0

/-- R145: two frames, each with number and ordinal, are one frame f. -/
def State.sameFrame (s : State) (a b : Nat × Nat) : Bool := if s.byNumber then a.1 == b.1 else a.2 == b.2

/-- The frame of a port and of a line. -/
def CsiPort.frame (p : CsiPort) : Nat × Nat := (p.frameNo.toNat, p.ordinal)
def AsmLine.frame (l : AsmLine) : Nat × Nat := (l.number, l.ordinal)

/-- R146: frame b comes after frame a. DESIGN CHOICE: frame numbers, which reset and wrap, compare by the sign of their 16-bit
difference; a port's next frame comes after its present one whatever the numbers (log 132). -/
def State.frameAfter (s : State) (a b : Nat × Nat) : Bool :=
  if s.byNumber then decide (0 < (BitVec.ofNat 16 b.1 - BitVec.ofNat 16 a.1).toInt) else decide (a.2 < b.2)

/-- R146, R150: the class of a line from its parts, and its cause. DESIGN CHOICE: a missing port's cause goes before any
other damage, and of several damaged ports the lowest-lettered gives the cause (log 116). -/
def AsmLine.verdict (l : AsmLine) (p : Pattern) : LineClass :=
  let parts := p.ports.map fun q => l.parts.getD q.val none
  let got := parts.filterMap id
  if l.overRate then .overRate
  else if got.any (·.cls == .oversize) then .oversize
  else if parts.any (·.isNone) then .damaged 1
  else
    match got.findSome? fun x => x.cls.damagedCause with
    | some c => .damaged c
    | none =>
      if got.all (·.cls == .empty) then .empty
      else if got.any (·.cls == .empty) then .damaged 2
      else .normal

/-- R151, R161: the flags and cause of a class. -/
def LineClass.flags : LineClass → BitVec 8 × Nat
  | .normal => (0, 0)
  | .damaged c => (1, c)
  | .empty => (2, 0)
  | .oversize => (4, 6)
  | .overRate => (8, 7)

/-- R161: the ports that delivered a normal part. -/
def AsmLine.normalPorts (l : AsmLine) : BitVec 4 :=
  BitVec.ofNat 4 ((l.parts.zipIdx.map fun (x, i) => if (x.map (·.cls)) == some .normal then 2 ^ i else 0).sum)

/-- R157: a change may take effect at a line with a stamp: one of gain matching only from P_s on. -/
def CoefChange.due (x : CoefChange) (stamp : Pos) : Bool := (x.since.map fun p => decide (0 ≤ posDiff p stamp)).getD true

/-- R157: the coefficients change, whole, at a line whose number is a multiple of 16: every change that is due by then. The
lines in assembly from that one on are corrected with the new set. -/
def State.switchCoefs (s : State) (q : LineSeq) (stamp : Pos) : State :=
  let due := s.intake.coefNext.filter (·.due stamp)
  if q.toNat % 16 == 0 && !due.isEmpty then
    let bank := 1 - s.intake.coefBank
    { s with intake := { s.intake with
      coefPrev := s.intake.coef, coef := due.foldl CoefChange.apply s.intake.coef
      coefNext := s.intake.coefNext.filter fun x => !x.due stamp
      asm := s.intake.asm.map fun l => if 0 ≤ seqDiff q l.seq then { l with bank := bank } else l
      coefBank := bank, badPrev := s.intake.badWords, badWords := [] } }
  else s

/-- R414, R469: the stamp of the line that waits for it says whether the coefficients change at that line. -/
def State.decideSwitch (s : State) (q : LineSeq) (stamp : Pos) : State :=
  if s.intake.pendSwitch = some q then
    { s with intake := { s.intake with pendSwitch := none } }.switchCoefs q stamp
  else s

/-- R414: the question is settled for a line whose stamp has not come before a later line needs the answer: by the estimate of
R148 (log 82). -/
def State.settleSwitch (s : State) : State :=
  match s.intake.pendSwitch with
  | some q =>
    match s.knownStamp q with
    | some p => s.decideSwitch q p
    | none =>
      let (p, s) := s.estimateStamp q
      s.decideSwitch q p
  | none => s

/-- R414: the line that the switch waits for is not after a line. -/
def State.switchBefore (s : State) (l : LineSeq) : Bool :=
  s.intake.pendSwitch.any fun q => decide (0 ≤ seqDiff q l)

/-- R157, R414: a line whose number is a multiple of 16 starts: the changes due at its stamp take effect at it, now or, when
another port gives the stamp, once that comes. -/
def State.startSwitch16 (s : State) (q : LineSeq) (stamp : Option (Pos × Bool)) : State :=
  if q.toNat % 16 = 0 ∧ !s.intake.coefNext.isEmpty then
    let s := s.settleSwitch
    match stamp with
    | some (p, _) => s.switchCoefs q p
    | none => { s with intake := { s.intake with pendSwitch := some q } }
  else s

/-- R146, R148, R151, R155: a line closes: it is classified, stamped and corrected, and goes to the bobbin. DESIGN CHOICE: a
line without its stamp-giving port's part takes the estimate, also where that port sent a line start (log 131). -/
def State.closeLine (s : State) (l : AsmLine) : State :=
  let cls := l.verdict s.pat
  let stores := cls == .normal || (cls.damagedCause.isSome)
  let (st, est, s) : (Pos × Bool) × Bool × State := match l.stamp with
    | some x => (x, false, s)
    | none =>
      let (p, s) := s.estimateStamp l.seq
      ((p, s.isRevisit p), true, s)
  let s := s.decideSwitch l.seq st.1
  let s := if s.switchBefore l.seq then s.settleSwitch else s
  let bank := ((s.intake.asm.find? (·.seq == l.seq)).map (·.bank)).getD l.bank
  let s := if stores then s.checkFlat bank else s
  let (c, bad) := s.coefsFor bank
  let (fl, cause) := cls.flags
  let line : BobLine :=
    { seq := l.seq, stamp := st.1, cause := cause, ports := l.normalPorts,
      flags := fl ||| BitVec.ofNat 8 (16 * bit est + 32 * bit st.2),
      pixels := if stores then linePixels s.pat c bad l.parts else [] }
  { s with intake := { s.intake with asm := s.intake.asm.filter (·.seq != l.seq), done := s.intake.done ++ [line] } }

/-- Lines in assembly that meet a condition close, oldest first. -/
def State.closeLines (s : State) (c : AsmLine → Bool) : State := (s.intake.asm.filter c).foldl State.closeLine s

/-- R383: a HELLO is due on the E and W links. -/
def State.helloSoon (s : State) : State :=
  ([0, 1] : List SeamId).foldl (fun s q => s.updLink q fun l => { l with helloDue := true }) s

/-- R145, R147, R166: the ports are aligned again: lines in assembly close incomplete, and every port discards input until
its next frame start. A record forms where some port was aligned (log 37). -/
def State.realign (s : State) : State :=
  let aligned := s.pat.ports.any fun q => !s.intake.port[q].waiting
  let s := s.closeLines fun _ => true
  let s := { s with intake := { s.intake with
    begun := []
    port := s.intake.port.map (fun (p : CsiPort) =>
      { p with waiting := true, open_ := false, closed := none, lineStart := none, ordinal := 0, index := 0 }) } }
  let s := if aligned then
      s.status 7 0 (bodyAt 0x10 48 s.position.toNat ||| bodyAt 0x17 40 s.intake.nextSeq.toNat)
    else s
  s.helloSoon

/-- R147: the number of the frame that a port has at an ordinal, its present one or the one before it; 0 for none. -/
def CsiPort.numberAt (p : CsiPort) (ordinal : Nat) : BitVec 16 :=
  if p.waiting then 0 else if p.ordinal = ordinal then p.frameNo else if p.ordinal = ordinal + 1 then p.prevNo else 0

/-- R147: the frame numbers of two ports at the same ordinal differ while pairing goes by ordinal (log 37). -/
def State.numbersDiffer (s : State) (c : CsiId) : Bool :=
  let p := s.intake.port[c]
  !s.byNumber && p.frameNo != 0 && s.pat.ports.any fun q =>
    let n := s.intake.port[q].numberAt p.ordinal
    q != c && n != 0 && n != p.frameNo

/-- R146: a port goes from frame `old` on to frame f, and so has left `old` and every frame before f. A frame that every used
port has left can receive no more parts; nor can one whose number the port takes up again. -/
def State.leaveFrames (s : State) (c : CsiId) (old f : Nat × Nat) : State :=
  let left (g : Nat × Nat) : Bool := s.sameFrame g old || s.frameAfter g f
  let gone (x : Nat × Nat × Nat × List CsiId) : Bool :=
    s.sameFrame (x.1, x.2.1) f && (x.2.2.2.contains c || s.sameFrame old f)
  let begun := ((s.intake.begun.filter fun x => !gone x).map fun (n, o, k, l) =>
    (n, o, k, if left (n, o) && !l.contains c then c :: l else l)).filter fun (_, _, _, l) =>
      !s.pat.ports.all fun q => l.contains q
  { s with intake := { s.intake with begun := begun } }

/-- R145 to R147: a frame start on a port; the lines of its frame until now, and of every frame before the new one, close
incomplete. -/
def State.startFrame (s : State) (c : CsiId) (frame : BitVec 16) : State :=
  let fresh := s.intake.port[c].waiting
  let old := s.intake.port[c].frame
  let s := s.updCsi c fun p =>
    { p with
      ordinal := if p.waiting then 0 else p.ordinal + 1
      closed := if p.open_ then none else p.closed
      prevNo := if p.waiting then 0 else p.frameNo
      waiting := false, open_ := true, frameNo := frame, index := 0, lineStart := none }
  let f := s.intake.port[c].frame
  let s := s.closeLines fun l => (!fresh && s.sameFrame l.frame old) || s.frameAfter l.frame f
  let s := if fresh then s else s.leaveFrames c old f
  (if s.numbersDiffer c then s.realign else s).settle

/-- R147: another port closed the same frame with another line count. -/
def State.countsDiffer (s : State) (c : CsiId) : Bool :=
  match s.intake.port[c].closed with
  | some (n, o, k) => s.pat.ports.any fun q =>
    match s.intake.port[q].closed with
    | some (n', o', k') => q != c && s.sameFrame (n, o) (n', o') && k != k'
    | none => false
  | none => false

/-- The port takes lines: it is aligned and within a frame. -/
def State.portTakes (s : State) (c : CsiId) : Bool :=
  s.portOn c && s.intake.port[c].open_ && !s.intake.port[c].waiting

/-- R145, R147: a frame end: the frame closes with its line count. -/
def State.endFrame (s : State) (c : CsiId) : State :=
  if !s.portTakes c then s
  else
    let s := s.updCsi c fun p =>
      { p with open_ := false, closed := some (p.frameNo.toNat, p.ordinal, p.index), lineStart := none }
    (if s.countsDiffer c then s.realign else s).settle

/-- R20, R148: a line start: the stamp instant of the port's next line. -/
def State.lineStarts (s : State) (c : CsiId) : State :=
  if !s.portTakes c then s
  else
    let (st, s) := s.takeStamp
    s.updCsi c fun p => { p with lineStart := some st }

/-- R141: a packet that the port ignores is counted. -/
def State.countIgnored (s : State) (c : CsiId) : State := s.updCsi c fun p => { p with ignored := satAdd 32 p.ignored 1 }

/-- R152: a corrected header error is counted. -/
def State.countCorrected (s : State) (c : CsiId) : State :=
  s.updCsi c fun p => { p with corrected := satAdd 32 p.corrected 1 }

/-- IGNORED_PACKET (R141): it is counted and has no other effect. -/
def execIgnoredPacket (c : CsiId) (s : State) : Result :=
  when (s.portOn c) s fun s => s.countIgnored c

/-! ### Lines (R19, R146, R153, R157) -/

/-- R146: line (f, k) of a port's frame has started, and every line of the frame before it. -/
def State.noteBegun (s : State) (f : Nat × Nat) (k : Nat) : List (Nat × Nat × Nat × List CsiId) :=
  let (old, left) := ((s.intake.begun.find? fun (n, o, _) => s.sameFrame (n, o) f).map (·.2.2)).getD (0, [])
  (f.1, f.2, max old (k + 1), left) :: s.intake.begun.filter fun (n, o, _) => !s.sameFrame (n, o) f

/-- R19, R26, R153: the line to which a first part on a port belongs is numbered and starts; with four earlier lines in
assembly it is refused whole. -/
def State.startLine (s : State) (c : CsiId) (k : Nat) (stamp : Option (Pos × Bool)) : State :=
  let p := s.intake.port[c]
  let q := s.intake.nextSeq
  let s := (s.startSwitch16 q stamp).bump 0 1
  let l : AsmLine :=
    { number := p.frameNo.toNat, ordinal := p.ordinal, k := k, seq := q, firstAt := s.clock,
      overRate := decide (4 ≤ s.intake.asm.countP (!·.overRate)), bank := s.intake.coefBank }
  { s with
    intake := { s.intake with nextSeq := q + 1, asm := s.intake.asm ++ [l], begun := s.noteBegun p.frame k }
    web := { s.web with rateLines := s.web.rateLines + 1 } }

/-- R145: the line (f, k) of a port's frame in assembly. -/
def State.findLine (s : State) (c : CsiId) (k : Nat) : Option AsmLine :=
  s.intake.asm.find? fun l =>
    l.k == k && s.sameFrame l.frame s.intake.port[c].frame && (l.parts.getD c.val none).isNone

/-- R146: the line (f, k) has started; when it is no longer in assembly it has been closed, and its late part is dropped. -/
def State.lineGone (s : State) (c : CsiId) (k : Nat) : Bool :=
  s.intake.begun.any fun (n, o, k', _) => decide (k < k') && s.sameFrame (n, o) s.intake.port[c].frame

/-- R146: lines of the same frame four or more indices back close. -/
def State.closeOlder (s : State) (l : AsmLine) : State :=
  s.closeLines fun x => x.seq != l.seq && decide (x.k + 4 ≤ l.k) && s.sameFrame x.frame l.frame

/-- R146: a part, or none when it was discarded, reaches its line, with the stamp where the port gives it; the line
closes when every used port has delivered, or at once when `incomplete`. -/
def State.deliverPart (s : State) (c : CsiId) (k : Nat) (part : Option Part) (stamp : Option (Pos × Bool))
    (incomplete : Bool) : State :=
  if (s.findLine c k).isNone && s.lineGone c k then s
  else
    let s := if (s.findLine c k).isSome then s else s.startLine c k stamp
    match s.findLine c k with
    | some l =>
      let part' := part.map fun x => if l.overRate then { cls := .overRate } else x
      let l' := { l with parts := l.parts.set c.val part', stamp := if stamp.isSome then stamp else l.stamp }
      let s := { s with intake := { s.intake with asm := updFirst (·.seq == l.seq) (fun _ => l') s.intake.asm } }
      let s := (l'.stamp.map fun st => s.decideSwitch l'.seq st.1).getD s
      let s := s.closeOlder l'
      if incomplete || s.pat.ports.all fun q => (l'.parts.getD q.val none).isSome then s.closeLine l' else s
    | none => s

/-- R148: the stamp that a line's part brings: that of the line start, or of the header, where the port gives stamps. -/
def State.partStamp (s : State) (c : CsiId) : Option (Pos × Bool) × State :=
  if s.pat.stampPort c then
    match s.intake.port[c].lineStart with
    | some st => (some st, s)
    | none =>
      let (st, s) := s.takeStamp
      (some st, s)
  else (none, s)

/-- R148, R150: the port's next line takes a part. -/
def State.takePart (s : State) (c : CsiId) (part : Part) : State :=
  if !s.portTakes c then s
  else
    let p := s.intake.port[c]
    let (stamp, s) := s.partStamp c
    let omit_ := (s.pat.intkPort c.val).lineStart && p.lineStart.isNone
    let s := s.updCsi c fun p =>
      { p with
        index := p.index + 1, lineStart := none
        omitted := satAdd 32 p.omitted (bit omit_)
        damaged := satAdd 32 p.damaged (bit part.cls.damagedCause.isSome) }
    (s.deliverPart c p.index (some part) stamp false).settle

/-- R140, R141, R145, R148: a short packet with checked header bits: one of the declared virtual channel and of data type t has
its effect, with its data field; any other is ignored. -/
def State.shortPacket (s : State) (c : CsiId) (t h : Nat) (f : State → BitVec 16 → State) : State :=
  if headerChannel h = (s.pat.intkPort c.val).vc ∧ headerType h = t then f s (BitVec.ofNat 16 (headerCount h))
  else s.countIgnored c

/-- R140, R141, R152: a short packet by what the ECC says of its header: corrected when one bit is wrong, and the port's next
long packet, damaged, when more are. -/
def State.takeShort (s : State) (x : CsiShort) (t : Nat) (f : State → BitVec 16 → State) : Result :=
  when (s.portOn x.port) s fun s =>
    match checkHeader x.header with
    | .clean h => s.shortPacket x.port t h f
    | .corrected h => (s.countCorrected x.port).shortPacket x.port t h f
    | .uncorrectable => s.takePart x.port { cls := .damaged 4 }

/-- FRAME_START (R140, R145 to R147): data type 0, the frame number in the data field. -/
def execFrameStart (c : CsiId) (header : BitVec 32) (s : State) : Result :=
  s.takeShort ⟨c, header⟩ 0 fun s n => s.startFrame c n

/-- FRAME_END (R140, R145, R147): data type 1. -/
def execFrameEnd (x : CsiShort) (s : State) : Result := s.takeShort x 1 fun s _ => s.endFrame x.port

/-- LINE_START_PACKET (R20, R140, R148): data type 2. -/
def execLineStartPacket (x : CsiShort) (s : State) : Result := s.takeShort x 2 fun s _ => s.lineStarts x.port

/-- R140, R141, R150: a long packet whose header is known: a part, or a packet that the port ignores. -/
def State.takePacket (s : State) (c : CsiId) (k : LongPacket) (h : Nat) : State :=
  let p := s.pat.intkPort c.val
  if p.takes h then s.takePart c (classify s.pat.bits p.pixels (headerCount h) k.payload (payloadOk k h))
  else s.countIgnored c

/-- LONG_PACKET (R140, R141, R145 to R156): a part of the port's next line, by the packet's checked header. The header and
the payload come at one instant of the model (log 38). -/
def execLongPacket (c : CsiId) (k : LongPacket) (u : List Upset) (s : State) : Result :=
  when (s.portOn c) s fun s =>
    let s := s.upsets 0 (u.filter (·.store == .commons))
    match checkHeader k.header with
    | .clean h => s.takePacket c k h
    | .corrected h => (s.countCorrected c).takePacket c k h
    | .uncorrectable => s.takePart c { cls := .damaged 4 }

/-- CSI_CLOCK_LOSS (R471): the burst in progress, the port's next part, is discarded, and its line closes incomplete. -/
def execCsiClockLoss (c : CsiId) (s : State) : Result :=
  when (s.portTakes c) s fun s =>
    let p := s.intake.port[c]
    let (stamp, s) := s.partStamp c
    let s := s.updCsi c fun p => { p with index := p.index + 1, lineStart := none }
    (s.deliverPart c p.index none stamp true).settle

/-- LINE_ASSEMBLY_TIMEOUT (R146): 4 / L_max has passed since the first part of the oldest line in assembly. -/
def execLineAssemblyTimeout (s : State) : Result :=
  match s.intake.asm with
  | l :: _ =>
    when (decide (4 * 10 ^ 12 ≤ (s.clock - l.firstAt) * s.pat.dlin.lMax)) s fun s => (s.closeLine l).settle
  | [] => .next s

/-! ### The bobbin (R154, R159 to R165) -/

/-- R326: a GAP record. -/
def State.gapRecord (s : State) (g : GapRun) : State :=
  s.submit (s.mkRecord 5 0 g.cause g.count
    (bodyAt 0x10 48 g.firstStamp.toNat ||| bodyAt 0x16 8 g.ports.toNat ||| bodyAt 0x17 40 g.firstSeq.toNat
      ||| bodyAt 0x1C 32 (unsigned 32 (clampInt (-2 ^ 31) (2 ^ 31 - 1) (posDiff g.firstStamp g.lastStamp)))))

/-- R154: the ports involved in a line that is not normal: those that delivered no normal part. -/
def State.gapPorts (s : State) (l : BobLine) : BitVec 4 := BitVec.ofNat 4 s.pat.intk.mask &&& ~~~l.ports

/-- R154: the open run ends with its record. -/
def State.endGap (s : State) : State :=
  match s.intake.gap with
  | some g => { s.gapRecord g with intake := { s.intake with gap := none } }
  | none => s

/-- R154: the next line in sequence joins the open run, or ends it and may open another. -/
def State.feedGap (s : State) (l : BobLine) : State :=
  if l.cause = 0 then s.endGap
  else
    let s := match s.intake.gap with
      | some g => if g.cause = l.cause then s else s.endGap
      | none => s
    let g := match s.intake.gap with
      | some g => { g with count := g.count + 1, lastStamp := l.stamp, ports := g.ports ||| s.gapPorts l }
      | none =>
        { cause := l.cause, firstSeq := l.seq, count := 1, firstStamp := l.stamp, lastStamp := l.stamp,
          ports := s.gapPorts l }
    let s := { s with intake := { s.intake with gap := some g } }
    if 4096 ≤ g.count then s.endGap else s

/-- R295: the number of built tables. -/
def Tables.built (t : Tables) : Nat := t.store.countP (!·.shipped)

/-- R295, R296, R298: what the stamp of the next line in sequence settles for the tables. -/
def State.feedTables (s : State) (l : BobLine) : State :=
  let t := s.tables
  let t := if t.firstStamp.isNone && l.seq == 0 then { t with firstStamp := some l.stamp } else t
  let t := if t.pf.isNone && l.seq.toNat + 1 == s.pat.window then
      let pf := l.stamp + BitVec.ofNat 48 s.pat.dlin.horizon
      { t with
        lastStamp := some l.stamp, pf := some pf
        ps := some (pf + BitVec.ofNat 48 (countsIn s.pat.dlin.cMax (5000 * t.built) + 2)) }
    else t
  let t := match t.switchLine, t.ps with
    | none, some ps => if 0 ≤ posDiff ps l.stamp then { t with switchLine := some l.seq } else t
    | _, _ => t
  { s with tables := t }

/-- R413, R414: the lines stamped at or ahead of P_c: the first, the count of the normal ones, and at the master the instant of
the last of the N_c (log 128). -/
def State.feedSweep (s : State) (l : BobLine) : State :=
  match s.bolt.calRun with
  | some (_, pc, nc) =>
    if 0 ≤ posDiff pc l.stamp then
      let n := s.bolt.calLines + bit l.normal
      { s with bolt := { s.bolt with
        calFirst := some (s.bolt.calFirst.getD l.seq), calLines := n
        calMaster := s.bolt.calMaster.map fun (ok, t) =>
          (ok, if t.isNone && decide (nc ≤ n) then some s.clock else t) } }
    else s
  | none => s

/-- R154, R295, R296, R413: the lines that have come into the bobbin are taken in sequence order. -/
def State.feedInOrder (s : State) : State :=
  (List.range (s.intake.nextSeq - s.intake.gapNext).toNat).foldl (fun s _ =>
    match s.bobDesc s.intake.gapNext with
    | some l =>
      if s.intake.done.any (·.seq == s.intake.gapNext) then s
      else
        let s := ((s.feedGap l).feedTables l).feedSweep l
        { s with intake := { s.intake with gapNext := s.intake.gapNext + 1 } }
    | none => s) s

/-- R159, R165: the bank groups that hold bytes of ring position k. -/
def Pattern.lineGroups (p : Pattern) (k : Nat) : List Nat :=
  if p.stride = 0 then []
  else (List.range 12).filter fun j =>
    decide (j * 2 ^ 20 < (k + 1) * p.stride ∧ k * p.stride < (j + 1) * 2 ^ 20)

/-- R165: a bank group keeps its lines and takes new ones. -/
def State.groupOn (s : State) (j : Nat) : Bool := s.isOn (domBobbin j)

/-- R162: the line that a new one overwrites, when it was never screened, forms a GAP record. -/
def State.overwrite (s : State) (q : LineSeq) : State :=
  match s.bobbin.find? (·.1 == q.toNat % s.pat.bobbinDepth) with
  | some (_, l) =>
    if l.has lineScreened then s
    else s.gapRecord { cause := 8, firstSeq := l.seq, count := 1, firstStamp := l.stamp, lastStamp := l.stamp, ports := l.ports }
  | none => s

/-- R273, R405, R406, R430: what a new line asks of a halo side: a missing entry while the link is unanchored, otherwise a
watch unless its halo line is already there. -/
def State.expectHalo (s : State) (side : Fin 2) (q : LineSeq) : State :=
  if !s.sideDeclared side then s
  else if s.bolt.links[sidePort side].delta.isNone then s.putHalo side { seq := q, flags := haloMissing }
  else if (s.haloEntry side q).isSome then s.sumSide side q
  else
    { s with bolt := { s.bolt with halo := Vector.upd s.bolt.halo side fun h =>
      { h with watch := h.watch ++ [(q, s.clock)] } } }

/-- R165: a line written while one of its bank groups is not on is lost (log 39). -/
def State.journalFlags (s : State) (l : BobLine) : BitVec 8 :=
  if (s.pat.lineGroups (l.seq.toNat % s.pat.bobbinDepth)).all s.groupOn then l.flags else l.flags ||| 0x80#8

/-- LINE_JOURNALED (R161, R162, R164, R404): the oldest closed line comes into the bobbin with its descriptor. -/
def execLineJournaled (s : State) : Result :=
  match s.intake.done with
  | l :: rest =>
    when s.running s fun s =>
      let s := { s with intake := { s.intake with done := rest } }
      let s := s.overwrite l.seq
      let l := { l with flags := s.journalFlags l, atClock := s.clock, seen := s.sentinelScreens }
      let s := (s.putLine l).sendHalos l
      let s := [0, 1].foldl (fun (s : State) (side : Fin 2) => s.expectHalo side l.seq) s
      s.feedInOrder.settle
  | [] => .next s

end Sys2Proof.Machine
end

