-- ==== Sys2Proof/Machine/Markers.lean ====
section
/-! DEFINITION. The marker scheduler: arming, firing and release of fires (R345 to R348). -/

namespace Sys2Proof.Machine

/-- The marker's oldest fire in a stage. -/
def Fire.isAt (m : MarkerId) (g : FireStage) (f : Fire) : Bool := f.marker == m.val && f.stage == g

/-- MARKER_FIRE (R346): the marker's oldest fire whose target count has come asserts it. -/
def execMarkerFire (m : MarkerId) (s : State) : Result :=
  let s := if s.markers.fires.any (Fire.isAt m .due) then s.bump 5 1 else s
  .next { s with markers := { s.markers with
    fires := updFirst (Fire.isAt m .due) (fun f => { f with stage := .pulse, startedAt := s.clock })
      s.markers.fires } }

/-- R346: a pulse may end once its width, less 3 % and 40 ns, has passed. -/
def Fire.mayEnd (clock : Nat) (f : Fire) : Bool :=
  decide (97 * (f.widthUs * usPs) ≤ 100 * (clock - f.startedAt + 40000))

/-- MARKER_PULSE_END (R346): the pulse's end releases the fire and forms its MARK record, sub-code 1. -/
def execMarkerPulseEnd (m : MarkerId) (s : State) : Result :=
  match takeFirst (fun f => Fire.isAt m .pulse f && f.mayEnd s.clock) s.markers.fires with
  | some (f, rest) =>
    let s := { s with markers := { s.markers with fires := rest } }
    .next (s.markRecord 1 f.marker f.target 1 f.tag).settle
  | none => .next s

/-- R345: one fire of a closing record is armed: dropped, pending, fired at once, or missed. -/
def State.armFire (s : State) (f : Fire) : State :=
  match takeFirst (· == f) s.markers.fires with
  | some (_, rest) =>
    let d := posDiff s.position f.target
    let without : State := { s with markers := { s.markers with fires := rest } }
    if 1024 ≤ s.markers.heldFires then without.markRecord 3 f.marker f.target 1 f.tag
    else if d < 0 then without.markRecord 2 f.marker f.target 1 f.tag
    else
      let f' := if d = 0 then { f with stage := .pulse, startedAt := s.clock } else { f with stage := .pending }
      let s := { s with markers := { s.markers with fires := rest ++ [f'] } }
      if d = 0 then s.bump 5 1 else s
  | none => s

/-- FIRE_ARM (R345): the fires of the oldest closing record not yet armed. -/
def execFireArm (s : State) : Result :=
  match s.markers.fires.find? (·.stage == .formed) with
  | some f0 =>
    .next (((s.markers.fires.filter fun f => f.stage == .formed && f.tag == f0.tag).foldl
      State.armFire s).settle)
  | none => .next s

end Sys2Proof.Machine
end

