-- ==== Sys2Proof/Machine/PanelCompute.lean ====
section
/-! DEFINITION. MM, DRAIN and CIMV (R199 to R207, R232 to R235, R194). -/

namespace Sys2Proof.Machine

/-! ### MM -/

/-- Elements of a format from the bytes of an operand file row. -/
def unpackRow (fmt k : Nat) (b : List Byte) : List Elem :=
  if fmt = fmtI4 then (List.range k).map fun i => (b.getD (i / 2) 0).toNat / (if i % 2 = 0 then 1 else 16) % 16
  else if fmt = fmtBX8 then
    (List.range k).map fun i => (b.getD (i / 32 * 33) 0).toNat * 256 + (b.getD (i / 32 * 33 + 1 + i % 32) 0).toNat
  else (List.range k).map fun i => uAt b (i * (fmtBits fmt / 8)) (fmtBits fmt / 8)

/-- Row i of an operand file from a byte offset. -/
def fileRow (m : List Host.Cell) (array i off fmt k : Nat) : List Elem :=
  unpackRow fmt k (Memory.readN 0 m (16384 * array + 512 * i + off) (kBytes fmt k))

/-- The integer of an element of an integer format. -/
def elemInt (fmt : Nat) (x : Elem) : Int := if fmt = fmtU8 then (x % 256 : Nat) else signed (fmtBits fmt) x

/-- R206: the BX8 blocks of a row and a column, folded one by one. -/
def dotBx8 : Nat → List Elem → List Elem → F32 → F32
  | 0, _, _, acc => acc
  | fuel + 1, a, b, acc =>
    if a.isEmpty then acc
    else
      let m (x : Elem) : Int := (BitVec.ofNat 8 x).toInt
      let l := (a.take 32).zip (b.take 32)
      dotBx8 fuel (a.drop 32) (b.drop 32)
        (foldBx8 acc (a.headD 0 / 256) (b.headD 0 / 256) (l.map fun (x, y) => (m x, m y)))

/-- R204 to R206: one cell's accumulation over K elements, and whether an integer sum saturated. -/
def cellSum (fa fb k : Nat) (a b : List Elem) (acc : F32) : F32 × Bool :=
  if fmtInt fa then
    let l := (a.zip b).map fun (x, y) => (elemInt fa x, elemInt fb y)
    let step := if fa = fmtI4 ∧ fb = fmtI4 then 2 else 1
    let (v, sat) := dotInt step k l (acc.toInt, false)
    (BitVec.ofInt 32 v, sat)
  else if fa = fmtBX8 then (dotBx8 (k / 32) a b acc, false)
  else (dotFloat ((a.zip b).map fun (x, y) => (elemValue fa x, elemValue fb y)) acc, false)

/-- R201: the accumulator format of a pair. -/
def accFormat (fa : Nat) : Nat := if fmtInt fa then fmtI32 else fmtFP32

/-- R199, R232: one MM on an array. -/
def Panel.matmul (x : Panel) (array bank clear fa fb k oa ob : Nat) : Panel :=
  let i : Fin 8 := ⟨(2 * array + bank) % 8, Nat.mod_lt _ (by decide)⟩
  let old := if clear = 1 then [] else x.acc[i]
  let as := (List.range 32).map fun r => fileRow x.fileA array r oa fa k
  let bs := (List.range 32).map fun c => fileRow x.fileB array c ob fb k
  let cells := as.zipIdx.flatMap fun (a, r) => bs.zipIdx.map fun (b, c) =>
    cellSum fa fb k a b (old.getD (32 * r + c) 0)
  { x with
    acc := Vector.put x.acc i (cells.map (·.1))
    accFmt := Vector.put x.accFmt i (accFormat fa)
    saturated := satAdd 16 x.saturated (bit (cells.any (·.2))) }

/-- MM (R232). -/
def execMm (p : PanelId) (u : List Upset) (s : State) : Result :=
  panelStep p u s fun
    | .mm x b tog clear fa fb k oa ob => some fun _ s =>
      let bank := bankOf b tog s.panels[p].seq.loops
      s.updPanel p fun y => y.matmul x bank clear fa fb k oa ob
    | _ => none

/-! ### DRAIN -/

/-- The 1,024 words of a bank in row order. -/
def Panel.bankWords (x : Panel) (array bank : Nat) : List F32 × Nat :=
  let i : Fin 8 := ⟨(2 * array + bank) % 8, Nat.mod_lt _ (by decide)⟩
  (x.acc[i] ++ List.replicate (1024 - x.acc[i].length) 0, x.accFmt[i])

/-- R234, R258: the words of a bank fill VQ, or go to a quad-striped tile. -/
def State.drainBank (s : State) (p : PanelId) (x bank tgt d : Nat) : State :=
  let (ws, fmt) := s.panels[p].bankWords x bank
  if tgt = 0 then s.updPanel p fun y => { y with vq := ws, vqFmt := fmt }
  else
    let dd := s.pat.tile d
    let o := (dd.origin dd.base s.panels[p].seq.loops).toNat
    ws.zipIdx.foldl (fun s (w, i) =>
      s.writeStore p spScratch (quadAddr o (i / 32) (i % 32)) (leBytes 4 w.toNat)) s

/-- DRAIN (R234). -/
def execDrain (p : PanelId) (u : List Upset) (s : State) : Result :=
  panelStep p u s fun
    | .drain x b tog tgt d => some fun _ s => s.drainBank p x (bankOf b tog s.panels[p].seq.loops) tgt d
    | _ => none

/-! ### CIMV -/

/-- R193: the lattice tensors on a panel's lattice, as (first row, rows). -/
def Pattern.latticeRows (p : Pattern) (panel lattice : Nat) : List (Nat × Nat) :=
  (p.wght.filter fun e => bitAt e.flags 1 && field e.hbmOff 3 0 == panel && field e.hbmOff 4 4 == lattice).map
    fun e => (field e.hbmOff 13 5, e.dims.getD 1 0)

/-- R194, R235: the inputs of the 512 rows for one input vector; rows outside every tensor are driven with zero. An input is the
low b bits of the element as stored, whatever S's format (log 144). -/
def latticeInputs (tensors : List (Nat × Nat)) (row bits : Nat) (l : List Elem) : List Nat :=
  (List.range 512).map fun r =>
    if row ≤ r ∧ tensors.any (fun (a, n) => decide (a ≤ r ∧ r < a + n)) then l.getD (r - row) 0 % 2 ^ bits else 0

/-- R235: every input vector of tile a through one lattice, the results of its logical columns to tile d as INT32. -/
def State.latticeTile (s : State) (p : PanelId) (lat bits sgn width a d row col : Nat) : State :=
  let x : ArrayId := ⟨(8 + 2 * p.val + lat) % 40, Nat.mod_lt _ (by decide)⟩
  let k := (s.pat.tile a).e dimK
  let cols := (s.pat.tile d).e dimK
  let (l, s) := s.readTile p a
  let v := if k = 0 then 0 else l.length / k
  let rows := s.pat.latticeRows p.val lat
  let (ys, arr, free) := (List.range v).foldl (fun (ys, arr, free) j =>
    let inp := latticeInputs rows row bits ((l.drop (j * k)).take k)
    let (y, arr, free) := CimArray.evaluate arr false 128 2 (2 ^ width) bits (sgn == 1) col cols free inp
    (ys ++ y, arr, free)) (([] : List Int), s.sentinel.arrays[x], s.free)
  let s := { s with free := free }.updArray x fun _ => arr
  s.writeStored p d (ys.map fun y => leBytes 4 (unsigned 32 y))

/-- CIMV (R235). -/
def execCimv (p : PanelId) (u : List Upset) (s : State) : Result :=
  panelStep p u s fun
    | .cimv lat bits sgn width a d row col => some fun _ s => s.latticeTile p lat bits sgn width a d row col
    | _ => none

end Sys2Proof.Machine
end

