-- ==== Sys2Proof/Machine/PanelVector.lean ====
section
/-! DEFINITION. The vector instructions (R216 to R223, R236 to R238). -/

namespace Sys2Proof.Machine

/-- R207, R234: n words taken from VQ, whole vectors at a time, with their format. -/
def State.takeVq (s : State) (p : PanelId) (n : Nat) : List Num × State :=
  let x := s.panels[p]
  let m := ceilDiv n 64 * 64
  ((x.vq.take n).map fun w => decodeBits x.vqFmt w.toNat, s.updPanel p fun y => { y with vq := y.vq.drop m })

/-- The values of a source field: VQ gives as many as the destination holds. -/
def State.readSource (s : State) (p : PanelId) (f dst : Nat) : List Num × State :=
  if f = descVq then s.takeVq p (s.pat.tile dst).count
  else
    let (l, s) := s.readTile p f
    (l.map (elemValue (s.pat.tile f).fmt), s)

/-- R216: a value as an operand of the integer class or of the float class. A value that no INT32 holds exactly is rounded and
saturated for the integer class as R213 does (log 145). -/
def asInt (v : Num) : Int := toInt fmtI32 false v
def asFloat (v : Num) : F32 := fround v

/-- R216: results of the float class and of the integer class, as values. -/
def ofFloats (l : List F32) : List Num := l.map fval
def ofInts (l : List Int) : List Num := l.map Num.ofInt

/-- One vector instruction: of opcode `op`, with its operands D, S1, S2, the rounding and class bits and the immediate. -/
def vectorStep (op : Nat) (p : PanelId) (u : List Upset) (s : State)
    (g : Nat → Nat → Nat → Bool → Nat → F32 → State → List Num × State) : Result :=
  panelStep p u s fun
    | .vector o d a b away cls imm =>
      if o = op then some fun _ s =>
        let alpha : F32 := BitVec.ofNat 32 (toFloat fmtFP32 (decodeBits fmtBF16 imm))
        let (vs, s) := g d a b (away == 1) cls alpha s
        s.writeValues p d (away == 1) vs
      else none
    | _ => none

/-- An elementwise operation of two operands, by class. -/
def vector2 (op : Nat) (fi : Int → Int → Int) (ff : F32 → F32 → F32) (p : PanelId) (u : List Upset) (s : State) :
    Result :=
  vectorStep op p u s fun d a b _ cls _ s =>
    let (x, s) := s.readSource p a d
    let (y, s) := s.readSource p b d
    (if cls = 0 then ofInts ((x.zip y).map fun (v, w) => sat32 (fi (asInt v) (asInt w)))
      else ofFloats ((x.zip y).map fun (v, w) => ff (asFloat v) (asFloat w)), s)

/-- An elementwise operation of one operand, by class. -/
def vector1 (op : Nat) (fi : Int → Int) (ff : F32 → F32 → F32) (p : PanelId) (u : List Upset) (s : State) : Result :=
  vectorStep op p u s fun d a _ _ cls alpha s =>
    let (x, s) := s.readSource p a d
    (if cls = 0 then ofInts (x.map fun v => sat32 (fi (asInt v))) else ofFloats (x.map fun v => ff alpha (asFloat v)), s)

/-- VADD (R217). -/
def execVadd (p : PanelId) (u : List Upset) (s : State) : Result := vector2 0x20 (· + ·) fadd p u s
/-- VSUB (R217). -/
def execVsub (p : PanelId) (u : List Upset) (s : State) : Result := vector2 0x21 (· - ·) fsub p u s
/-- VMUL (R217). -/
def execVmul (p : PanelId) (u : List Upset) (s : State) : Result := vector2 0x22 (· * ·) fmul p u s
/-- VMAX (R217). -/
def execVmax (p : PanelId) (u : List Upset) (s : State) : Result := vector2 0x23 max fmax p u s
/-- VMIN (R217). -/
def execVmin (p : PanelId) (u : List Upset) (s : State) : Result := vector2 0x24 min fmin p u s
/-- VABS (R217). -/
def execVabs (p : PanelId) (u : List Upset) (s : State) : Result :=
  vector1 0x25 (fun v => (v.natAbs : Int)) (fun _ => fabs) p u s
/-- VNEG (R217). -/
def execVneg (p : PanelId) (u : List Upset) (s : State) : Result := vector1 0x26 (fun v => -v) (fun _ => fneg) p u s

/-- VCVT (R213, R214): the exact source value takes the destination's rule, whatever the class (log 31). -/
def execVcvt (p : PanelId) (u : List Upset) (s : State) : Result :=
  vectorStep 0x27 p u s fun d a _ _ _ _ s => s.readSource p a d

/-- R237: the bytes of a parameter tile in transfer order. -/
def State.readBytes (s : State) (p : PanelId) (f : Nat) : List Byte × State :=
  let (units, s) := s.readStored p f
  (units.flatten, s)

/-- VREQ (R218, R237): element e takes parameter entry e mod the entry count. -/
def execVreq (p : PanelId) (u : List Upset) (s : State) : Result :=
  vectorStep 0x28 p u s fun d a b away cls _ s =>
    let (ps, s) := s.readBytes p b
    let (x, s) := s.readSource p a d
    let n := ps.length / 8
    let f := (s.pat.tile d).fmt
    (x.zipIdx.map fun (v, i) =>
      let e := 8 * (if n = 0 then 0 else i % n)
      let v := if cls = 0 then Num.ofInt (asInt v) else fval (asFloat v)
      requant f away v (sAt ps e 4) (uAt ps (e + 4) 1) (sAt ps (e + 6) 2), s)

/-- VLUT (R221): the input as an index into the 256 entries of S2. A word of VQ is an index itself, one below 0 takes entry 0 and
one above 255 gives zero (log 146). -/
def execVlut (p : PanelId) (u : List Upset) (s : State) : Result :=
  vectorStep 0x29 p u s fun d a b _ _ _ s =>
    let (t, s) := s.readSource p b d
    let (x, s) := s.readSource p a d
    let off : Int := if (s.pat.tile a).fmt = fmtI8 then 128 else 0
    (x.map fun v => t.getD (asInt v + off).toNat (Num.ofInt 0), s)

/-- A float-class operation of one operand. -/
def float1 (op : Nat) (f : F32 → F32) (p : PanelId) (u : List Upset) (s : State) : Result :=
  vectorStep op p u s fun d a _ _ _ _ s =>
    let (x, s) := s.readSource p a d
    (ofFloats (x.map fun v => f (asFloat v)), s)

/-- VEXP2 (R219). -/
def execVexp2 (p : PanelId) (u : List Upset) (s : State) : Result := float1 0x2A fexp2 p u s
/-- VLOG2 (R219). -/
def execVlog2 (p : PanelId) (u : List Upset) (s : State) : Result := float1 0x2B flog2 p u s
/-- VRCP (R219). -/
def execVrcp (p : PanelId) (u : List Upset) (s : State) : Result := float1 0x2C frcp p u s
/-- VSQRT (R219). -/
def execVsqrt (p : PanelId) (u : List Upset) (s : State) : Result := float1 0x2D fsqrt p u s
/-- VRSQRT (R219). -/
def execVrsqrt (p : PanelId) (u : List Upset) (s : State) : Result := float1 0x2E frsqrt p u s

/-- VDIV (R219). -/
def execVdiv (p : PanelId) (u : List Upset) (s : State) : Result :=
  vectorStep 0x2F p u s fun d a b _ _ _ s =>
    let (x, s) := s.readSource p a d
    let (y, s) := s.readSource p b d
    (ofFloats ((x.zip y).map fun (v, w) => fdiv (asFloat v) (asFloat w)), s)

/-- VEXP (R220). -/
def execVexp (p : PanelId) (u : List Upset) (s : State) : Result := float1 0x30 fexp p u s
/-- VSIG (R220). -/
def execVsig (p : PanelId) (u : List Upset) (s : State) : Result := float1 0x31 fsigmoid p u s
/-- VTANH (R220). -/
def execVtanh (p : PanelId) (u : List Upset) (s : State) : Result := float1 0x32 ftanh p u s
/-- VGELU (R220). -/
def execVgelu (p : PanelId) (u : List Upset) (s : State) : Result := float1 0x33 fgelu p u s
/-- VSILU (R220). -/
def execVsilu (p : PanelId) (u : List Upset) (s : State) : Result := float1 0x34 fsilu p u s
/-- VRELU (R220). -/
def execVrelu (p : PanelId) (u : List Upset) (s : State) : Result := float1 0x35 frelu p u s

/-- VLEAKY (R220): the immediate is the slope. -/
def execVleaky (p : PanelId) (u : List Upset) (s : State) : Result :=
  vectorStep 0x36 p u s fun d a _ _ _ alpha s =>
    let (x, s) := s.readSource p a d
    (ofFloats (x.map fun v => fleaky alpha (asFloat v)), s)

/-- R222, R237: the rows of a source: its inner dimension K is the row (log 26). -/
def rowsOf {α : Type} (k : Nat) (l : List α) : List (List α) :=
  if k = 0 then [] else (List.range (l.length / k)).map fun r => (l.drop (r * k)).take k

/-- VSUMR (R222). -/
def execVsumr (p : PanelId) (u : List Upset) (s : State) : Result :=
  vectorStep 0x38 p u s fun d a _ _ cls _ s =>
    let (x, s) := s.readSource p a d
    let k := (s.pat.tile a).e dimK
    (if cls = 0 then ofInts ((rowsOf k (x.map asInt)).map (reduceRow (fun v w => sat32 (v + w)) 0))
      else ofFloats ((rowsOf k (x.map asFloat)).map fsumr), s)

/-- VMAXR (R222). -/
def execVmaxr (p : PanelId) (u : List Upset) (s : State) : Result :=
  vectorStep 0x39 p u s fun d a _ _ cls _ s =>
    let (x, s) := s.readSource p a d
    let k := (s.pat.tile a).e dimK
    (if cls = 0 then ofInts ((rowsOf k (x.map asInt)).map (reduceRow max (-2147483648)))
      else ofFloats ((rowsOf k (x.map asFloat)).map fmaxr), s)

/-- VSMAX (R223). -/
def execVsmax (p : PanelId) (u : List Upset) (s : State) : Result :=
  vectorStep 0x3A p u s fun d a _ _ _ _ s =>
    let (x, s) := s.readSource p a d
    (ofFloats ((rowsOf ((s.pat.tile a).e dimK) (x.map asFloat)).flatMap fsoftmax), s)

/-- VNORM (R223): S2 holds γ then β, the immediate is ε. -/
def execVnorm (p : PanelId) (u : List Upset) (s : State) : Result :=
  vectorStep 0x3B p u s fun d a b _ _ eps s =>
    let (g, s) := s.readSource p b d
    let (x, s) := s.readSource p a d
    let k := (s.pat.tile a).e dimK
    let gs := g.map asFloat
    (ofFloats ((rowsOf k (x.map asFloat)).flatMap (fnormal eps (gs.take k) (gs.drop k))), s)

end Sys2Proof.Machine
end

