-- ==== Sys2Proof/Machine/Sentinel.lean ====
section
/-! DEFINITION. The sentinel: swaths, confidences, windows with their BASTE records, and watch (R186 to R192, R303 to
R306). -/

namespace Sys2Proof.Machine

/-! ### Evaluating patches (R186 to R190) -/

/-- R188: the macros of a group, in ascending order. -/
def Sntl.replicas (n : Sntl) (g : Nat) : List (Fin 8) := (List.finRange 8).filter fun m => n.groupOf.getD m.val 0xFF == g

/-- A macro as an array. -/
def macroArray (m : Fin 8) : ArrayId := ⟨m.val, by omega⟩

/-- R187: the 256 inputs of a patch from the 16 lines of its swath; pixels at or beyond the width read 0. -/
def patchInputs (d b : Nat) (lines : List (List Nat)) (p : Nat) : List Nat :=
  let x (i j : Nat) : Nat := (lines.getD i []).getD (64 * p + j) 0
  (List.range 256).map fun r =>
    let i := r / 32
    let j := r % 32
    (x (2 * i) (2 * j) + x (2 * i) (2 * j + 1) + x (2 * i + 1) (2 * j) + x (2 * i + 1) (2 * j + 1)) / 2 ^ (d + 2 - b)

/-- R171 to R179: one macro evaluates a patch's inputs. -/
def State.evalMacro (s : State) (m : Fin 8) (inputs : List Nat) : List Int × State :=
  let x := macroArray m
  let n := s.pat.sntl
  let (ys, a, free) := CimArray.evaluate s.sentinel.arrays[x] (s.timeDomain x) 64 1 n.wbits n.ibits false 0 (64 / max 1 n.wbits)
    s.free inputs
  (ys, { s.updArray x fun _ => a with free := free })

/-- R188: the features of patch p: every group's replica p mod r. -/
def State.features (s : State) (p : Nat) (inputs : List Nat) : List Int × State :=
  (List.range s.pat.sntl.groups).foldl (fun (ys, s) g =>
    let ms := s.pat.sntl.replicas g
    match ms[p % max 1 ms.length]? with
    | some m => let (y, s) := State.evalMacro s m inputs; (ys ++ y, s)
    | none => (ys, s)) (([] : List Int), s)

/-- R189: the confidence from the features. -/
def Sntl.confidence (n : Sntl) (ys : List Int) : Int :=
  let sum := n.bias + ((ys.zipIdx.map fun (y, f) => n.q.getD f 0 * max 0 (y + n.a.getD f 0)).sum)
  clampInt (-32768) 32767 (rne sum (2 ^ n.shift))

/-- R187 to R189: the confidences of the patches of a swath of a width. -/
def State.confidences (s : State) (width : Nat) (lines : List (List Nat)) : List Int × State :=
  (List.range (ceilDiv width 64)).foldl (fun (ls, s) p =>
    let (ys, s) := State.features s p (patchInputs s.pat.bits s.pat.sntl.ibits lines p)
    (ls ++ [s.pat.sntl.confidence ys], s)) (([] : List Int), s)

/-! ### Swaths (R186, R190, R191) -/

/-- R186: line i of swath k. -/
def swathLine (k i : Nat) : LineSeq := BitVec.ofNat 40 (16 * k + i)

/-- R160, R186, R446: the lines of swath k where all are in the bobbin and came while the sentinel screened. -/
def State.swathLines (s : State) (k : Nat) : Option (List BobLine) :=
  let ls := (List.range 16).filterMap fun i => s.bobDesc (swathLine k i)
  if ls.length = 16 ∧ ls.all (·.seen) then some ls else none

/-- R191: the next swath to screen, in sequence order; swaths with a line that did not come while the sentinel screened, or
is gone, are passed over. -/
def State.nextSwath (s : State) : Option (Nat × List BobLine) :=
  let whole := (s.intake.nextSeq.toNat / 16 + 2 ^ 36 - s.sentinel.nextSwath) % 2 ^ 36
  let depth := s.pat.bobbinDepth / 16 + 1
  let skip := whole - min whole depth
  (List.range depth).findSome? fun i =>
    if i < whole then
      let k := (s.sentinel.nextSwath + skip + i) % 2 ^ 36
      (s.swathLines k).map fun ls => (k, ls)
    else none

/-- R190: a swath that passes as an empty-line marker, and one of which no patch is basted. DESIGN CHOICE: a lost line counts
as missing, like a damaged one: the swath is screened with zeros in its place and bastes nothing (log 135). -/
def swathEmpty (ls : List BobLine) : Bool := ls.any (·.has lineEmpty)
def swathMuted (ls : List BobLine) : Bool :=
  ls.any fun l => l.has lineDamaged || l.has lineOversize || l.has lineOverRate || l.has lineRevisit || l.has lineLost

/-- R161, R191: the lines of a swath are screened. -/
def State.markScreened (s : State) (k : Nat) : State :=
  { s with bobbin := s.bobbin.map fun (x : Nat × BobLine) =>
    if x.2.seq.toNat / 16 == k then (x.1, { x.2 with flags := x.2.flags ||| 0x40#8 }) else x }

/-! ### Windows (R303 to R306) -/

/-- A basted patch on its way to a window. -/
structure Baste where
  patch : Nat := 0
  conf : Int := 0
  admitted : Bool := false
  ordinal : Nat := 0
  deriving DecidableEq, Repr, Inhabited

/-- R304: the tag of a window. -/
def State.windowTag (s : State) (k patch : Nat) : Tag :=
  BitVec.ofNat 64 (s.address.toNat + 2 ^ 16 * (patch % 256) + 2 ^ 24 * (k % 2 ^ 36))

/-- R305: a window placed by descending confidence, ties by lower patch. -/
def basteInsert (x : Baste) : List Baste → List Baste
  | [] => [x]
  | y :: ys => if y.conf < x.conf ∨ (y.conf = x.conf ∧ x.patch < y.patch) then x :: y :: ys else y :: basteInsert x ys

/-- R305: one window of reference line r is admitted or refused. -/
def State.admitOne (s : State) (r : LineSeq) (x : Baste) : Baste × State :=
  let near := s.look.admitted.countP fun q =>
    decide (0 ≤ seqDiff q r) && decide (seqDiff q r < s.pat.dlin.span)
  if near < s.pat.dlin.density then
    ({ x with admitted := true, ordinal := s.look.nextOrdinal },
      { s with look := { s.look with
        admitted := r :: s.look.admitted.filter fun q => decide (seqDiff q r < s.pat.dlin.span)
        nextOrdinal := s.look.nextOrdinal + 1 } })
  else (x, s)

/-- R305: the windows of a swath considered in order; the list comes back in ascending patch order. -/
def State.admitAll (s : State) (r : LineSeq) (l : List Baste) : List Baste × State :=
  let order := l.foldr basteInsert []
  let (done_, s) := order.foldl (fun (acc, s) x =>
    let (x, s) := State.admitOne s r x
    (x :: acc, s)) (([] : List Baste), s)
  (l.map fun x => (done_.find? (·.patch == x.patch)).getD x, s)

/-- R306, R326: the BASTE record of a window; for a refused one its UNEXAMINED follows directly. An admitted window takes its
ledger entry (R419). -/
def State.formWindow (s : State) (k : Nat) (r : LineSeq) (pe : Pos) (x : Baste) : State :=
  let tag := s.windowTag k x.patch
  let s := s.submit (s.mkRecord 1 0 (bit (!x.admitted)) (unsigned 16 x.conf)
    (bodyAt 0x10 48 pe.toNat ||| bodyAt 0x18 64 tag.toNat))
  if x.admitted then
    let w : Window :=
      { tag := tag, ordinal := x.ordinal, refLine := r, pe := pe, patch := x.patch,
        st := if s.pat.hist.isSome then .waiting else .ready,
        degraded := s.power.degraded || s.power.degradePending, grace := s.graceAt pe }
    let s := s.bump 1 1
    let ledger := s.look.ledger ++ [w]
    { s with look := { s.look with ledger := ledger, highWater := max s.look.highWater ledger.length } }
  else
    let s := { s with look := { s.look with refused := satAdd 32 s.look.refused 1 } }
    s.closingRecord 4 1 0 0 pe tag

/-- R303 to R306, R310, R460: the windows of swath k. While a degraded switch is pending their groups wait. During a flush none
forms (R487). -/
def State.formWindows (s : State) (k : Nat) (ls : List BobLine) (confs : List Int) : State :=
  let basted := (confs.zipIdx.filter fun (l, _) => decide (s.sentinel.threshold ≤ l)).map fun (l, p) =>
    ({ patch := p, conf := l } : Baste)
  if basted.isEmpty || s.hold.st == .flushing then s
  else
    let r := swathLine k 0
    let pe := (ls.getD 8 {}).stamp
    let (ws, s) := s.admitAll r basted
    let s := ws.foldl (fun s x => s.formWindow k r pe x) s
    s.wakeGroups

/-- R90, R182: a sweep counts for the fresh trims on a cold start, when its swath lies in the calibration window. -/
def State.sweepCounts (s : State) (k : Nat) : Bool :=
  !s.adm.warm && s.tables.windowOpen && decide (16 * k + 15 < s.pat.window)

/-- R182: the sweep slot of every macro. -/
def State.swathSweep (s : State) (k : Nat) : State :=
  let w := s.sweepCounts k
  (List.finRange 8).foldl (fun s m => s.sweepArray (macroArray m) 1 w) s

/-- R187 to R191: the confidences of a swath; an empty one (R306) has none. -/
def State.screenSwath (s : State) (ls : List BobLine) : List Int × State :=
  if swathEmpty ls then ([], s)
  else s.confidences s.pat.width (ls.map fun l => if l.has lineLost then [] else l.pixels)

/-- R186: the next swath is the one after k. -/
def State.passSwath (s : State) (k : Nat) : State :=
  { s with sentinel := { s.sentinel with nextSwath := (k + 1) % 2 ^ 36 } }

/-- SWATH_SCREENED (R186 to R191, R303 to R306): the next swath is screened. -/
def execSwathScreened (s : State) : Result :=
  match s.nextSwath with
  | some (k, ls) =>
    when s.sentinelScreens s fun s =>
      let (confs, s) := s.screenSwath ls
      let s := ((s.swathSweep k).markScreened k).passSwath k
      (if swathMuted ls then s else s.formWindows k ls confs).settle
  | none => .next s

/-! ### Watch (R192) -/

/-- R192, R445: the watch port: the lowest-lettered port that VOTE declares. -/
def State.watchPort (s : State) : Option CsiId :=
  ([0, 1, 2, 3] : List CsiId).find? fun c => s.pat.votes.any (·.id == domIntake c.val)

/-- R192: the sentinel is in watch, and the watch port takes lines. -/
def State.watching (s : State) : Bool :=
  s.running && s.inWatch &&
    (s.watchPort.map fun c => s.dom (domIntake c.val) == .retention || s.isOn (domIntake c.val)).getD false

/-- R192: the watch line: the port's pixels corrected and placed in the assembled line, then every f-th pixel (log 40). -/
def State.watchLine (s : State) (c : CsiId) (pixels : List Nat) : List Nat :=
  let f := s.pat.sntl.watch
  let px := linePixels s.pat s.intake.coef s.intake.badWords (([none, none, none, none] : List (Option Part)).set c.val
    (some { pixels := pixels }))
  (List.range (s.pat.width / max 1 f)).map fun i => px.getD (i * f) 0

/-- R445, R449: the sentinel-watch wake, with the macro of the patch. -/
def State.watchWake (s : State) (m : Nat) : State :=
  let s := s.raiseWake 0x13 m [domControl]
  let s := if s.power.web == .rest || s.power.web == .deep then s.restore 0x13 else s
  { s with web := { s.web with stopSince := s.time.wall } }

/-- R192: the macro that the wake names. DESIGN CHOICE: the replica of group 0 that evaluates the first patch at or above the
threshold (log 136). -/
def State.wakeMacro (s : State) (patch : Nat) : Nat :=
  let ms := s.pat.sntl.replicas 0
  (ms.getD (patch % max 1 ms.length) 0).val

/-- R192, R417: the first complete line after a tick is corrected and screened, repeated to 16 lines. -/
def State.screenWatch (s : State) (c : CsiId) (pixels : List Nat) : State :=
  let s := s.checkFlat s.intake.coefBank
  let line := s.watchLine c pixels
  let (confs, s) := s.confidences line.length (List.replicate 16 line)
  match confs.findIdx? fun l => decide (s.sentinel.threshold ≤ l) with
  | some p => s.watchWake (s.wakeMacro p)
  | none => s

/-- WATCH_TICK (R192): a tick of the wall timebase every 10 ms; an empty line takes it without a confidence, as R190 has it. -/
def execWatchTick (pixels : List Nat) (s : State) : Result :=
  match s.watchPort with
  | some c =>
    when (s.watching && decide (s.sentinel.watchTick < s.time.wall / (10 * msPs))) s fun s =>
      let s := { s with sentinel := { s.sentinel with watchTick := s.time.wall / (10 * msPs) } }
      (if pixels.isEmpty then s else s.screenWatch c pixels).settle
  | none => .next s

end Sys2Proof.Machine
end

