-- ==== Sys2Proof/Machine/Power.lean ====
section
/-! DEFINITION. Power domains, the web client's delays, the regulator, VID, the voltage loop, temperature, the degraded switch,
XT32 and the reload of HBM (R165, R182, R198, R263, R265, R272, R440 to R463). -/

namespace Sys2Proof.Machine

/-! ### Votes of intake (R263) -/

/-- R263: the commons pairs that hold flat-field or halo lines. -/
def State.intakePairs (s : State) : List Nat := (List.range (ceilDiv s.viewStart 256)).map domCommons

/-- R444: intake holds those pairs on while any intake port is on or leaves on. -/
def State.intakeVotes (s : State) : State :=
  if (List.range 4).any fun i => (s.dom (domIntake i)).active && s.dom (domIntake i) != .waking true &&
      s.dom (domIntake i) != .waking false then
    s.addVotes .intake s.intakePairs false
  else s.dropVotes .intake s.intakePairs false

/-! ### Entering a low state (R443, R447) -/

/-- R443: whether a domain that leaves on goes to retention. -/
def State.retains (s : State) (id : Nat) : Bool :=
  (s.voteEntry id).low == 1 || s.power.votes.any fun v => v.domain == id && v.retain

/-- R453: the control sequencer leaves on. -/
def State.leaveControl (s : State) : State :=
  { s with wake := { s.wake with leftOn := s.time.wall, coarse := !s.time.xt32 } }

/-- R377, R447: the entry steps begin; a link that is up first asks its partner with SLEEP. -/
def State.beginEntry (s : State) (id : Nat) : State :=
  let enter (s : State) : State :=
    s.updDom id fun d => { d with st := .entering (s.retains id) false, since := s.clock }
  match seamOf id with
  | some q =>
    let p := s.seams[q]
    if p.link == .up then
      if p.stayed || p.sleep != .none then s
      else
        let t := s.seamTarget q
        s.updSeam q fun p => { p with sleep := .requested t, control := p.control ++ [(1, t)] }
    else enter s
  | none => if id == domControl then (enter s).leaveControl else enter s

/-- HYSTERESIS_EXPIRY (R443): a domain has held no on-vote for its hysteresis. -/
def execHysteresisExpiry (domain : Nat) (s : State) : Result :=
  when (s.isOn domain && !s.votedOn domain &&
      hystPassed (s.voteEntry domain).hyst (((s.power.domains.find? (·.id == domain)).map (·.unvoted)).getD 0)
        s.time.wall) s fun s => (s.beginEntry domain).intakeVotes.settle

/-! ### What a low state loses (R165, R198, R263, R265, R272, R440) -/

/-- R198: a panel in retention keeps the scratch banks of its mask; in off it keeps none. -/
def Panel.lose (x : Panel) (mask : Nat) : Panel :=
  let kept (a : Nat) : Bool := decide (a / 65536 < 16) && bitAt mask (a / 65536)
  { saturated := x.saturated, encoded := x.encoded
    scratch := x.scratch.filter fun c => kept c.1
    badParity := x.badParity.filter kept }

/-- R265: a panel counts as on until it has reached its low state, since its entry may still be abandoned (log 119). -/
def DomState.stillOn : DomState → Bool
  | .on => true
  | .entering _ _ => true
  | _ => false

/-- R265: the pinned state and every fill are discarded when no panel is on. -/
def State.dropPins (s : State) : State :=
  if (List.range 16).any fun n => (s.dom (domPanel n)).stillOn then s
  else { s with commons := { s.commons with pins := [], trees := [] } }

/-- R322, R399: the history starts again from the initial image. -/
def State.restartHistory (s : State) : State :=
  { s with history := { s.history with segs := [], readyPos := s.position, restart := s.position } }

/-- R263, R273: the halo entry at position i of a side's ring has a byte in commons pair j. -/
def State.entryIn (s : State) (side : Fin 2) (i j : Nat) : Bool :=
  let st := haloStride (s.haloWidth side) s.pat.bits
  let a := 4096 * s.haloStart side + i * st
  decide (a < (j + 1) * 2 ^ 20 ∧ j * 2 ^ 20 < a + st)

/-- R263, R440: a commons pair goes off and its lines are lost; those of the history area restart the history. -/
def State.losePair (s : State) (j : Nat) : State :=
  let a := j * 2 ^ 20
  let s := { s with
    commons := { s.commons with
      mem := Memory.clear s.commons.mem a (2 ^ 20)
      badParity := s.commons.badParity.filter fun b => decide (b < a) || decide (a + 2 ^ 20 ≤ b) }
    bolt := { s.bolt with halo := Vector.upd (Vector.upd s.bolt.halo 0 fun h =>
        { h with ring := h.ring.filter fun x => !s.entryIn 0 x.1 j }) 1 fun h =>
        { h with ring := h.ring.filter fun x => !s.entryIn 1 x.1 j } } }
  if s.pat.hist.isSome && decide (2048 - s.pat.historyLines < 256 * (j + 1)) && decide (0 < s.pat.historyLines) then
    s.restartHistory
  else s

/-- R165: a bobbin group goes off: every line partly in it is lost. -/
def State.loseGroup (s : State) (j : Nat) : State :=
  { s with bobbin := s.bobbin.map fun (x : Nat × BobLine) =>
    if (s.pat.lineGroups x.1).contains j then (x.1, { x.2 with flags := x.2.flags ||| 0x80#8 }) else x }

/-- R272, R480: HBM goes off: its contents and the staged fields are lost. -/
def State.loseHbm (s : State) : State :=
  { s with
    hbm := { s.hbm with mem := [], errors := [], repairs := [], lost := true }
    flash := { s.flash with staged := [] } }

/-- R440: the event domain goes off: the queue, the tickets and the ledger are lost; which ticket comes next is a free value
(log 52). -/
def State.loseEvents (s : State) : State :=
  let (n, s) := s.takeFree
  { s with
    events := { s.events with queue := [], returned := none, nextTicket := Config.freeTicket n }
    look := { s.look with ledger := [] } }

/-- R470: the token increments on their way to a sequencer arrive before its clock stops. -/
def Sequencer.drainTokens (x : Sequencer) : Sequencer := (List.range x.flying.length).foldl (fun x _ => x.arrive) x

/-- R147, R470: with the last intake port off or retained, no part can come for the lines in assembly: they close
incomplete, and the ports wait for the realignment that a wake brings (log 138). -/
def State.drainIntake (s : State) : State :=
  if (List.range 4).any fun i => s.isOn (domIntake i) then s else s.closeLines fun _ => true

/-- R440, R449, R453, R470: what a domain loses as it reaches its low state, and what its queues deliver before. The mask of a
WAITE that waits stays with the wake matcher. -/
def State.loseDomain (s : State) (id : Nat) (retained : Bool) : State :=
  if id = domControl then
    if retained then s.updControl Sequencer.drainTokens
    else { s with control := { s.control with seq := {}, onPll := false, wantPll := false } }
  else if id = domEvent then
    let s := { s with power := { s.power with regSince := s.clock } }
    if retained then s else s.loseEvents
  else if id = domHbm then if retained then s else s.loseHbm
  else if 0x10 ≤ id ∧ id ≤ 0x13 then s.drainIntake
  else if 0x20 ≤ id ∧ id ≤ 0x2B then if retained then s else s.loseGroup (id - 0x20)
  else if 0x40 ≤ id ∧ id ≤ 0x47 then if retained then s else s.losePair (id - 0x40)
  else if h : 0x30 ≤ id ∧ id ≤ 0x3F then
    let mask := if retained then (s.voteEntry id).mask else 0
    (s.updPanel ⟨id - 0x30, by omega⟩ fun x => x.lose mask).dropPins
  else match seamOf id with
    | some q =>
      let low (p : Seam) : Seam :=
        if retained then { p.enter .standby s.clock with sleep := .none }
        else { p.enter .off s.clock with sleep := .none, inverted := 0, reversed := false, rho := none }
      s.updSeam q low
    | none => s

/-- LOW_STATE_ENTRY_COMPLETE (R443, R447, R448): the domain has reached its low state, off when its last retain-vote went
during the entry; a vote that came after step 4 began wakes it from there. An entry of a link that is up ends with
ELECTRICAL_IDLE_ENTRY; a failed link's waits until the device has taken every message delivered (R470, log 138). -/
def execLowStateEntryComplete (domain : Nat) (s : State) : Result :=
  match s.dom domain with
  | .entering retained _ =>
    when (((seamOf domain).map fun q => s.seams[q].link != .up && s.seams[q].inbox.isEmpty).getD true) s fun s =>
      let kept := retained && !s.retainedNoMore domain
      let s := s.updDom domain fun d => { d with st := if kept then .retention else .off, since := s.clock }
      let s := (s.loseDomain domain kept).intakeVotes
      (if s.votedOn domain then s.wakeDomain domain else s).settle
  | _ => .next s

/-! ### Reaching on (R182, R225, R446, R449 to R452) -/

/-- R451: what a waking domain must wait for: the PLL and VID, and for the event domain the regulator. -/
def State.mayTurnOn (s : State) (id : Nat) : Bool :=
  (!pllDomain id || (s.power.locked && !s.power.clockPending)) && (id != domEvent || s.power.regulator == .normal)

/-- R182: the lattices of a waking panel are swept, 16 repetitions of each vector. -/
def State.sweepPanel (s : State) (p : PanelId) : State :=
  let lat (i : Fin 2) : ArrayId := ⟨8 + 2 * p.val + i.val, by omega⟩
  let open_ := s.tables.windowOpen && !s.adm.warm
  (s.sweepArray (lat 0) 16 open_).sweepArray (lat 1) 16 open_

/-- R225, R310: a panel that is on starts at instruction 0; those of serving groups wait for their span. -/
def State.startPanel (s : State) (p : PanelId) : State :=
  let s := s.sweepPanel p
  if (s.pat.entryOf p.val).count = 0 || s.servingGroups.contains (s.pat.groupOf p.val) then s
  else s.updPanel p (Panel.restart s.clock)

/-- R251, R452: the control sequencer is on: from off it starts at its wake entry point, from retention it goes on. -/
def State.wakeControl (s : State) (retained : Bool) : State :=
  if retained then s.continueControl
  else
    let s := { s with control := { s.control with waiting := none } }
    (match s.entryPoint 1 with
    | some pc => s.startControl pc
    | none => s).startPending

/-- R272: HBM leaves off: the reload runs, with the flash controller and HBM held on for it. -/
def State.beginReload (s : State) : State :=
  let s := { s with hbm := { s.hbm with reloadFrom := s.clock } }
  s.addVotes .reload [domFlash, domHbm] false

/-- What a domain does as it reaches on. -/
def State.reachOn (s : State) (id : Nat) (retained : Bool) : State :=
  let s := s.updDom id fun d => { d with st := .on, since := s.clock }
  let s :=
    if !s.running then s
    else if id = domControl then s.wakeControl retained
    else if 0x10 ≤ id ∧ id ≤ 0x13 then s.realign
    else if h : 0x30 ≤ id ∧ id ≤ 0x3F then s.startPanel ⟨id - 0x30, by omega⟩
    else s
  match seamOf id with
  | some q =>
    let train (p : Seam) : Seam :=
      if retained && s.power.seamclk then { p.enter .lock s.clock with quick := true, leftDetect := some s.clock }
      else p.enter .detect s.clock
    s.updSeam q train
  | none => s

/-- DOMAIN_ON (R450, R451): a voted-on domain reaches on; with it the votes of the wake matchers end (log 49). HBM that has
lost its contents only begins its reload, and is on at the end of it (R272). -/
def execDomainOn (domain : Nat) (s : State) : Result :=
  match s.dom domain with
  | .waking retained =>
    when (s.mayTurnOn domain) s fun s =>
      if domain = domHbm ∧ s.hbm.lost then
        if s.power.votes.any fun v => v.client == .reload then s else s.beginReload.settle
      else
        (s.reachOn domain retained).intakeVotes.settle
  | _ => .next s

/-- R272, R285, R288: the slot's regions written to HBM again, coded with the tables kept; the history restarts. -/
def State.reloaded (s : State) : State :=
  let ms := (s.clock - s.hbm.reloadFrom) / msPs
  let s := (s.loadHbm (s.adm.slot.getD 0)).restartHistory
  let s := { s with hbm := { s.hbm with lost := false } }
  let s := s.updDom domHbm fun d => { d with st := .on, since := s.clock }
  let s := s.status 0x1C 0 (bodyAt 0x10 32 ms)
  s.dropVotes .reload [domFlash, domHbm] false

/-- HBM_RELOAD_COMPLETE (R272, R288): a CRC mismatch acts as RST_N with cause 0x05; after a flash error the reload starts
again (log 50). -/
def execHbmReloadComplete (flashError : Bool) (s : State) : Result :=
  when (s.running && s.hbm.lost && s.isOn domFlash && !s.adm.flashWaiting &&
      s.power.votes.any fun v => v.client == .reload) s fun s =>
    if flashError then s
    else if s.loadOk (s.adm.slot.getD 0) then s.reloaded.settle
    else s.resetOutside 0x05 0

/-- The number of 256-bit words of HBM, and of the 256-byte bursts that cover it (R269 to R271). -/
def hbmWords : Nat := 2 ^ 29
def hbmBursts : Nat := 2 ^ 26

/-- R270: a word patrolled; one whose error was corrected is rewritten, an uncorrectable one is handled as R424 has it. -/
def State.scrubWord (s : State) (word : Nat) : State :=
  let (b, corrected, bad, s) := s.readHbmWord word
  if corrected then
    let s := s.writeHbm (32 * word) b
    { s with hbm := { s.hbm with corrected := satAdd 32 s.hbm.corrected 1 } }
  else if bad && (s.hbm.repairs.find? (·.1 == word)).isNone then (s.detectHbm word).2
  else s

/-- A block joins a list of ascending ranges [a, b) that are apart from each other. -/
def joinBlock (k : Nat) : List (Nat × Nat) → List (Nat × Nat)
  | [] => [(k, k + 1)]
  | (a, b) :: l =>
    if k + 1 < a then (k, k + 1) :: (a, b) :: l
    else if k + 1 = a then (k, b) :: l
    else if k < b then (a, b) :: l
    else if k = b then
      match l with
      | (c, d) :: l' => if c = k + 1 then (a, d) :: l' else (a, k + 1) :: (c, d) :: l'
      | [] => [(a, k + 1)]
    else (a, b) :: joinBlock k l

/-- R270: a block of 256 bytes patrolled; the pass is complete once every block has been. -/
def State.scrub (s : State) (block : Nat) : State :=
  let s := (List.range 8).foldl (fun s i => s.scrubWord (8 * block + i)) s
  let done := joinBlock block s.hbm.patrol
  if done = [(0, hbmBursts)] then
    { s with hbm := { s.hbm with patrol := [], scrubs := satAdd 32 s.hbm.scrubs 1 } }
  else { s with hbm := { s.hbm with patrol := done } }

/-- HOUSEKEEPING_BURST (R270): the patrol takes the 256 bytes that hold a word while a panel's stream engine is idle; which it
takes is the device's own (log 55). -/
def execHousekeepingBurst (word : Nat) (u : List Upset) (s : State) : Result :=
  when (s.running && s.isOn domHbm && decide (word < hbmWords) &&
      s.panels.toList.any fun x => x.seq.outst.all (·.unit != .stream)) s fun s => ((s.upsets 0 u).scrub (word / 8)).settle

/-! ### The web client (R445, R449) -/

/-- R445: BOLT declares an entry that takes position from TICK. -/
def Pattern.tickFedEntry (p : Pattern) : Bool := p.bolt.any (·.posFrom == 1)

/-- R445: the domains that the web client asks to retain in rest. -/
def State.restRetain (s : State) : List Nat :=
  domHbm :: (if s.pat.sntl.watch = 0 then []
    else domSentinel :: (s.watchPort.map fun c => [domIntake c.val]).getD [])

/-- R445: the run votes that the web client withdraws in rest; declared seam ports stay where an entry is fed by TICK. -/
def State.restDrop (s : State) : List Nat :=
  s.runSet.filter fun id => !(s.pat.tickFedEntry && (seamOf id).isSome)

/-- REST_DELAY_EXPIRY (R445): the web has been stopped for the rest delay. -/
def execRestDelayExpiry (s : State) : Result :=
  when (s.running && s.web.stopped && s.power.web == .run && s.pat.restMs != 0 &&
      decide (s.web.stopSince + s.pat.restMs * msPs ≤ s.time.wall)) s fun s =>
    let s := s.addVotes .web s.restRetain true
    let s := s.dropVotes .web s.restDrop false
    let s := { s with power := { s.power with web := .rest, restFrom := s.time.wall } }
    (s.statusPos 0x11 0).settle

/-- DEEP_REST_DELAY_EXPIRY (R445). -/
def execDeepRestDelayExpiry (s : State) : Result :=
  when (s.running && s.power.web == .rest && s.pat.deepS != 0 &&
      decide (s.power.restFrom + s.pat.deepS * 1000 * msPs ≤ s.time.wall)) s fun s =>
    let s := s.dropVote .web domHbm true
    let s := { s with power := { s.power with web := .deep } }
    (s.statusPos 0x12 0).settle

/-- TIMEBASE_ALARM (R449, R453): the web client's delays need no domain, the periodic commits the flash controller and HBM
(log 51). -/
def execTimebaseAlarm (owner : Fin 2) (s : State) : Result :=
  when s.running s fun s =>
    (s.raiseWake 0x14 (owner.val + 1) (if owner = 0 then [] else [domFlash, domHbm])).settle

/-! ### The regulator and VID (R457, R458, R462) -/

/-- REGULATOR_NORMAL_MODE (R462): 40 µs after the request. -/
def execRegulatorNormalMode (s : State) : Result :=
  when (s.power.regulator == .rising && decide (s.power.regSince + 40 * usPs ≤ s.clock)) s fun s =>
    { s with power := { s.power with regulator := .normal } }

/-- REGULATOR_LOW_POWER (R462): the event domain has been off or retained for 1 ms. -/
def execRegulatorLowPower (s : State) : Result :=
  when (s.power.regulator == .normal && (s.dom domEvent == .off || s.dom domEvent == .retention) &&
      decide (s.power.regSince + msPs ≤ s.clock)) s fun s =>
    { s with power := { s.power with regulator := .low } }

/-- VID_STEP (R457): one code toward the goal, at most one per µs. -/
def execVidStep (s : State) : Result :=
  when (s.adm.dev != .inReset && s.pins.vid != s.power.vidTarget && decide (s.power.vidSince + usPs ≤ s.clock)) s fun s =>
    { s with
      pins := { s.pins with vid := if s.pins.vid < s.power.vidTarget then s.pins.vid + 1 else s.pins.vid - 1 }
      power := { s.power with vidSince := s.clock } }

/-- VID_SETTLED (R457, R466): 10 µs after the last step the core clock rises to the level in force, and a control sequencer
that waits for it moves to it. -/
def execVidSettled (s : State) : Result :=
  when (s.power.locked && s.power.clockPending && s.pins.vid == s.power.vidTarget &&
      decide (s.power.vidSince + 10 * usPs ≤ s.clock)) s fun s =>
    { s with power := { s.power with clockPending := false, coreMhz := s.clockGoal } }.joinPll.settle

/-- AVS_SAMPLE (R458): a reading of the critical-path monitors every 10 µs while the PLL runs, from READY on. -/
def execAvsSample (m : Margin) (s : State) : Result :=
  when (s.running && s.power.locked) s fun s =>
    let p := s.power
    let s := match m with
      | .above =>
        if 100 ≤ p.avsAbove + 1 then
          { s with power := { p with trim := min 4 (p.trim + 1), avsAbove := 0, avsBelow := 0 } }
        else { s with power := { p with avsAbove := p.avsAbove + 1, avsBelow := 0 } }
      | .between => { s with power := { p with avsAbove := 0, avsBelow := 0 } }
      | .below =>
        if 0 < p.trim then { s with power := { p with trim := p.trim - 1, avsAbove := 0, avsBelow := 0 } }
        else
          let n := p.avsBelow + 1
          let s := { s with power := { p with avsAbove := 0, avsBelow := n } }
          if 10 ≤ n ∧ !p.avsNoted then
            { s with power := { s.power with avsNoted := true } }.statusPos 0x19 (levelVid p.level)
          else s
    s.settle

/-! ### Temperature and the degraded switch (R459 to R461) -/

/-- R453, R461: the stopped state: 1 trip, 2 no degraded schedule. Every vote but the event domain's is withdrawn (log 53). -/
def State.thermalStop (s : State) (why : Nat) : State :=
  let s := (s.bump 17 1).statusPos 0x18 why
  let s := s.assertFault
  let s := if s.sinceReady then s.discardFires else { s with markers := { s.markers with inhibited := true } }
  let s := { s with
    pins := { s.pins with thermtrip := true }
    adm := { s.adm with dev := .stopped }
    wake := { s.wake with cause := 0x06, detail := why } }
  let gone := s.power.votes.filter fun v => v.domain != domEvent
  let s := gone.foldl (fun s v => s.dropVote v.client v.domain v.retain) s
  (s.addVote .admission domEvent false).settle

/-- R459, R460: the degraded switch begins. -/
def State.startSwitch (s : State) : State :=
  let s := { s with power := { s.power with degradePending := true } }
  s.statusPos 0x16 (unsigned 16 s.power.junction)

/-- R459: the 100 °C cause of RATE_RISK comes and goes, in every state but reset; its records form from READY on (R73). -/
def State.thermalRisk (s : State) (t : Int) : State :=
  let hot := if 1600 ≤ t then s.power.hot100 + 1 else 0
  let cool := if t < 1520 then some (s.power.coolSince.getD s.clock) else none
  let s := { s with power := { s.power with hot100 := hot, coolSince := cool } }
  if 2 ≤ hot ∧ !s.pins.riskThermal then
    { s with pins := { s.pins with riskThermal := true } }.statusPos 0x14 (unsigned 16 t)
  else if s.pins.riskThermal && (cool.map fun c => decide (c + 10 * msPs ≤ s.clock)).getD false then
    { s with pins := { s.pins with riskThermal := false } }.statusPos 0x15 (unsigned 16 t)
  else s

/-- R459, R486: a reading of the junction: counter 19 holds the highest, 64 bits signed. Step 11 takes the readings from before
it into the stored value. -/
def State.notePeak (s : State) (t : Int) : State :=
  { s with
    power := { s.power with junction := t, peak := some (max t (s.power.peak.getD t)) }
    flash := { s.flash with counters := s.flash.counters.modify 19 fun c => unsigned 64 (max t (signed 64 c)) } }

/-- R50, R459, R460: what the second sample at or above 105 °C calls for while a pattern runs. -/
def State.overheat (s : State) : State :=
  if !s.running || s.power.hot105 < 2 || s.power.degradePending || s.power.degraded then s
  else if s.pat.hasDegraded then s.startSwitch
  else s.thermalStop 2

/-- TEMPERATURE_SAMPLE (R50, R459, R461, R486): a reading in any state but reset. The 100 °C cause and the trip act in each
of them, the degraded switch while a pattern runs; a stopped device does not stop again (log 73). -/
def execTemperatureSample (t : Int) (s : State) : Result :=
  when (s.adm.dev != .inReset) s fun s =>
    let s := (s.notePeak t).thermalRisk t
    let s := { s with power := { s.power with hot105 := if 1680 ≤ t then s.power.hot105 + 1 else 0 } }
    if s.adm.dev == .stopped then s.settle
    else if 1840 ≤ t then s.thermalStop 1
    else s.overheat.settle

/-- R460: the normal schedule's groups end their spans; a group that has only been voted on gives its votes back. -/
def State.endNormalSpans (s : State) : State :=
  (s.pat.groupNumbers.filter (s.pat.serves false)).foldl (fun s g =>
    if (s.group g).inSpan then (if (s.group g).ending then s.finishSpan g else s.endSpan g)
    else if (s.group g).starting then
      let s := s.updGroup g fun x => { x with starting := false }
      s.dropVotes (.group g) ((s.pat.groupPanels g).map fun n => domPanel n.val) false
    else s) s

/-- R460: a panel has nothing outstanding: every instruction that it issued has completed by the present cycle. -/
def State.panelDone (s : State) (p : PanelId) : Bool :=
  let now := s.own p s.cycleNow
  s.panels[p].seq.outst.all fun o => decide (o.done ≤ now) && !o.openTree

/-- R460: every panel is between SLOT spans with nothing outstanding, and the normal schedule's sequencers have stopped. -/
def State.panelsQuiet (s : State) : Bool :=
  (List.finRange 16).all (fun p => s.panels[p].span.isNone && s.panelDone p) &&
    (s.pat.groupNumbers.filter (s.pat.serves false)).all fun g => !(s.group g).inSpan

/-- R457, R460: the degraded level and schedule come into force. -/
def State.degrade (s : State) : State :=
  let l := s.pat.voteDegraded
  let s := { s with power := { s.power with
    degraded := true, degradePending := false, level := l
    trim := if l = s.power.level then s.power.trim else 0
    avsNoted := s.power.avsNoted && l == s.power.level
    coreMhz := min s.power.coreMhz (levelMhz l) } }
  let s := (s.statusPos 0x17 l).raiseEntry 6
  let s := (s.servingGroups.filter s.onDuty).foldl State.startSpan s
  s.wakeGroups

/-- DEGRADED_SWITCH_COMPLETE (R460): with every window of the normal schedule closed its spans end; with the panels quiet the
switch completes. With the PLL stopped both are taken as met. -/
def execDegradedSwitchComplete (s : State) : Result :=
  when (s.running && s.power.degradePending && (!s.power.pll || s.look.ledger.all (·.degraded))) s fun s =>
    let s := s.endNormalSpans
    (if !s.power.pll || s.panelsQuiet then s.degrade else s).settle

/-! ### XT32 (R463) -/

/-- XT32_FAIL (R463): the timebase goes on on the RC oscillator; a sleep that it meets is coarse. The cycles that verify XT32
count anew. -/
def execXt32Fail (s : State) : Result :=
  let s := { s with time := { s.time with xtFrom := s.clock } }
  when s.time.xt32 s fun s =>
    let was := s.time.verified
    let s := { s with
      time := { s.time with xt32 := false, verified := false }
      wake := { s.wake with coarse := s.wake.coarse || !s.isOn domControl } }
    (if was then s.statusPos 0x1A 0 else s).settle

/-- R463: the time that 32,768 cycles of XT32 take, in ps. -/
def xt32Ps : Nat := 10 ^ 12

/-- XT32_VERIFIED (R463): after 32,768 cycles without a failure timestamps are fine from here on. -/
def execXt32Verified (s : State) : Result :=
  when (!s.time.verified && decide (s.time.xtFrom + xt32Ps ≤ s.clock)) s fun s =>
    ({ s with time := { s.time with xt32 := true, verified := true } }.statusPos 0x1B 0).settle

end Sys2Proof.Machine
end

