-- ==== Sys2Proof/Machine/Tables.lean ====
section
/-! DEFINITION. The end of the calibration window, and the freezing, building and checking of the tables (R90, R157,
R182, R183, R295, R302). -/

namespace Sys2Proof.Machine

/-! ### Tables (R295, R302) -/

/-- R295, R444: the domains held on while tables are built: those that the housekeeping client names (log 44). -/
def buildDomains : List Nat := [domFlash, domHbm]

/-- TABLE_FREEZE (R295): the position has reached P_f: counting closes and the build begins. -/
def execTableFreeze (s : State) : Result :=
  when (s.running && s.tables.counting && (s.tables.pf.map fun p => reached s.position p).getD false) s fun s =>
    (({ s with tables := { s.tables with counting := false, building := true } }).addVotes .build buildDomains
      false).settle

/-- R283, R295: a built table at the end of the build: frozen, or kept default when its counts sum below 4,096. -/
def CodeTable.freeze (c : CodeTable) : CodeTable :=
  if c.shipped || c.fmt == fmtFP16 || c.fmt == fmtBF16 then c
  else if c.counts.sum < 4096 then { c with frozen := true, keptDefault := true }
  else
    let lens := buildLens true c.counts
    { c with lens := lens, frozen := true, crc := lensCrc lens }

/-- TABLE_BUILD_COMPLETE (R295): every built table is frozen, and the votes held for the build are withdrawn. -/
def execTableBuildComplete (s : State) : Result :=
  when (s.running && s.tables.building) s fun s =>
    let st := s.tables.store.map CodeTable.freeze
    (({ s with tables := { s.tables with
      store := st, building := false, keptDefaults := st.countP CodeTable.keptDefault } }).dropVotes .build buildDomains
      false).settle

/-- R302: a table whose CRC is kept: it was loaded or built. -/
def CodeTable.made (c : CodeTable) : Bool := c.shipped || (c.frozen && !c.keptDefault)

/-- R302: an upset changes the stored bits of a table; what lengths it then holds is free (log 14). -/
def State.damageTable (s : State) (tid : Nat) : State :=
  let (n, s) := s.takeFree
  { s with tables := { s.tables with store := updFirst (fun c : CodeTable => c.tid == tid && c.made) (fun c =>
    { c with lens := Config.damagedLens n, damaged := true }) s.tables.store } }

/-- TABLE_CRC_CHECK (R302, R418): every table is checked; one whose bits have changed forms its FAULT record and asserts
FAULT_N (log 45). -/
def execTableCrcCheck (damaged : List Nat) (s : State) : Result :=
  when s.running s fun s =>
    let s := damaged.foldl State.damageTable s
    let bad := s.tables.store.filter fun c => c.made && (c.damaged || lensCrc c.lens != c.crc)
    (bad.foldl (fun s c => (State.detect s 5 0 c.tid c.tid).2.assertFault) s).settle

/-! ### The end of the calibration window (R90, R157, R182, R183) -/

/-- R182: the fresh trims of an array: the average of its sweeps in the window, or its provisional trims. -/
def CimArray.freshTrims (a : CimArray) : List Trim :=
  if a.sweepCount = 0 then a.trims
  else a.sweepSum.map fun (g, f) => { g := (rne g a.sweepCount).toNat, f := rne f a.sweepCount }

/-- R90, R183: an array switches to its fresh trims, and its tracker starts at zero. -/
def CimArray.switchTrims (a : CimArray) : CimArray :=
  { a with trims := a.freshTrims, dO := 0, dG := 0, block := {}, full := [], reported := false }

/-- R157, R480: flat-field values that the control program staged become the coefficients at the switch (log 46). -/
def State.adoptStaged (s : State) : State :=
  let c := s.intake.coef
  let staged (id : Nat) : Option (List Byte) := (s.flash.staged.find? (·.1 == id)).map (·.2)
  let g := (staged 1).map fun b => (List.range c.g.length).map fun i => uAt b (2 * i) 2
  let o := (staged 2).map fun b => (List.range c.o.length).map fun i => sAt b (2 * i) 2
  if g.isNone && o.isNone then s
  else s.changeCoefs { g := g, o := o }

/-- R90: the window's last line has come, and no swath of it can still be screened. -/
def State.windowOver (s : State) : Bool :=
  decide (s.pat.window ≤ s.intake.gapNext.toNat) &&
    (match s.nextSwath with
    | some (k, _) => decide (s.pat.window ≤ 16 * k)
    | none => true)

/-- CALIBRATION_WINDOW_END (R90, R251, R413, R452, R481): on a cold start the fresh trims are switched in and a record commit is
made; the control program and the master's calibration sweep learn of it. -/
def execCalibrationWindowEnd (s : State) : Result :=
  when (s.running && s.tables.windowOpen && s.windowOver) s fun s =>
    let s := { s with tables := { s.tables with windowOpen := false } }
    let s :=
      if s.adm.warm then s
      else
        let s := { s with sentinel := { s.sentinel with arrays := s.sentinel.arrays.map CimArray.switchTrims } }
        s.adoptStaged.requestCommit .record
    let s := if s.isMaster && s.role != 0 then { s with bolt := { s.bolt with calWanted := true } } else s
    ((s.controlEvent 2).raiseEntry 4).settle

end Sys2Proof.Machine
end

