-- ==== Sys2Proof/Machine/Dispatch.lean ====
section
/-! DEFINITION. One arm per command: each is one direct call of its meaning. -/

namespace Sys2Proof.Machine

/-- The effect of a command on everything but the queue. -/
def exec (i : Instr) (s : State) : Host.Outcome State Fault Refusal :=
  match i with
  | .encoderEdge d a b => Sys2Proof.Machine.execEncoderEdge d a b s
  | .crossCheckSpan => Sys2Proof.Machine.execCrossCheckSpan s
  | .indexPulse d widthNs => Sys2Proof.Machine.execIndexPulse d widthNs s
  | .rateWindow => Sys2Proof.Machine.execRateWindow s
  | .webStopped => Sys2Proof.Machine.execWebStopped s
  | .webMoving => Sys2Proof.Machine.execWebMoving s
  | .horizonClosure tag => Sys2Proof.Machine.execHorizonClosure tag s
  | .markerFire m => Sys2Proof.Machine.execMarkerFire m s
  | .markerPulseEnd m => Sys2Proof.Machine.execMarkerPulseEnd m s
  | .fireArm => Sys2Proof.Machine.execFireArm s
  | .porstAssert => Sys2Proof.Machine.execPorstAssert s
  | .rstAssert => Sys2Proof.Machine.execRstAssert s
  | .resetExit testN junction => Sys2Proof.Machine.execResetExit testN junction s
  | .bootHoldRelease => Sys2Proof.Machine.execBootHoldRelease s
  | .pllLock => Sys2Proof.Machine.execPllLock s
  | .pllLockTimeout => Sys2Proof.Machine.execPllLockTimeout s
  | .formationTimeout => Sys2Proof.Machine.execFormationTimeout s
  | .supplyFault supply => Sys2Proof.Machine.execSupplyFault supply s
  | .brownOut => Sys2Proof.Machine.execBrownOut s
  | .statBlinkTimer => Sys2Proof.Machine.execStatBlinkTimer s
  | .flashOperationDone error => Sys2Proof.Machine.execFlashOperationDone error s
  | .flashBusyTimeout => Sys2Proof.Machine.execFlashBusyTimeout s
  | .frameStart c header => Sys2Proof.Machine.execFrameStart c header s
  | .frameEnd x => Sys2Proof.Machine.execFrameEnd x s
  | .lineStartPacket x => Sys2Proof.Machine.execLineStartPacket x s
  | .longPacket c k u => Sys2Proof.Machine.execLongPacket c k u s
  | .ignoredPacket c => Sys2Proof.Machine.execIgnoredPacket c s
  | .lineAssemblyTimeout => Sys2Proof.Machine.execLineAssemblyTimeout s
  | .lineJournaled => Sys2Proof.Machine.execLineJournaled s
  | .csiClockLoss c => Sys2Proof.Machine.execCsiClockLoss c s
  | .swathScreened => Sys2Proof.Machine.execSwathScreened s
  | .driftTrackerBlock x => Sys2Proof.Machine.execDriftTrackerBlock x s
  | .watchTick pixels => Sys2Proof.Machine.execWatchTick pixels s
  | .calibrationWindowEnd => Sys2Proof.Machine.execCalibrationWindowEnd s
  | .tableFreeze => Sys2Proof.Machine.execTableFreeze s
  | .tableCrcCheck damaged => Sys2Proof.Machine.execTableCrcCheck damaged s
  | .nop q => Sys2Proof.Machine.execNop q s
  | .loadt p u => Sys2Proof.Machine.execLoadt p u s
  | .storet p u => Sys2Proof.Machine.execStoret p u s
  | .streamw p u => Sys2Proof.Machine.execStreamw p u s
  | .drain p u => Sys2Proof.Machine.execDrain p u s
  | .mm p u => Sys2Proof.Machine.execMm p u s
  | .cimv p u => Sys2Proof.Machine.execCimv p u s
  | .vadd p u => Sys2Proof.Machine.execVadd p u s
  | .vsub p u => Sys2Proof.Machine.execVsub p u s
  | .vmul p u => Sys2Proof.Machine.execVmul p u s
  | .vmax p u => Sys2Proof.Machine.execVmax p u s
  | .vmin p u => Sys2Proof.Machine.execVmin p u s
  | .vabs p u => Sys2Proof.Machine.execVabs p u s
  | .vneg p u => Sys2Proof.Machine.execVneg p u s
  | .vcvt p u => Sys2Proof.Machine.execVcvt p u s
  | .vreq p u => Sys2Proof.Machine.execVreq p u s
  | .vlut p u => Sys2Proof.Machine.execVlut p u s
  | .vexp2 p u => Sys2Proof.Machine.execVexp2 p u s
  | .vlog2 p u => Sys2Proof.Machine.execVlog2 p u s
  | .vrcp p u => Sys2Proof.Machine.execVrcp p u s
  | .vsqrt p u => Sys2Proof.Machine.execVsqrt p u s
  | .vrsqrt p u => Sys2Proof.Machine.execVrsqrt p u s
  | .vdiv p u => Sys2Proof.Machine.execVdiv p u s
  | .vexp p u => Sys2Proof.Machine.execVexp p u s
  | .vsig p u => Sys2Proof.Machine.execVsig p u s
  | .vtanh p u => Sys2Proof.Machine.execVtanh p u s
  | .vgelu p u => Sys2Proof.Machine.execVgelu p u s
  | .vsilu p u => Sys2Proof.Machine.execVsilu p u s
  | .vrelu p u => Sys2Proof.Machine.execVrelu p u s
  | .vleaky p u => Sys2Proof.Machine.execVleaky p u s
  | .vsumr p u => Sys2Proof.Machine.execVsumr p u s
  | .vmaxr p u => Sys2Proof.Machine.execVmaxr p u s
  | .vsmax p u => Sys2Proof.Machine.execVsmax p u s
  | .vnorm p u => Sys2Proof.Machine.execVnorm p u s
  | .loop q => Sys2Proof.Machine.execLoop q s
  | .sigk q => Sys2Proof.Machine.execSigk q s
  | .tokenArrival q => Sys2Proof.Machine.execTokenArrival q s
  | .waitk q => Sys2Proof.Machine.execWaitk q s
  | .combine p u => Sys2Proof.Machine.execCombine p u s
  | .combineTreeComplete tree => Sys2Proof.Machine.execCombineTreeComplete tree s
  | .pin p => Sys2Proof.Machine.execPin p s
  | .free p => Sys2Proof.Machine.execFree p s
  | .streamFillComplete u => Sys2Proof.Machine.execStreamFillComplete u s
  | .vote q => Sys2Proof.Machine.execVote q s
  | .unvote q => Sys2Proof.Machine.execUnvote q s
  | .slot p => Sys2Proof.Machine.execSlot p s
  | .slotSpanEnd p => Sys2Proof.Machine.execSlotSpanEnd p s
  | .verdict p u => Sys2Proof.Machine.execVerdict p u s
  | .halt q => Sys2Proof.Machine.execHalt q s
  | .pllsw => Sys2Proof.Machine.execPllsw s
  | .waite => Sys2Proof.Machine.execWaite s
  | .stage u => Sys2Proof.Machine.execStage u s
  | .commit => Sys2Proof.Machine.execCommit s
  | .viewFillComplete tag u => Sys2Proof.Machine.execViewFillComplete tag u s
  | .spanStart g => Sys2Proof.Machine.execSpanStart g s
  | .spanEnd g => Sys2Proof.Machine.execSpanEnd g s
  | .segmentSeal start => Sys2Proof.Machine.execSegmentSeal start s
  | .segmentExpiry start => Sys2Proof.Machine.execSegmentExpiry start s
  | .homeSegmentDrop start => Sys2Proof.Machine.execHomeSegmentDrop start s
  | .readEvents station n => Sys2Proof.Machine.execReadEvents station n s
  | .acknowledgeAndDrain station tEnd => Sys2Proof.Machine.execAcknowledgeAndDrain station tEnd s
  | .readStatus station page => Sys2Proof.Machine.execReadStatus station page s
  | .identity station => Sys2Proof.Machine.execIdentity station s
  | .livePositionLowHalf station => Sys2Proof.Machine.execLivePositionLowHalf station s
  | .livePositionHighHalf station => Sys2Proof.Machine.execLivePositionHighHalf station s
  | .atomicPositionSnapshot station => Sys2Proof.Machine.execAtomicPositionSnapshot station s
  | .transactionCutShort sent lastBits clocked => Sys2Proof.Machine.execTransactionCutShort sent lastBits clocked s
  | .heldRecordEntry => Sys2Proof.Machine.execHeldRecordEntry s
  | .linkSignalDetect q => Sys2Proof.Machine.execLinkSignalDetect q s
  | .laneLock q inverted => Sys2Proof.Machine.execLaneLock q inverted s
  | .laneIdentify q lanes partner => Sys2Proof.Machine.execLaneIdentify q lanes partner s
  | .laneDeskew q skewPs => Sys2Proof.Machine.execLaneDeskew q skewPs s
  | .roundTripMeasure q trips => Sys2Proof.Machine.execRoundTripMeasure q trips s
  | .linkUp q => Sys2Proof.Machine.execLinkUp q s
  | .trainingTimeout q => Sys2Proof.Machine.execTrainingTimeout q s
  | .flitSlot q => Sys2Proof.Machine.execFlitSlot q s
  | .dataFlit q f => Sys2Proof.Machine.execDataFlit q f s
  | .nullFlit q f => Sys2Proof.Machine.execNullFlit q f s
  | .retryTimeout q => Sys2Proof.Machine.execRetryTimeout q s
  | .retryBudgetExpiry q => Sys2Proof.Machine.execRetryBudgetExpiry q s
  | .sleep q f => Sys2Proof.Machine.execSleep q f s
  | .sleepAck q f => Sys2Proof.Machine.execSleepAck q f s
  | .stay q f => Sys2Proof.Machine.execStay q f s
  | .wake q f => Sys2Proof.Machine.execWake q f s
  | .electricalIdleEntry q => Sys2Proof.Machine.execElectricalIdleEntry q s
  | .laneLockLost q => Sys2Proof.Machine.execLaneLockLost q s
  | .signalLost q => Sys2Proof.Machine.execSignalLost q s
  | .creditStall q vc => Sys2Proof.Machine.execCreditStall q vc s
  | .failureIdleEnd q => Sys2Proof.Machine.execFailureIdleEnd q s
  | .seamclkLoss => Sys2Proof.Machine.execSeamclkLoss s
  | .hello q => Sys2Proof.Machine.execHello q s
  | .helloPeriodic q => Sys2Proof.Machine.execHelloPeriodic q s
  | .tickSend => Sys2Proof.Machine.execTickSend s
  | .tick q => Sys2Proof.Machine.execTick q s
  | .correctionStep => Sys2Proof.Machine.execCorrectionStep s
  | .followerMove => Sys2Proof.Machine.execFollowerMove s
  | .tickLoss => Sys2Proof.Machine.execTickLoss s
  | .latencySweepStart => Sys2Proof.Machine.execLatencySweepStart s
  | .latencyStart q => Sys2Proof.Machine.execLatencyStart q s
  | .linkProbeSend => Sys2Proof.Machine.execLinkProbeSend s
  | .linkProbe q => Sys2Proof.Machine.execLinkProbe q s
  | .latencyEcho q => Sys2Proof.Machine.execLatencyEcho q s
  | .latencyEchoTimeout => Sys2Proof.Machine.execLatencyEchoTimeout s
  | .latencyReport q => Sys2Proof.Machine.execLatencyReport q s
  | .latencyCollectionEnd => Sys2Proof.Machine.execLatencyCollectionEnd s
  | .latencyCommit q => Sys2Proof.Machine.execLatencyCommit q s
  | .latencyAbort q => Sys2Proof.Machine.execLatencyAbort q s
  | .latencyRequest q => Sys2Proof.Machine.execLatencyRequest q s
  | .calibrationStart q => Sys2Proof.Machine.execCalibrationStart q s
  | .calibrationSumsDone => Sys2Proof.Machine.execCalibrationSumsDone s
  | .calibrationFactor q => Sys2Proof.Machine.execCalibrationFactor q s
  | .calibrationReport q => Sys2Proof.Machine.execCalibrationReport q s
  | .calibrationCollectionEnd => Sys2Proof.Machine.execCalibrationCollectionEnd s
  | .calibrationCommit q => Sys2Proof.Machine.execCalibrationCommit q s
  | .calibrationAbort q => Sys2Proof.Machine.execCalibrationAbort q s
  | .calibrationRequest q => Sys2Proof.Machine.execCalibrationRequest q s
  | .haloLine q => Sys2Proof.Machine.execHaloLine q s
  | .replayLine q => Sys2Proof.Machine.execReplayLine q s
  | .eventRecord q => Sys2Proof.Machine.execEventRecord q s
  | .segmentRead q => Sys2Proof.Machine.execSegmentRead q s
  | .segmentReply q => Sys2Proof.Machine.execSegmentReply q s
  | .gone q => Sys2Proof.Machine.execGone q s
  | .evictionNotice q => Sys2Proof.Machine.execEvictionNotice q s
  | .lineDeadline east => Sys2Proof.Machine.execLineDeadline east s
  | .hbmRepairComplete ok => Sys2Proof.Machine.execHbmRepairComplete ok s
  | .streamLineRefill => Sys2Proof.Machine.execStreamLineRefill s
  | .hysteresisExpiry domain => Sys2Proof.Machine.execHysteresisExpiry domain s
  | .domainOn domain => Sys2Proof.Machine.execDomainOn domain s
  | .restDelayExpiry => Sys2Proof.Machine.execRestDelayExpiry s
  | .deepRestDelayExpiry => Sys2Proof.Machine.execDeepRestDelayExpiry s
  | .timebaseAlarm owner => Sys2Proof.Machine.execTimebaseAlarm owner s
  | .hbmReloadComplete flashError => Sys2Proof.Machine.execHbmReloadComplete flashError s
  | .vidStep => Sys2Proof.Machine.execVidStep s
  | .regulatorNormalMode => Sys2Proof.Machine.execRegulatorNormalMode s
  | .regulatorLowPower => Sys2Proof.Machine.execRegulatorLowPower s
  | .avsSample m => Sys2Proof.Machine.execAvsSample m s
  | .temperatureSample t => Sys2Proof.Machine.execTemperatureSample t s
  | .degradedSwitchComplete => Sys2Proof.Machine.execDegradedSwitchComplete s
  | .xt32Fail => Sys2Proof.Machine.execXt32Fail s
  | .xt32Verified => Sys2Proof.Machine.execXt32Verified s
  | .refclkLoss => Sys2Proof.Machine.execRefclkLoss s
  | .hbmPllLoss => Sys2Proof.Machine.execHbmPllLoss s
  | .powerFail => Sys2Proof.Machine.execPowerFail s
  | .inputRestored => Sys2Proof.Machine.execInputRestored s
  | .holdVSample mv vinMv dq meanUa => Sys2Proof.Machine.execHoldVSample mv vinMv dq meanUa s
  | .holdupArm => Sys2Proof.Machine.execHoldupArm s
  | .holdupWindow => Sys2Proof.Machine.execHoldupWindow s
  | .periodicCommit => Sys2Proof.Machine.execPeriodicCommit s
  | .vaonInPowerUp => Sys2Proof.Machine.execVaonInPowerUp s
  | .admissionStepComplete x => Sys2Proof.Machine.execAdmissionStepComplete x s
  | .lowStateEntryComplete domain => Sys2Proof.Machine.execLowStateEntryComplete domain s
  | .tableBuildComplete => Sys2Proof.Machine.execTableBuildComplete s
  | .calibrationSweepStart => Sys2Proof.Machine.execCalibrationSweepStart s
  | .calibrationFactorTimeout => Sys2Proof.Machine.execCalibrationFactorTimeout s
  | .flushStepTimeout => Sys2Proof.Machine.execFlushStepTimeout s
  | .seamclkReturn => Sys2Proof.Machine.execSeamclkReturn s
  | .vidSettled => Sys2Proof.Machine.execVidSettled s
  | .housekeepingBurst word u => Sys2Proof.Machine.execHousekeepingBurst word u s

end Sys2Proof.Machine
end

