-- ==== Sys2Proof/Machine/Tick.lean ====
section
/-! DEFINITION. The passing of time while no command waits (log 4). -/

namespace Sys2Proof.Machine

/-- R463: how far the wall timebase goes in one nanosecond of the model's clock, in wall-ps: XT32 is exact; the RC
oscillator is 32 kHz ± 5 %. The free counter names the RC period (log 6). -/
def State.wallAdvance (s : State) : Nat :=
  if s.time.xt32 then 1000 else min 1050 (max 950 (Config.rcPs s.free))

/-- One nanosecond: the model's clock and the wall timebase advance, and nothing else happens. -/
def State.tick (s : State) : State :=
  { s with
    clock := s.clock + 1000
    free := if s.time.xt32 then s.free else s.free + 1
    time := { s.time with wall := s.time.wall + s.wallAdvance } }

end Sys2Proof.Machine
end

