-- ==== Sys2Proof/Safety.lean ====
section
/-! DEFINITION. What counts as a safe run: the machine goes on and neither faults nor refuses; the canonical form of the
stores; and what a quiet command leaves as it was. -/

namespace Sys2Proof

/-- A step from s answers a next state. -/
def Safe (s : Machine.State) : Prop := ∃ t, Machine.step s = .next t

/-- The state after n steps, where each of them answers a next state. -/
def SafeFor (n : Nat) (s : Machine.State) : Prop := ∃ t, core.run n s = .next t

namespace Machine

/-- R195: the panel's stores are in canonical form. -/
def Panel.memWf (x : Panel) : Bool := Memory.wf 0 x.scratch && Memory.wf 0 x.fileA && Memory.wf 0 x.fileB

/-- Every addressed store of the device is in canonical form. -/
def State.memWf (s : State) : Prop :=
  Memory.wf 0xFF s.flash.mem = true ∧ Memory.wf 0 s.hbm.mem = true ∧ Memory.wf 0 s.commons.mem = true ∧
    ∀ p : PanelId, s.panels[p].memWf = true

/-- t is s but for the parts that forming records, taking and dropping votes, and raising wakes change: records, links,
wakes, the control sequencer, fault counts, power and the counter of free values. -/
structure Quiet (s t : State) : Prop where
  same : t = { s with
    free := t.free, wake := t.wake, control := t.control, events := t.events, seams := t.seams, faults := t.faults
    power := t.power }

end Machine

end Sys2Proof
end

