-- ==== Sys2Proof/Certificates/Slice0/Obligations.lean ====
section
/-! DEFINITION. The statements about this model, for the provers. Each docstring names the rules of the spec. A statement
that a command "answers" a state says that exec of the command is exactly that next state, so what the state does not
change is unchanged. `Quiet s t` (Safety.lean) says that t is s but for records, links' queues, wakes, votes and power. -/

open Sys2Proof Sys2Proof.Machine

namespace Sys2Proof.Claims

/-- The commands that reset the whole device, the thimble included (R13, R35, R69). -/
def wholeReset : Instr → Bool
  | .porstAssert => true | .vaonInPowerUp => true | .brownOut => true | _ => false

/-- The commands that may reset what is outside the thimble (R69, R70, R272, R471, R490). -/
def outsideReset : Instr → Bool
  | .rstAssert => true | .supplyFault _ => true | .refclkLoss => true | .hbmPllLoss => true | .pllLockTimeout => true
  | .inputRestored => true | .hbmReloadComplete _ => true | _ => false

/-- The commands that may reset anything, a reset exit among them. -/
def anyReset (c : Instr) : Bool := wholeReset c || outsideReset c || (match c with | .resetExit _ _ => true | _ => false)

/-- An instruction of a panel issues: it is the one fetched, its tiles lie in their stores, and it issues at cycle t
in the state s' (R225, R252, R254). -/
def Issues (s : State) (p : PanelId) (u : List Upset) (ins : Stitch) (t : Nat) (s' : State) : Prop :=
  s.fetchPanel p = some ins ∧ (ins.fields.all fun f => s.tileIn (s.runCtx p) s.panels[p].seq.loops f) = true ∧
    (s.upsets p u).issuePanel p ins = some (t, s')

/-- The state after a panel's instruction: its effect, the next instruction, and what follows every command. -/
def issued (p : PanelId) (s : State) : State := (s.updPanel p (·.advance)).settle

/-- The state in which the control sequencer's instruction has its effect: the first issue after a wake is noted, and
the program counter has moved on (R251, R453). -/
def stepped (s : State) : State := s.noteFirst.updControl fun q => q.goto 0 (q.pc + 1)

/-- R140, R145, R148: the three short packets that a port reads: the data type, the command and the effect of its data. -/
def shortPackets : List (Nat × (CsiId → BitVec 32 → Instr) × (CsiId → State → BitVec 16 → State)) :=
  [(0, .frameStart, fun c s n => s.startFrame c n), (1, fun c b => .frameEnd ⟨c, b⟩, fun c s _ => s.endFrame c),
   (2, fun c b => .lineStartPacket ⟨c, b⟩, fun c s _ => s.lineStarts c)]

/-- R217: the opcodes of two operands, with their command, their meaning on integers and on FP32. -/
def binaryOps : List (Nat × (PanelId → List Upset → Instr) × (Int → Int → Int) × (F32 → F32 → F32)) :=
  [(0x20, .vadd, (· + ·), fadd), (0x21, .vsub, (· - ·), fsub), (0x22, .vmul, (· * ·), fmul),
   (0x23, .vmax, max, fmax), (0x24, .vmin, min, fmin)]

/-- R217: the opcodes of one operand with an integer meaning. -/
def unaryOps : List (Nat × (PanelId → List Upset → Instr) × (Int → Int) × (F32 → F32)) :=
  [(0x25, .vabs, fun v => (v.natAbs : Int), fabs), (0x26, .vneg, fun v => -v, fneg)]

/-- R219, R220: the functions of one FP32 operand. -/
def functionOps : List (Nat × (PanelId → List Upset → Instr) × (F32 → F32)) :=
  [(0x2A, .vexp2, fexp2), (0x2B, .vlog2, flog2), (0x2C, .vrcp, frcp), (0x2D, .vsqrt, fsqrt), (0x2E, .vrsqrt, frsqrt),
   (0x30, .vexp, fexp), (0x31, .vsig, fsigmoid), (0x32, .vtanh, ftanh), (0x33, .vgelu, fgelu), (0x34, .vsilu, fsilu),
   (0x35, .vrelu, frelu)]

/-- R236: an immediate of a vector instruction, which is BF16, as FP32. -/
def bfloat (imm : Nat) : F32 := BitVec.ofNat 32 (toFloat fmtFP32 (decodeBits fmtBF16 imm))

end Sys2Proof.Claims

open Sys2Proof.Claims

/-! ### The queue, time and reset -/

/-- The block's form: a step is the front command's effect on the state with the queue's rest. -/
def Obligations.StepRunsTheFrontCommand : Prop :=
  ∀ (c : Instr) (rest : List Instr) (s : State),
    step { s with pending := c :: rest } = exec c { s with pending := rest }

/-- The model's choice, log 4: with no command waiting one nanosecond passes; XT32 moves the wall timebase by as much,
and nothing else happens. -/
def Obligations.EmptyQueuePassesOneNanosecond : Prop :=
  ∀ s : State, s.pending = [] → s.time.xt32 = true →
    step s = .next { s with clock := s.clock + 1000, time := { s.time with wall := s.time.wall + 1000 } }

/-- R13, R35, R71, R463, and log 1, 2 and 3: what the reset state holds. -/
def Obligations.ResetStateIsThePowerOnExit : Prop :=
  State.reset.pending = [] ∧ State.reset.adm.dev = .admitting ∧ State.reset.adm.step = 1 ∧
    (∀ d : DecId, State.reset.web.enc[d].count = 0 ∧ State.reset.web.enc[d].illegal = 0 ∧
      State.reset.web.enc[d].events = [] ∧ State.reset.web.enc[d].lastIndex = 0) ∧
    State.reset.time.wall = 0 ∧ State.reset.pins.fault = false ∧ State.reset.pins.thermtrip = false ∧
    State.reset.events.queue = [] ∧ State.reset.memWf

/-- The model's form of memory (log 2, 3): every step keeps every addressed store canonical. -/
def Obligations.EveryStepKeepsTheStoresCanonical : Prop :=
  ∀ s t : State, s.memWf → step s = .next t → t.memWf

/-- R83: no step clears a burned fuse, be it a bit of the key digest or the seal flag. -/
def Obligations.NoStepClearsAFuse : Prop :=
  ∀ s t : State, step s = .next t →
    (s.fuses.flag = true → t.fuses.flag = true) ∧
      ∀ i, s.fuses.key.getLsbD i = true → t.fuses.key.getLsbD i = true

/-- The block's form and log 4: a command touches neither the queue nor the model's clock. -/
def Obligations.CommandsKeepTheQueueAndTheClock : Prop :=
  ∀ (c : Instr) (s t : State), exec c s = .next t → t.pending = s.pending ∧ t.clock = s.clock

/-- R69, R463: the wall timebase runs on through every command but a reset of the whole device; only the passing of
time moves it (log 4). -/
def Obligations.CommandsKeepTheWallTimebase : Prop :=
  ∀ (c : Instr) (s t : State), wholeReset c = false → exec c s = .next t → t.time.wall = s.time.wall

/-- R9, R13: a position counter moves only on an edge of its decoder, and returns to zero only in a reset of the whole
device. -/
def Obligations.CountersMoveByTheirEdgesAlone : Prop :=
  ∀ (c : Instr) (s t : State) (d : DecId), wholeReset c = false → (∀ a b, c ≠ .encoderEdge d a b) →
    exec c s = .next t → t.web.enc[d].count = s.web.enc[d].count

/-- R62, R348: once asserted, FAULT_N stays until a reset, and so do markers that are held inactive. -/
def Obligations.FaultPinAndHeldMarkersStayUntilAReset : Prop :=
  ∀ (c : Instr) (s t : State), anyReset c = false → exec c s = .next t →
    (s.pins.fault = true → t.pins.fault = true) ∧ (s.markers.inhibited = true → t.markers.inhibited = true)

/-- R64, R461: THERMTRIP_N is held through RST_N and everything else but a reset exit. -/
def Obligations.ThermalTripStaysUntilAResetExit : Prop :=
  ∀ (c : Instr) (s t : State), (∀ testN j, c ≠ .resetExit testN j) → exec c s = .next t →
    s.pins.thermtrip = true → t.pins.thermtrip = true

/-- R46, R113, R442: the decoded straps and the pattern are those that admission took, until a reset. -/
def Obligations.StrapsAndPatternChangeInAdmissionAlone : Prop :=
  ∀ (c : Instr) (s t : State), anyReset c = false → (∀ x, c ≠ .admissionStepComplete x) → exec c s = .next t →
    t.levels = s.levels ∧ t.pat = s.pat ∧ t.fuses = s.fuses

/-- R69, R71, R98: PORST_N, VAON_IN power-up and a brown-out clear the thimble and everything outside it; flash, fuses and
the levels of the encoder pins remain, and admission stands at step 1. What a reset breaks off, a fuse burn or a flash
operation, may have taken effect in part (log 41, log 66). -/
def Obligations.WholeDeviceResetsClearTheThimble : Prop :=
  ∀ (c : Instr) (s : State), wholeReset c = true → ∃ t, exec c s = .next t ∧
    (∀ d : DecId, t.web.enc[d].count = 0 ∧ t.web.enc[d].illegal = 0 ∧ t.web.enc[d].events = [] ∧
      t.web.enc[d].lastIndex = 0 ∧ t.web.enc[d].a = s.web.enc[d].a ∧ t.web.enc[d].b = s.web.enc[d].b) ∧
    t.web.bLeads = false ∧ t.time.wall = 0 ∧ t.adm.dev = .inReset ∧ t.adm.step = 1 ∧
    t.pins.porstN = false ∧ t.pins.fault = false ∧
    (s.adm.burning = false → t.fuses = s.fuses) ∧
    (s.flash.late = none → s.flash.run = none → t.flash.mem = s.flash.mem) ∧ t.pat = {} ∧ t.levels = {} ∧ t.events = {} ∧
    t.power.votes = [] ∧ t.hbm.mem = [] ∧ t.commons.mem = [] ∧ t.pending = s.pending

/-- R69, R70, R71, R98, R471: RST_N, and what acts as it, keep the thimble and lose everything outside it but the
flash, and admission stands at step 1; a fuse burn that the reset breaks off leaves the seal flag as it was (log 66),
and a flash operation broken off may have taken effect (log 41). -/
def Obligations.ResetPinKeepsTheThimble : Prop :=
  ∀ s : State,
    (s.pins.porstN = true → ∃ t, exec .rstAssert s = .next t ∧ t.wake.cause = 2 ∧ t.pins.rstN = false ∧
      t = ({ s with pins := { s.pins with rstN := false } }).resetOutside 2 0) ∧
    (∀ f : Fin 4, s.running = true → ∃ t, exec (.supplyFault f) s = .next t ∧ t.power.supplyFrom = some s.clock ∧
      t = ({ s with power := { s.power with supplyFrom := some s.clock } }).resetOutside 3 (f.val + 1)) ∧
    (s.running = true → s.power.locked = true → exec .refclkLoss s = .next (s.resetOutside 3 5)) ∧
    (s.running = true → s.isOn domHbm = true → exec .hbmPllLoss s = .next (s.resetOutside 3 6)) ∧
    ∀ cause detail, let t := s.resetOutside cause detail
      (∀ d : DecId, t.web.enc[d] = s.web.enc[d]) ∧ t.time = s.time ∧ t.bolt.follower = s.bolt.follower ∧
        t.pins.thermtrip = s.pins.thermtrip ∧ t.hold.k = s.hold.k ∧ t.hold.sram = s.hold.sram ∧
        t.fuses.flag = s.fuses.flag ∧ (s.adm.burning = false → t.fuses = s.fuses) ∧
        (s.flash.late = none → s.flash.run = none → t.flash.mem = s.flash.mem) ∧ t.adm.dev = .inReset ∧
        t.adm.step = 1 ∧ t.pins.fault = false ∧ t.pat = {} ∧ t.levels = {} ∧
        t.events = {} ∧ t.hbm.mem = [] ∧ t.commons.mem = [] ∧ t.wake.cause = cause ∧ t.wake.detail = detail

/-- R35, R62, R70, R71, R461: once no supply fault holds the device, a reset exit starts admission at step 1, where every
reset has put it (WholeDeviceResetsClearTheThimble, ResetPinKeepsTheThimble), with both pins high; a trip that is still
latched returns the device to the stopped state instead. Until then it changes nothing. -/
def Obligations.ResetExitStartsAdmission : Prop :=
  ∀ (testN : Bool) (j : Int) (s : State), s.adm.dev = .inReset →
   (∀ t, s.power.supplyFrom = some t → s.clock < t + msPs → exec (.resetExit testN j) s = .next s) ∧
   (s.power.supplyFrom = none ∨ (∃ t, s.power.supplyFrom = some t ∧ t + msPs ≤ s.clock) →
   (s.pins.thermtrip = false → exec (.resetExit testN j) s = .next ({ s with
      pins := { s.pins with porstN := true, rstN := true }
      web := { s.web with lost := false }
      levels := { s.levels with test1 := testN }
      wake := { s.wake with
        pos := s.position, atClock := s.clock, wakeWall := s.time.wall, awaiting := [], brownOut := false }
      adm := { s.adm with dev := .admitting, since := s.clock }
      power := { Power.atExit s.clock with junction := j, vidSince := s.power.vidSince } })) ∧
   ∃ t, exec (.resetExit testN j) s = .next t ∧
    t.pins.porstN = true ∧ t.pins.rstN = true ∧ t.levels.test1 = testN ∧ t.power.junction = j ∧
    (∀ d : DecId, t.web.enc[d].count = s.web.enc[d].count) ∧ t.web.lost = false ∧
    (s.pins.thermtrip = false →
      t.adm = { s.adm with dev := .admitting, since := s.clock } ∧ t.pins.fault = s.pins.fault) ∧
    (s.adm.step = 1 → t.adm.step = 1) ∧
    (s.pins.thermtrip = true → (s.wake.cause = 1 ∨ s.wake.cause = 4) → j < 105 * 16 →
      t.pins.thermtrip = false ∧ t.adm.dev = .admitting) ∧
    (s.pins.thermtrip = true → ¬ ((s.wake.cause = 1 ∨ s.wake.cause = 4) ∧ j < 105 * 16) →
      t.pins.thermtrip = true ∧ t.adm.dev = .stopped ∧ t.pins.fault = true ∧ t.markers.inhibited = true))

/-! ### The web -/

/-- R9: each edge counts, one up or one down, modulo 2⁴⁸; the table of quadrature states says which is which. R11, in
the form that the command gives it, which is the model's choice (log 107): a level kept for less than 5 ns is a pulse,
which is not taken. R13: while PORST_N holds the counters at zero an edge counts nothing. -/
def Obligations.LegalEdgesMoveTheCounterByOne : Prop :=
  (∀ (bLeads a b : Bool),
    quadStep bLeads a b (!b) a = .legal (!bLeads) ∧ quadStep bLeads a b b (!a) = .legal bLeads) ∧
  ∀ (d : DecId) (pa pb : PinLevel) (s : State),
    let a := if pa.heldNs < 5 then s.web.enc[d].a else pa.high
    let b := if pb.heldNs < 5 then s.web.enc[d].b else pb.high
    (a = s.web.enc[d].a → b = s.web.enc[d].b → exec (.encoderEdge d pa pb) s = .next s) ∧
    ∀ f : Bool, quadStep s.web.bLeads s.web.enc[d].a s.web.enc[d].b a b = .legal f →
      (s.pins.porstN = true → ∃ t, exec (.encoderEdge d pa pb) s = .next t ∧
        t.web.enc[d].count = (if f then s.web.enc[d].count + 1 else s.web.enc[d].count - 1) ∧
        t.web.enc[d].a = a ∧ t.web.enc[d].b = b ∧ t.web.enc[d].illegal = s.web.enc[d].illegal ∧
        ∀ d' : DecId, d' ≠ d → t.web.enc[d'] = s.web.enc[d']) ∧
      (s.pins.porstN = false → ∃ t, exec (.encoderEdge d pa pb) s = .next t ∧
        ∀ d' : DecId, t.web.enc[d'].count = s.web.enc[d'].count)

/-- R12: an illegal transition leaves the counter, is taken as the new state, is counted up to 0xFFFF, and adds 2
counts to the decoder's uncertainty. -/
def Obligations.IllegalTransitionsAddUncertainty : Prop :=
  ∀ (d : DecId) (pa pb : PinLevel) (s : State), s.pins.porstN = true → 5 ≤ pa.heldNs → 5 ≤ pb.heldNs →
    pa.high ≠ s.web.enc[d].a → pb.high ≠ s.web.enc[d].b →
    ∃ t, exec (.encoderEdge d pa pb) s = .next t ∧ t.web.enc[d].count = s.web.enc[d].count ∧
      t.web.enc[d].a = pa.high ∧ t.web.enc[d].b = pb.high ∧
      t.web.enc[d].illegal.toNat = min 0xFFFF (s.web.enc[d].illegal.toNat + 1) ∧
      t.web.enc[d].events.head? = some (s.web.travel, 2) ∧
      (∀ x ∈ s.web.enc[d].events, s.web.travel - x.1 < 2 ^ 24 → x ∈ t.web.enc[d].events) ∧
      ∀ d' : DecId, d' ≠ d → t.web.enc[d'] = s.web.enc[d']

/-- R16, R17: the end of a check span starts the next and charges a difference above T to the position source, with a FAULT
record whose unit is the other decoder (the model's choice, log 17); an index pulse of 50 ns is latched, one below 5 ns is
not, and one between is a free choice (log 8). R23, R28, R429, R449, R452:
the web-stopped state begins after S and ends after R counts, and a window still open at p_e + H is closed there. -/
def Obligations.WebEventsComplete : Prop :=
  ∀ s : State,
    (s.running = true → s.pat.intk.other = 1 → 65536 ≤ (posDiff s.web.spanSource s.sourceCounter).natAbs →
      let w := { s with web := { s.web with spanSource := s.sourceCounter, spanOther := s.web.enc[s.other].count } }
      let d := posDiff s.web.spanOther s.web.enc[s.other].count -
        rne (posDiff s.web.spanSource s.sourceCounter * s.pat.intk.k) 256
      (d.natAbs ≤ s.pat.intk.tol → exec .crossCheckSpan s = .next w) ∧
      (s.pat.intk.tol < d.natAbs → exec .crossCheckSpan s = .next
        (((w.addUncertainty w.source d.natAbs).faultRecord 1 w.other.val
          (unsigned 32 (clampInt (-2 ^ 31) (2 ^ 31 - 1) d) + 2 ^ 32 * (s.pat.intk.tol % 2 ^ 32))).checkSlip).settle)) ∧
    (∀ (d : DecId) (w : Nat),
      (50 ≤ w → s.pins.porstN = true → ∃ t, exec (.indexPulse d w) s = .next t ∧
        t.web.enc[d].lastIndex = s.web.enc[d].count ∧ t.web.enc[d].indexSeen = true ∧
        ∀ d' : DecId, t.web.enc[d'].count = s.web.enc[d'].count) ∧
      (5 ≤ w → w < 50 → s.pins.porstN = true → exec (.indexPulse d w) s = .next
        (if Config.shortPulse s.free then (({ s with free := s.free + 1 }).latchIndex d).settle
          else { s with free := s.free + 1 })) ∧
      (w < 5 → exec (.indexPulse d w) s = .next s)) ∧
    (s.running = true → s.web.stopped = false → s.edges.lastWall + s.pat.dlin.stopUs * usPs ≤ s.time.wall →
      exec .webStopped s = .next
        ((({ s with web := { s.web with
          stopped := true, stopEntry := s.sourceCounter, stopSince := s.time.wall } }.statusPos 5 0).controlEvent
            3).raiseEntry 2).settle) ∧
    (s.running = true → s.web.stopped = true →
      s.pat.dlin.restart ≤ (posDiff s.web.stopEntry s.sourceCounter).natAbs →
      exec .webMoving s = .next
        (((({ s with web := { s.web with stopped := false } }.statusPos 6 0).controlEvent 4).raiseEntry
          3).motionWake).settle) ∧
    (∀ (tag : Tag) (w : Window), s.look.ledger.find? (·.tag == tag) = some w →
      s.running = true ∨ (s.sinceReady = true ∧ s.adm.dev = .stopped) →
      posDiff s.position (w.pe + BitVec.ofNat 48 s.pat.dlin.horizon) ≤ 0 →
      exec (.horizonClosure tag) s = .next
        (s.closeWindow tag 4 (if w.st = .held ∨ w.st = .replayReady then 3 else 2) 0 w.ownFlags).settle)

/-- R26: the end of a 1 ms window: its counters start again; a window over C_max or L_max raises RATE_RISK, and the
hundredth good window of an episode ends it. -/
def Obligations.RateWindowCompletes : Prop :=
  ∀ s : State, s.running = true → s.web.rateStart + msPs ≤ s.time.wall →
    let w := { s with web := s.web.nextWindow }
    let overC := decide (s.pat.dlin.cMax < s.web.rateEdges * 1000)
    let overL := decide (s.pat.dlin.lMax < s.web.rateLines * 1000)
    (overC = true ∨ overL = true → ∃ t, exec .rateWindow s = .next t ∧ t.pins.riskRate = true ∧
      t.web.episode = true ∧ t.web.goodWindows = 0 ∧ t.web.rateEdges = 0 ∧ t.web.rateLines = 0 ∧
      t.web.rateStart = s.web.rateStart + msPs) ∧
    (overC = false → overL = false → s.web.episode = false → exec .rateWindow s = .next w.settle) ∧
    (overC = false → overL = false → s.web.episode = true → s.web.goodWindows + 1 < 100 →
      exec .rateWindow s = .next ({ w with web := { w.web with goodWindows := s.web.goodWindows + 1 } }).settle) ∧
    (overC = false → overL = false → s.web.episode = true → 100 ≤ s.web.goodWindows + 1 →
      ∃ t, exec .rateWindow s = .next t ∧ t.pins.riskRate = false ∧ t.web.episode = false)

/-! ### Markers -/

/-- R345: arming compares the position with the target: ahead, the fire pends; at it, the fire fires at once; behind,
it is missed; and with 1,024 fires held it is dropped. -/
def Obligations.ArmingFollowsThePosition : Prop :=
  ∀ (s : State) (f f' : Fire) (rest : List Fire), takeFirst (· == f) s.markers.fires = some (f', rest) →
    let d := posDiff s.position f.target
    let gone : State := { s with markers := { s.markers with fires := rest } }
    (1024 ≤ s.markers.heldFires → s.armFire f = gone.markRecord 3 f.marker f.target 1 f.tag) ∧
    (s.markers.heldFires < 1024 → d < 0 → s.armFire f = gone.markRecord 2 f.marker f.target 1 f.tag) ∧
    (s.markers.heldFires < 1024 → d = 0 → s.armFire f = { s with
      markers := { s.markers with fires := rest ++ [{ f with stage := .pulse, startedAt := s.clock }] } }.bump 5 1) ∧
    (s.markers.heldFires < 1024 → 0 < d → s.armFire f = { s with
      markers := { s.markers with fires := rest ++ [{ f with stage := .pending }] } })

/-- R345, R346, R486: the fires of the oldest closing record are armed together; a due fire asserts its marker and is
counted; its pulse's end releases it with a MARK record of sub-code 1. -/
def Obligations.MarkersComplete : Prop :=
  ∀ s : State,
    (∀ f0, s.markers.fires.find? (·.stage == .formed) = some f0 → exec .fireArm s = .next
      ((s.markers.fires.filter fun f => f.stage == .formed && f.tag == f0.tag).foldl State.armFire s).settle) ∧
    (∀ m : MarkerId, s.markers.fires.any (Fire.isAt m .due) = true → ∃ t, exec (.markerFire m) s = .next t ∧
      t = ({ s with markers := { s.markers with fires := t.markers.fires } }).bump 5 1 ∧
      t.markers.fires.countP (Fire.isAt m .due) + 1 = s.markers.fires.countP (Fire.isAt m .due) ∧
      t.markers.fires.countP (Fire.isAt m .pulse) = s.markers.fires.countP (Fire.isAt m .pulse) + 1) ∧
    (∀ (m : MarkerId) (f : Fire) (rest : List Fire),
      takeFirst (fun f => Fire.isAt m .pulse f && f.mayEnd s.clock) s.markers.fires = some (f, rest) →
      exec (.markerPulseEnd m) s = .next
        ({ s with markers := { s.markers with fires := rest } }.markRecord 1 f.marker f.target 1 f.tag).settle)

/-! ### Admission and flash -/

/-- R41, R43, R44, R55, R57: the end of step 1 with a bad reading refuses with the first code of its order, a flash supply
outside the range of its class last, and with none goes on to step 2 or to the hold of R58. -/
def Obligations.StrapProblemsRefuse : Prop :=
  ∀ (x : StepInput) (s : State), s.adm.dev = .admitting → s.adm.step = 1 → s.stepPowered = true →
    s.adm.since + 11 * msPs ≤ s.clock →
    let r := s.readLevels x
    (r.levels.test1 && r.levels.test2 = false →
      exec (.admissionStepComplete x) s = .next (r.refuse 0x3F).settle) ∧
    (r.levels.test1 && r.levels.test2 = true → r.levels.refFault = true →
      exec (.admissionStepComplete x) s = .next (r.refuse 0x3C).settle) ∧
    (r.levels.test1 && r.levels.test2 = true → r.levels.refFault = false → r.levels.pin.any (·.fault) = true →
      exec (.admissionStepComplete x) s = .next (r.refuse 0x3E).settle) ∧
    (r.levels.test1 && r.levels.test2 = true → r.levels.refFault = false → r.levels.pin.any (·.fault) = false →
      (∃ i, i < 10 ∧ r.level i = none) → exec (.admissionStepComplete x) s = .next (r.refuse 0x3D).settle) ∧
    (r.levels.test1 && r.levels.test2 = true → r.levels.refFault = false → r.levels.pin.any (·.fault) = false →
      (∀ i, i < 10 → r.level i ≠ none) → vddioOk r.flashClass x.vddioMv = false →
      exec (.admissionStepComplete x) s = .next (r.refuse 0x3B).settle) ∧
    (r.strapCode x.vddioMv = none → exec (.admissionStepComplete x) s = .next
      (if x.bootHold then r.startFlash else { r with adm := { r.adm with dev := .bootHold } }).settle)

/-- R35, R58, R72, R93: a step of admission ends; the boot hold ends in step 2; and half a second into step 12 a
device that has not joined raises READY in selvage mode. R83: step 4 of a seal pattern starts the burn, and at its end
every bit of the key digest and the seal flag are burned and the device stops there; that the burn lasts from one end
of the step to the next, and that every fuse takes, is the model's choice (log 66). -/
def Obligations.AdmissionCompletes : Prop :=
  ∀ s : State,
    (∀ x : StepInput, s.adm.dev = .admitting → s.stepPowered = true → s.adm.step ≠ 1 →
      exec (.admissionStepComplete x) s = .next (s.endStep x).settle) ∧
    (s.adm.dev = .bootHold → exec .bootHoldRelease s = .next s.startFlash.settle ∧
      s.startFlash.adm.step = 2 ∧ s.startFlash.adm.dev = .admitting) ∧
    (s.adm.dev = .admitting → s.adm.step = 12 → s.role ≠ 0 → s.isMaster = false →
      s.bolt.formFrom + 500 * msPs ≤ s.clock →
      exec .formationTimeout s = .next
        (let r := if s.bolt.mode == 3 && s.bolt.reason == 5 then 5 else 9
         (({ s with bolt := { s.bolt with mode := 3, reason := r, usable := 0 } }.raiseReady.boltRecord 2 r 0xFFFF
          0).helloAll).settle)) ∧
    (∀ x : StepInput, s.adm.dev = .admitting → s.adm.step = 4 → s.stepPowered = true →
      (s.adm.burning = false → s.compatCode = none → s.pat.head.flags % 2 = 1 →
        exec (.admissionStepComplete x) s = .next ({ s with adm := { s.adm with burning := true } }).settle) ∧
      (s.adm.burning = true → exec (.admissionStepComplete x) s = .next ({ s with
        fuses := { key := s.fuses.key ||| digestBits (sha256 s.pat.sign.key), flag := true }
        adm := { s.adm with dev := .sealComplete, burning := false } }).settle))

/-- R74, R251, R456, R457, R466, R471: lock lets the clients that wait go on: the control sequencer that waits for the PLL
joins it as soon as the core clock runs, which is at lock or, with VID still to settle, later. No lock within 1 ms refuses
admission with 0x3A, subcause clock, or resets a running device. -/
def Obligations.PllCompletes : Prop :=
  ∀ s : State, s.power.pll = true → s.power.locked = false →
    (let w := ({ s with
       power := { s.power with locked := true }
       control := { s.control with wantPll := s.control.wantPll || s.adm.dev == Device.admitting } }).startCore
     (w.power.clockPending = true → exec .pllLock s = .next (w.controlEvent 0).settle) ∧
     (w.power.clockPending = false → exec .pllLock s = .next (({ w with control := { w.control with
       onPll := w.control.onPll || w.control.wantPll, wantPll := false } }).controlEvent 0).settle) ∧
     (w.power.clockPending = true ↔ s.sinceReady = true ∧
       ¬ (s.pins.vid = s.power.vidTarget ∧ s.power.vidSince + 10 * usPs ≤ s.clock))) ∧
    (s.power.pllSince + msPs ≤ s.clock → s.adm.dev = .admitting →
      exec .pllLockTimeout s = .next
        (({ s with adm := { s.adm with subcause := 1, subArray := 0 } }).refuse 0x3A).settle) ∧
    (s.power.pllSince + msPs ≤ s.clock → s.adm.dev = .running →
      exec .pllLockTimeout s = .next (s.resetOutside 3 5))

/-- R66, R105, R251, R480, R481, R505: the blink timers step every 25 ms of the wall timebase; a flash operation ends
or is busy too long and the commit goes on; a period's end commits; and STAGE and COMMIT of the control program. R54,
R102, R103: a 1-4-4 read drives FL_IO[3:0] high in the first two of its clocks between address and data, and no other
command does; the 1-1-1 commands run at a third of the flash clock, and every command at FRC while the PLL is not
locked. -/
def Obligations.FlashAndCommitsComplete : Prop :=
  ∀ s : State,
    (s.pins.blinkAt + 25 * msPs ≤ s.time.wall → exec .statBlinkTimer s = .next { s with pins := { s.pins with
      blink := s.pins.blink + 1, blinkAt := s.pins.blinkAt + 25 * msPs } }) ∧
    (s.time.wall < s.pins.blinkAt + 25 * msPs → exec .statBlinkTimer s = .next s) ∧
    (∀ error, s.isOn domFlash = true →
      exec (.flashOperationDone error) s = .next (s.operationDone error).flashNext.settle) ∧
    (∀ r o, s.isOn domFlash = true → s.operationLate = some (r, o) →
      exec .flashBusyTimeout s = .next (s.operationTimeout r o).flashNext.settle) ∧
    (s.running = true → s.intake.nextSeq ≠ 0 → s.periodNow ≠ 0 → s.periodNow ≠ s.flash.periodAt →
      let w := { s with flash := { s.flash with periodAt := s.periodNow } }
      (w.periodic = true → exec .periodicCommit s = .next
        (w.requestCommit (if w.recordDirty then .record else .counter)).settle) ∧
      (w.periodic = false → exec .periodicCommit s = .next w)) ∧
    (∀ cls n : Nat, FlashCmd.slotRead.ioAt cls n = .high ↔ n = 16 ∨ n = 17) ∧
    (∀ (c : FlashCmd) (cls n : Nat), c ≠ .slotRead → c.ioAt cls n ≠ .high) ∧
    (s.power.locked = false → ∀ c, s.flashKhz c = 48000) ∧
    (s.power.locked = true → s.flashKhz .slotRead = 999 * s.flashMhz ∧ s.flashKhz .areaRead = 999 * s.flashMhz ∧
      ∀ c, c ≠ .slotRead → c ≠ .areaRead → s.flashKhz c = 333 * s.flashMhz) ∧
    (s.fetchControl = some .commit → exec .commit s = .next ((stepped s).requestCommit .record).settle) ∧
    (∀ f id u, s.fetchControl = some (.stage f id) →
      exec (.stage u) s = .next ((stepped s).stageTile u s.control.seq.loops f id).settle)

/-! ### Intake, sentinel and tables -/

/-- R140, R141, R145, R147, R148, R152: frame and line packets by their checked headers: one of the port's channel and
of its type has its effect, another is counted as ignored, a corrected header is counted, and one that cannot be
corrected is a damaged part. A new frame closes the lines of the port's frame before it and of every frame before the
new one; a closed frame keeps its line count; a line start stamps the port's next line. What makes a frame number come
after another is the model's choice (log 132), and what differing numbers are compared with is log 37. -/
def Obligations.ShortPacketsComplete : Prop :=
  ∀ (c : CsiId) (s : State), s.portOn c = true →
    let ignored (s : State) := s.updCsi c fun p => { p with ignored := satAdd 32 p.ignored 1 }
    let corrected := s.updCsi c fun p => { p with corrected := satAdd 32 p.corrected 1 }
    exec (.ignoredPacket c) s = .next (ignored s) ∧
    (∀ x ∈ shortPackets, ∀ (b : BitVec 32) (h : Nat),
      let mine := headerChannel h = (s.pat.intkPort c.val).vc ∧ headerType h = x.1
      (checkHeader b = .clean h →
        (mine → exec (x.2.1 c b) s = .next (x.2.2 c s (BitVec.ofNat 16 (headerCount h)))) ∧
        (¬ mine → exec (x.2.1 c b) s = .next (ignored s))) ∧
      (checkHeader b = .corrected h →
        (mine → exec (x.2.1 c b) s = .next (x.2.2 c corrected (BitVec.ofNat 16 (headerCount h)))) ∧
        (¬ mine → exec (x.2.1 c b) s = .next (ignored corrected))) ∧
      (checkHeader b = .uncorrectable → exec (x.2.1 c b) s = .next (s.takePart c { cls := .damaged 4 }))) ∧
    (∀ n, let old := s.intake.port[c].frame
      let w := s.updCsi c fun p =>
            { p with
              ordinal := if p.waiting then 0 else p.ordinal + 1
              closed := if p.open_ then none else p.closed
              prevNo := if p.waiting then 0 else p.frameNo
              waiting := false, open_ := true, frameNo := n, index := 0, lineStart := none }
      let f := w.intake.port[c].frame
      (s.intake.port[c].waiting = true →
        let v := w.closeLines fun l => w.frameAfter l.frame f
        s.startFrame c n = (if v.numbersDiffer c then v.realign else v).settle) ∧
      (s.intake.port[c].waiting = false →
        let v := (w.closeLines fun l => w.sameFrame l.frame old || w.frameAfter l.frame f).leaveFrames c old f
        s.startFrame c n = (if v.numbersDiffer c then v.realign else v).settle)) ∧
    (s.intake.port[c].open_ = true → s.intake.port[c].waiting = false →
      let w := s.updCsi c fun p =>
        { p with open_ := false, closed := some (p.frameNo.toNat, p.ordinal, p.index), lineStart := none }
      s.endFrame c = (if w.countsDiffer c then w.realign else w).settle) ∧
    (s.portTakes c = true → s.lineStarts c =
      s.takeStamp.2.updCsi c fun p => { p with lineStart := some s.takeStamp.1 }) ∧
    (s.portTakes c = false → s.endFrame c = s ∧ s.lineStarts c = s)

/-- R140, R141, R150, R164, R471: a long packet by its checked header: one of the port's channel and type is the port's
next part, another is counted as ignored, and one whose header cannot be corrected is a damaged part; a part, or one lost
with its clock, takes the port's next place; the assembly timeout closes the oldest line; a closed line comes into the
bobbin. -/
def Obligations.LinePartsComplete : Prop :=
  ∀ s : State,
    (∀ (c : CsiId) (k : LongPacket) (u : List Upset), s.portOn c = true →
      let v := s.upsets 0 (u.filter (·.store == .commons))
      let w := v.updCsi c fun p => { p with corrected := satAdd 32 p.corrected 1 }
      let p := s.pat.intkPort c.val
      let part (h : Nat) := classify s.pat.bits p.pixels (headerCount h) k.payload (payloadOk k h)
      (∀ h, checkHeader k.header = .clean h →
        (p.takes h = true → exec (.longPacket c k u) s = .next (v.takePart c (part h))) ∧
        (p.takes h = false → exec (.longPacket c k u) s = .next
          (v.updCsi c fun p => { p with ignored := satAdd 32 p.ignored 1 }))) ∧
      (∀ h, checkHeader k.header = .corrected h →
        (p.takes h = true → exec (.longPacket c k u) s = .next (w.takePart c (part h))) ∧
        (p.takes h = false → exec (.longPacket c k u) s = .next
          (w.updCsi c fun p => { p with ignored := satAdd 32 p.ignored 1 }))) ∧
      (checkHeader k.header = .uncorrectable → exec (.longPacket c k u) s = .next (v.takePart c { cls := .damaged 4 }))) ∧
    (∀ (c : CsiId) (x : Part),
      (s.portTakes c = true → s.takePart c x =
        (((s.partStamp c).2.updCsi c fun q =>
          { q with
            index := q.index + 1, lineStart := none
            omitted := satAdd 32 q.omitted (bit ((s.pat.intkPort c.val).lineStart && s.intake.port[c].lineStart.isNone))
            damaged := satAdd 32 q.damaged (bit x.cls.damagedCause.isSome) }).deliverPart c s.intake.port[c].index (some x)
              (s.partStamp c).1 false).settle) ∧
      (s.portTakes c = false → s.takePart c x = s)) ∧
    (∀ c : CsiId, s.portTakes c = true → exec (.csiClockLoss c) s = .next
      ((((s.partStamp c).2.updCsi c fun p => { p with index := p.index + 1, lineStart := none }).deliverPart c
        s.intake.port[c].index none (s.partStamp c).1 true).settle)) ∧
    (∀ l rest, s.intake.asm = l :: rest → 4 * 10 ^ 12 ≤ (s.clock - l.firstAt) * s.pat.dlin.lMax →
      exec .lineAssemblyTimeout s = .next (s.closeLine l).settle) ∧
    (∀ l rest, s.intake.done = l :: rest → s.running = true → ∃ w : State,
      w = { s with intake := { s.intake with done := rest } }.overwrite l.seq ∧
      exec .lineJournaled s = .next
        (([0, 1].foldl (fun (s : State) (side : Fin 2) => s.expectHalo side l.seq)
          (let l' := { l with flags := w.journalFlags l, atClock := w.clock, seen := w.sentinelScreens }
           (w.putLine l').sendHalos l')).feedInOrder).settle)

/-- R183, R186, R189, R192, R303, R305: a swath that the sentinel takes is screened whole and forms its windows unless
it is muted; an array's full drift block goes to its tracker; a watch tick corrects and screens its line, wakes the
device for the macro of the first patch at or above the threshold (the model's choice, log 136), and takes an empty
line as R190 has it. -/
def Obligations.SentinelCompletes : Prop :=
  ∀ s : State,
    (∀ k ls, s.nextSwath = some (k, ls) → s.sentinelScreens = true →
      let r := s.screenSwath ls
      let w := ((r.2.swathSweep k).markScreened k).passSwath k
      exec .swathScreened s = .next (if swathMuted ls then w else w.formWindows k ls r.1).settle) ∧
    (∀ (x : ArrayId) b rest, s.sentinel.arrays[x].full = b :: rest → ∃ t, exec (.driftTrackerBlock x) s = .next t ∧
      t.sentinel.arrays[x].full = rest ∧
      t.sentinel.arrays[x].dO = (s.sentinel.arrays[x].track (arrayCols x) b).dO ∧
      t.sentinel.arrays[x].dG = (s.sentinel.arrays[x].track (arrayCols x) b).dG ∧
      ∀ y : ArrayId, y ≠ x → t.sentinel.arrays[y] = s.sentinel.arrays[y]) ∧
    (∀ (c : CsiId) pixels, s.watchPort = some c → s.watching = true →
      s.sentinel.watchTick < s.time.wall / (10 * msPs) →
      let v := { s with sentinel := { s.sentinel with watchTick := s.time.wall / (10 * msPs) } }
      let w := v.checkFlat v.intake.coefBank
      let line := w.watchLine c pixels
      let r := w.confidences line.length (List.replicate 16 line)
      (pixels = [] → exec (.watchTick pixels) s = .next v.settle) ∧
      (pixels ≠ [] → exec (.watchTick pixels) s = .next
        (match r.1.findIdx? fun l => decide (r.2.sentinel.threshold ≤ l) with
        | some p => r.2.watchWake (((r.2.pat.sntl.replicas 0).getD
            (p % max 1 (r.2.pat.sntl.replicas 0).length) 0).val)
        | none => r.2).settle))

/-- R90, R295, R302, R413: counting closes at P_f and the build takes its votes (log 44); the build's end freezes the
tables and drops them; a table whose bits changed, found by its tensor id (log 45), asserts FAULT_N; and the
calibration window ends, with what a cold start has gathered staged and committed (log 46). -/
def Obligations.TablesComplete : Prop :=
  ∀ s : State, s.running = true →
    (∀ pf, s.tables.counting = true → s.tables.pf = some pf → reached s.position pf = true →
      exec .tableFreeze s = .next
        (({ s with tables := { s.tables with counting := false, building := true } }).addVotes .build buildDomains
          false).settle) ∧
    (s.tables.building = true → exec .tableBuildComplete s = .next
      (({ s with tables := { s.tables with
        store := s.tables.store.map CodeTable.freeze
        building := false
        keptDefaults := (s.tables.store.map CodeTable.freeze).countP CodeTable.keptDefault } }).dropVotes .build
          buildDomains false).settle) ∧
    (∀ damaged, let w := damaged.foldl State.damageTable s
      let bad := w.tables.store.filter fun c => c.made && (c.damaged || lensCrc c.lens != c.crc)
      exec (.tableCrcCheck damaged) s = .next
        (bad.foldl (fun s c => (State.detect s 5 0 c.tid c.tid).2.assertFault) w).settle ∧
      (bad ≠ [] → ∃ t, exec (.tableCrcCheck damaged) s = .next t ∧ t.pins.fault = true)) ∧
    (s.tables.windowOpen = true → s.windowOver = true →
      let w := { s with tables := { s.tables with windowOpen := false } }
      let v := if s.adm.warm then w
        else ({ w with
          sentinel := { s.sentinel with arrays := s.sentinel.arrays.map CimArray.switchTrims } }).adoptStaged.requestCommit .record
      exec .calibrationWindowEnd s = .next
        (((if v.isMaster && v.role != 0 then { v with bolt := { v.bolt with calWanted := true } } else v).controlEvent
          2).raiseEntry 4).settle)

/-! ### Panels -/

/-- R228, R230, R231, R239: the moves of a panel that issues. R272: a STREAMW waits while HBM is not on. -/
def Obligations.PanelMovesComplete : Prop :=
  ∀ (p : PanelId) (u : List Upset) (s s' : State) (t : Nat),
    (∀ a d tg x off, Issues s p u (.loadt a d tg x off) t s' →
      exec (.loadt p u) s = .next (issued p (s'.loadTile p a d tg x off))) ∧
    (∀ a d, Issues s p u (.storet a d) t s' →
      ((s'.pat.tile a).form = 0 ∧ (s'.pat.tile d).form = 1 →
        exec (.storet p u) s = .next (issued p ((s'.readTile p a).2.encodeTile p d (s'.readTile p a).1))) ∧
      (¬ ((s'.pat.tile a).form = 0 ∧ (s'.pat.tile d).form = 1) →
        exec (.storet p u) s = .next (issued p (s'.loadTile p a d 0 0 0)))) ∧
    (∀ a d tg x off, s.isOn domHbm = true → Issues s p u (.streamw a d tg x off) t s' →
      exec (.streamw p u) s = .next (issued p (s'.streamTile p t a d tg x off))) ∧
    (s.isOn domHbm = false → exec (.streamw p u) s = .next s) ∧
    (∀ a, Issues s p [] (.pin a) t s' →
      let r := (s'.pat.tile a).range s'.panels[p].seq.loops
      let n := ceilDiv (r.2 - r.1) 4096
      ((s'.pinOf r.1 r.2).isSome = true ∨ (s'.freeLines.take n).length < n →
        exec (.pin p) s = .next (issued p s')) ∧
      (s'.pinOf r.1 r.2 = none → (s'.freeLines.take n).length = n →
        exec (.pin p) s = .next (issued p { s' with commons := { s'.commons with
          pins := s'.commons.pins ++ [{ lo := r.1, hi := r.2, lines := s'.freeLines.take n, panel := p.val }] } }))) ∧
    (∀ a, Issues s p [] (.free a) t s' →
      let r := (s'.pat.tile a).range s'.panels[p].seq.loops
      exec (.free p) s = .next (issued p (s'.release r.1 r.2))) ∧
    (∀ a d i g tr, Issues s p u (.combine a d i g tr) t s' →
      exec (.combine p u) s = .next (issued p (s'.combineTile p t a d i g tr)))

/-- R105, R230, R239, R421, R424, R425: what ends by itself: the fill under way that ends first, which is the one of
the lowest completion cycle (log 122), a refill, a tree's reduction and a repair, which clears the word's stored error
(log 29) and waits while the flash part stays busy. -/
def Obligations.FillsAndTreesComplete : Prop :=
  ∀ s : State,
    (∀ q u, s.nextFill = some q →
      let r := (s.upsets 0 u).readHbm q.lo (q.hi - q.lo)
      let x := r.2.2.poisonOf r.2.1
      let w := x.2.markReaders q x.1
      (q.freeing = true → exec (.streamFillComplete u) s = .next
        { w with commons := { w.commons with pins := w.commons.pins.erase q } }.settle) ∧
      (q.freeing = false → exec (.streamFillComplete u) s = .next
        ((w.fillLines q 0 r.1).updPin q.lo q.hi fun q =>
          { q with st := .filled, poison := x.1, readers := [] }).settle)) ∧
    (∀ q, s.commons.pins.find? (!·.bad.isEmpty) = some q → exec .streamLineRefill s = .next (s.refillLine q).settle) ∧
    (∀ (tree : Fin 16) t, (s.commons.trees.find? fun t => t.id == tree.val && decide (t.g ≤ t.parts.length)) = some t →
      exec (.combineTreeComplete tree) s = .next (s.reduceTree t).settle ∧
      (s.reduceTree t).commons.trees.all (·.id != t.id) = true) ∧
    (∀ w b rest, s.hbm.repairs = (w, b) :: rest → s.adm.flashWaiting = true →
      ∀ ok, exec (.hbmRepairComplete ok) s = .next s) ∧
    (∀ w b rest, s.hbm.repairs = (w, b) :: rest → s.adm.flashWaiting = false →
      let v := { s with hbm := { s.hbm with repairs := rest } }
      exec (.hbmRepairComplete true) s = .next
        (({ v with
          hbm := { v.hbm with errors := v.hbm.errors.filter (·.1 != w) }
          faults := { v.faults with repairs := satAdd 32 v.faults.repairs 1 } }.refillWord w).clearHolds 3
            (· == w)).dropRepairVotes.settle ∧
      exec (.hbmRepairComplete false) s = .next
        (((v.detect 0x23 (v.pat.hbmRegion w) (32 * w) w).2.assertFault.closeHeld 3 w).dropRepairVotes).settle)

/-- R232, R234, R235: the matrix instructions of a panel that issues. -/
def Obligations.PanelMatricesComplete : Prop :=
  ∀ (p : PanelId) (u : List Upset) (s s' : State) (t : Nat),
    (∀ x b tog clear fa fb k oa ob, Issues s p u (.mm x b tog clear fa fb k oa ob) t s' →
      exec (.mm p u) s = .next (issued p
        (s'.updPanel p fun y => y.matmul x (bankOf b tog s'.panels[p].seq.loops) clear fa fb k oa ob))) ∧
    (∀ x b tog tgt d, Issues s p u (.drain x b tog tgt d) t s' →
      exec (.drain p u) s = .next (issued p (s'.drainBank p x (bankOf b tog s'.panels[p].seq.loops) tgt d))) ∧
    (∀ lat bits sgn width a d row col, Issues s p u (.cimv lat bits sgn width a d row col) t s' →
      exec (.cimv p u) s = .next (issued p (s'.latticeTile p lat bits sgn width a d row col)))

/-- R213, R217: the elementwise instructions of two operands and of one: INT32 with saturation in class 0, FP32
otherwise; both operands are read in the order S1, S2, and D takes the results. R219, R220: the functions of one FP32
operand, VDIV and VLEAKY. VCVT converts the exact value of its source in either class (log 31), and a value that no INT32
holds exactly is rounded for the integer class (log 145). -/
def Obligations.ElementwiseInstructionsComplete : Prop :=
  ∀ (p : PanelId) (u : List Upset) (s s' : State) (t : Nat),
    (∀ x ∈ binaryOps, ∀ d a b away cls imm, Issues s p u (.vector x.1 d a b away cls imm) t s' →
      let v := s'.readSource p a d
      let w := v.2.readSource p b d
      exec (x.2.1 p u) s = .next (issued p (w.2.writeValues p d (away == 1)
        (if cls = 0 then ofInts ((v.1.zip w.1).map fun (m, n) => sat32 (x.2.2.1 (asInt m) (asInt n)))
          else ofFloats ((v.1.zip w.1).map fun (m, n) => x.2.2.2 (asFloat m) (asFloat n)))))) ∧
    (∀ x ∈ unaryOps, ∀ d a b away cls imm, Issues s p u (.vector x.1 d a b away cls imm) t s' →
      let v := s'.readSource p a d
      exec (x.2.1 p u) s = .next (issued p (v.2.writeValues p d (away == 1)
        (if cls = 0 then ofInts (v.1.map fun m => sat32 (x.2.2.1 (asInt m)))
          else ofFloats (v.1.map fun m => x.2.2.2 (asFloat m)))))) ∧
    (∀ d a b away cls imm, Issues s p u (.vector 0x27 d a b away cls imm) t s' →
      let v := s'.readSource p a d
      exec (.vcvt p u) s = .next (issued p (v.2.writeValues p d (away == 1) v.1))) ∧
    (∀ x ∈ functionOps, ∀ d a b away cls imm, Issues s p u (.vector x.1 d a b away cls imm) t s' →
      let v := s'.readSource p a d
      exec (x.2.1 p u) s = .next (issued p (v.2.writeValues p d (away == 1)
        (ofFloats (v.1.map fun m => x.2.2 (asFloat m)))))) ∧
    (∀ d a b away cls imm, Issues s p u (.vector 0x2F d a b away cls imm) t s' →
      let v := s'.readSource p a d
      let w := v.2.readSource p b d
      exec (.vdiv p u) s = .next (issued p (w.2.writeValues p d (away == 1)
        (ofFloats ((v.1.zip w.1).map fun (m, n) => fdiv (asFloat m) (asFloat n)))))) ∧
    (∀ d a b away cls imm, Issues s p u (.vector 0x36 d a b away cls imm) t s' →
      let v := s'.readSource p a d
      exec (.vleaky p u) s = .next (issued p (v.2.writeValues p d (away == 1)
        (ofFloats (v.1.map fun m => fleaky (bfloat imm) (asFloat m))))))

/-- R218, R221, R222, R223: requantising, infinities included (log 24), the table look-up, with the words of VQ as indices
(log 146), and the reductions, softmax and normalisation of rows, a row being S1's innermost dimension (log 26). -/
def Obligations.TableAndRowInstructionsComplete : Prop :=
  ∀ (p : PanelId) (u : List Upset) (s s' : State) (t d a b away cls imm : Nat),
    (Issues s p u (.vector 0x28 d a b away cls imm) t s' →
      let q := s'.readBytes p b
      let v := q.2.readSource p a d
      let n := q.1.length / 8
      exec (.vreq p u) s = .next (issued p (v.2.writeValues p d (away == 1) (v.1.zipIdx.map fun (m, i) =>
        let e := 8 * (if n = 0 then 0 else i % n)
        requant (v.2.pat.tile d).fmt (away == 1) (if cls = 0 then Num.ofInt (asInt m) else fval (asFloat m))
          (sAt q.1 e 4) (uAt q.1 (e + 4) 1) (sAt q.1 (e + 6) 2))))) ∧
    (Issues s p u (.vector 0x29 d a b away cls imm) t s' →
      let w := s'.readSource p b d
      let v := w.2.readSource p a d
      exec (.vlut p u) s = .next (issued p (v.2.writeValues p d (away == 1) (v.1.map fun m =>
        w.1.getD (asInt m + (if (v.2.pat.tile a).fmt = fmtI8 then 128 else 0)).toNat (Num.ofInt 0))))) ∧
    (Issues s p u (.vector 0x38 d a b away cls imm) t s' →
      let v := s'.readSource p a d
      let k := (v.2.pat.tile a).e dimK
      exec (.vsumr p u) s = .next (issued p (v.2.writeValues p d (away == 1)
        (if cls = 0 then ofInts ((rowsOf k (v.1.map asInt)).map (reduceRow (fun m n => sat32 (m + n)) 0))
          else ofFloats ((rowsOf k (v.1.map asFloat)).map fsumr))))) ∧
    (Issues s p u (.vector 0x39 d a b away cls imm) t s' →
      let v := s'.readSource p a d
      let k := (v.2.pat.tile a).e dimK
      exec (.vmaxr p u) s = .next (issued p (v.2.writeValues p d (away == 1)
        (if cls = 0 then ofInts ((rowsOf k (v.1.map asInt)).map (reduceRow max (-2147483648)))
          else ofFloats ((rowsOf k (v.1.map asFloat)).map fmaxr))))) ∧
    (Issues s p u (.vector 0x3A d a b away cls imm) t s' →
      let v := s'.readSource p a d
      exec (.vsmax p u) s = .next (issued p (v.2.writeValues p d (away == 1)
        (ofFloats ((rowsOf ((v.2.pat.tile a).e dimK) (v.1.map asFloat)).flatMap fsoftmax))))) ∧
    (Issues s p u (.vector 0x3B d a b away cls imm) t s' →
      let g := s'.readSource p b d
      let v := g.2.readSource p a d
      let k := (v.2.pat.tile a).e dimK
      exec (.vnorm p u) s = .next (issued p (v.2.writeValues p d (away == 1) (ofFloats
        ((rowsOf k (v.1.map asFloat)).flatMap
          (fnormal (bfloat imm) ((g.1.map asFloat).take k) ((g.1.map asFloat).drop k)))))))

/-- R226, R240, R241, R242, R249: NOP, LOOP, SIGK, WAITK, VOTE and UNVOTE of a panel, and an increment that arrives at its
counter once its cycle has come. -/
def Obligations.PanelControlCompletes : Prop :=
  ∀ (q : UnitId) (p : PanelId) (s s' : State) (t : Nat), panelOf q = some p →
    (∀ n, Issues s p [] (.nop n) t s' → exec (.nop q) s = .next (issued p s')) ∧
    (∀ n len, Issues s p [] (.loop n len) t s' → exec (.loop q) s = .next (issued p
      (s'.updPanel p fun x => { x with seq := { x.seq with
        loops := { count := n, idx := 0, first := x.seq.pc + 1, last := x.seq.pc + len } :: x.seq.loops } }))) ∧
    (∀ target k inc, Issues s p [] (.sigk target k inc) t s' →
      exec (.sigk q) s = .next (issued p (s'.sendToken (s'.shared p t) target k inc))) ∧
    (∀ k n, Issues s p [] (.waitk k n) t s' →
      (n ≤ s.panels[p].seq.tokens.getD k 0 → exec (.waitk q) s = .next (issued p
        (s'.updPanel p fun x => { x with seq := { x.seq with
          tokens := x.seq.tokens.modify k (· - n), came := takeCount x.seq.came k n } }))) ∧
      (s.panels[p].seq.tokens.getD k 0 < n → exec (.waitk q) s = .next s)) ∧
    (∀ d, Issues s p [] (.vote d) t s' → exec (.vote q) s = .next (issued p (s'.addVote (.panel q.val) d false))) ∧
    (∀ d, Issues s p [] (.unvote d) t s' →
      exec (.unvote q) s = .next (issued p (s'.dropVote (.panel q.val) d false))) ∧
    (∀ k n c rest, s.panels[p].seq.flying = (k, n, c) :: rest →
      (c ≤ s.own p s.cycleNow → exec (.tokenArrival q) s = .next
        (s.updPanel p fun x => { x with seq := { x.seq with
          flying := rest, came := x.seq.came ++ [(k, n, c)]
          tokens := x.seq.tokens.modify k fun v => (v + n) % 65536 } })) ∧
      (s.own p s.cycleNow < c → exec (.tokenArrival q) s = .next s))

/-- R226, R240, R241, R242, R251, R466: the same for the control sequencer, and its HALT, PLLSW, which joins the PLL at once
where the core clock runs, and WAITE. -/
def Obligations.ControlSequencerCompletes : Prop :=
  ∀ (q : UnitId) (s : State), panelOf q = none →
    (∀ n, s.fetchControl = some (.nop n) → exec (.nop q) s = .next (stepped s).settle) ∧
    (∀ n len, s.fetchControl = some (.loop n len) → exec (.loop q) s = .next
      ((stepped s).updControl fun x => x.pushLoop s.control.seq.pc n len).settle) ∧
    (∀ target k inc, s.fetchControl = some (.sigk target k inc) →
      exec (.sigk q) s = .next ((stepped s).sendToken (stepped s).nextCycle target k inc).settle) ∧
    (∀ k n, s.fetchControl = some (.waitk k n) →
      (n ≤ s.control.seq.tokens.getD k 0 →
        exec (.waitk q) s = .next ((stepped s).updControl fun x => x.consume k n).settle) ∧
      (s.control.seq.tokens.getD k 0 < n → exec (.waitk q) s = .next s)) ∧
    (∀ d, s.fetchControl = some (.vote d) → exec (.vote q) s = .next ((stepped s).addVote .control d false).settle) ∧
    (∀ d, s.fetchControl = some (.unvote d) →
      exec (.unvote q) s = .next ((stepped s).dropVote .control d false).settle) ∧
    (∀ k n c rest, s.control.seq.flying = (k, n, c) :: rest →
      (c ≤ s.cycleNow → exec (.tokenArrival q) s = .next (s.updControl fun x =>
        { x with
          flying := rest, came := x.came ++ [(k, n, c)], tokens := x.tokens.modify k fun v => (v + n) % 65536 })) ∧
      (s.cycleNow < c → exec (.tokenArrival q) s = .next s)) ∧
    (s.fetchControl = some .halt → exec (.halt q) s = .next
      ((((stepped s).updControl fun x => { x with active := false, halted := true }).dropVote .controlSelf domControl
        false).startPending).settle) ∧
    (s.fetchControl = some .pllsw → let w := (stepped s).requestPll
      (w.power.locked = true ∧ w.power.coreMhz ≠ 0 → exec .pllsw s = .next
        ({ w with control := { w.control with wantPll := false, onPll := true } }).settle) ∧
      (¬ (w.power.locked = true ∧ w.power.coreMhz ≠ 0) → exec .pllsw s = .next
        ({ w with control := { w.control with wantPll := true } }).settle)) ∧
    (∀ mask, s.fetchControl = some (.waite mask) → let w := stepped s
      let m : BitVec 5 := BitVec.ofNat 5 mask
      (m &&& w.control.events ≠ 0 →
        exec .waite s = .next ({ w with control := { w.control with events := 0 } }).settle) ∧
      (m &&& w.control.events = 0 → exec .waite s = .next
        (({ w with control := { w.control with waiting := some m } }).dropVote .controlSelf domControl false).settle))

/-- R242, R243, R245, R310, R313, R314: a panel's HALT, SLOT and VERDICT, the end of a slot's body, and the spans of a
group. -/
def Obligations.SlotsAndSpansComplete : Prop :=
  ∀ (p : PanelId) (s s' : State) (t : Nat),
    (∀ q, panelOf q = some p → Issues s p [] .halt t s' →
      let w := issued p (s'.updPanel p fun x => { x with seq := { x.seq with halted := true } })
      exec (.halt q) s = .next (if w.panels[p].seq.halted && !s.panels[p].seq.halted then
        (w.groupHalted (s.pat.groupOf p.val)).settle else w)) ∧
    (∀ id len cost, s.fetchPanel p = some (.slot id len cost) →
      ((s.group (s.pat.groupOf p.val)).ending = false → s.runBusy p id = false →
        s.issuePanel p (.slot id len cost) = some (t, s') →
        exec (.slot p) s = .next (s'.joinRun p id len cost t).settle) ∧
      ((s.group (s.pat.groupOf p.val)).ending = true → exec (.slot p) s = .next
        ((s.updPanel p fun x => { x with seq := { x.seq with active := false } }).finishSpan
          (s.pat.groupOf p.val)).settle)) ∧
    (∀ a b c, s.panels[p].span = some (a, b, c) → s.panels[p].seq.active = true → s.panels[p].seq.pc = b →
      ∃ u, exec (.slotSpanEnd p) s = .next u ∧ u = s.leaveSlot p b c) ∧
    (∀ a u, Issues s p u (.verdict a) t s' → exec (.verdict p u) s = .next
      (issued p ((s'.verdictBytes p a).2.verdict p (s'.verdictBytes p a).1))) ∧
    (∀ g, s.running = true → (s.group g).starting = true → s.pat.groupPanels g ≠ [] →
      ((s.pat.groupPanels g).all fun n => s.isOn (domPanel n.val)) = true →
      exec (.spanStart g) s = .next ((s.restartGroup g).updGroup g fun x =>
        { x with
          starting := false, inSpan := true, ending := false, run := none
          busyWall := s.time.wall })) ∧
    (∀ g, s.running = true → (s.group g).inSpan = true → (s.group g).ending = false → s.onDuty g = false →
      s.windowPending = false → hystPassed (s.groupHyst g) (max (s.group g).busyWall s.look.pendingWall) s.time.wall = true →
      exec (.spanEnd g) s = .next (s.endSpan g).settle)

/-! ### History -/

/-- R297, R298, R321, R323, R409, R410, R426: the views and segments of the local engine: a view's fill, a seal, an
expiry and a drop. -/
def Obligations.HistoryCompletes : Prop :=
  ∀ s : State,
    (∀ tag u w h, s.look.ledger.find? (·.tag == tag) = some w → s.pat.hist = some h → w.st = .waiting →
      exec (.viewFillComplete tag u) s = .next (let r := s.fillView h w u
        { r.2 with look := { r.2.look with
          ledger := updFirst (fun x : Window => x.tag == tag) (fun _ => r.1) r.2.look.ledger } }.wakeGroups).settle) ∧
    (∀ tag u w h, s.look.ledger.find? (·.tag == tag) = some w → s.pat.hist = some h → w.st = .held →
      w.holdOn = 0 ∨ w.holdKeys = [] →
      (s.refillLost w = true → exec (.viewFillComplete tag u) s = .next (s.closeWindow tag 4 3 0 w.ownFlags).settle) ∧
      (s.refillLost w = false → exec (.viewFillComplete tag u) s = .next (let r := s.fillView h w u
        { r.2 with look := { r.2.look with
          ledger := updFirst (fun x : Window => x.tag == tag) (fun _ => r.1) r.2.look.ledger } }.wakeGroups).settle)) ∧
    (∀ start h, s.pat.hist = some h → s.running = true → s.web.lost = false → h.startAt start = start →
      reached s.position (s.sealAt h start) = true → reached s.history.readyPos (s.sealAt h start) = false →
      ((s.segment 0 start).map (·.sealed_)).getD false = false → reached s.position (h.expiryOf start) = false →
      exec (.segmentSeal start) s = .next (s.sealSegment h start)) ∧
    (∀ start x, let w := s.setSegs fun l => l.filter fun x =>
        !(x.side != 0 && x.start == start && reached s.position x.expiry)
      s.running = true → w.segment 0 start = some x → x.sealed_ = true → x.noticed = false →
      reached w.position x.expiry = true →
      exec (.segmentExpiry start) s = .next ((w.putSegment { x with noticed := true }).sendNotices x)) ∧
    (∀ start x, s.running = true → s.segment 0 start = some x →
      reached s.position (x.expiry + BitVec.ofNat 48 (s.graceAt s.position)) = true →
      exec (.homeSegmentDrop start) s = .next
        (s.setSegs fun l => l.filter fun y => !(y.side == 0 && y.start == start)))

/-! ### The event port -/

/-- R334, R337, R338, R341 to R343: a selected command of the event port, with its domain on where it needs it, drives
its answer; a read marks its records as returned, and an acknowledgement releases what was returned before T_end. The
answer to an acknowledgement is taken after the release and after the LOSS record that it may make room for (log 97).
A station that is not selected drives nothing. -/
def Obligations.EventPortAnswers : Prop :=
  ∀ (st : Byte) (s : State),
    (s.selected st = true →
      (∀ n : Byte, s.isOn domEvent = true → let b := s.events.queue.take n.toNat
        ∃ t, exec (.readEvents st n) s = .next t ∧ t.port.response = s.readResponse n.toNat ∧
          t.events.queue = b.map (fun x => { x with returned := true }) ++ s.events.queue.drop n.toNat ∧
          (b = [] → t.events.returned = s.events.returned) ∧
          (b ≠ [] → t.events.returned = ((t.events.queue.filter (·.returned)).getLast?).map (·.ticket)) ∧
          t = { s with
            port := t.port, events := { s.events with queue := t.events.queue, returned := t.events.returned } }) ∧
      (∀ tEnd, s.isOn domEvent = true → exec (.acknowledgeAndDrain st tEnd) s = .next
        ((s.drain tEnd).respond (withCrc (0x5A#8 ::
          (leBytes 2 (s.drain tEnd).events.oldest.toNat ++ leBytes 2 (s.drain tEnd).events.queue.length))))) ∧
      (∀ tEnd, s.drain tEnd = ({ s with events := { s.events with queue := s.events.queue.filter fun x =>
        !(x.returned && decide (0 < (tEnd - s.events.oldest).toInt) &&
          decide (x.ticket - s.events.oldest < tEnd - s.events.oldest)) } }).tryLoss.settle) ∧
      (∀ page : Byte, s.isOn domEvent = true → exec (.readStatus st page) s = .next
        (s.respond (withCrc (0x5A#8 :: s.statusPage page.toNat)))) ∧
      exec (.identity st) s = .next (s.respond (withCrc (0x5A#8 :: s.identityBlock))) ∧
      exec (.livePositionLowHalf st) s = .next ({ s with port := {
        latch := (s.position >>> 24).setWidth 24, response := 0x5A#8 :: leBytes 3 s.position.toNat } }) ∧
      exec (.livePositionHighHalf st) s = .next (s.respond (0x5A#8 :: leBytes 3 s.port.latch.toNat)) ∧
      exec (.atomicPositionSnapshot st) s = .next (s.respond (withCrc (0x5A#8 ::
        (leBytes 6 s.position.toNat ++ leBytes 5 s.timestamp.toNat ++ leBytes 1 s.liveFlags))))) ∧
    (s.selected st = false → ∀ (n : Byte) (tEnd : BitVec 16), ∀ c ∈ [.readEvents st n, .acknowledgeAndDrain st tEnd,
      .readStatus st n, .identity st, .livePositionLowHalf st, .livePositionHighHalf st, .atomicPositionSnapshot st],
        exec c s = .next (s.respond []))

/-- R335: a command that the event domain serves, met while that domain is not on, is answered 0xC3 and raises the
event port wake; those that the thimble serves never are. -/
def Obligations.SleepingEventDomainAnswersBusy : Prop :=
  ∀ (st : Byte) (s : State), s.selected st = true → s.isOn domEvent = false →
    (∀ (n : Byte) (tEnd : BitVec 16), ∀ c ∈ [.readEvents st n, .acknowledgeAndDrain st tEnd, .readStatus st n],
      exec c s = .next (((s.respond [0xC3#8]).raiseWake 0x11 (s.station.getD 0) [domEvent]).settle)) ∧
    ∀ c ∈ [.identity st, .livePositionLowHalf st, .livePositionHighHalf st, .atomicPositionSnapshot st],
      ∃ t, exec c s = .next t ∧ t.port.response ≠ [0xC3#8] ∧ t = { s with port := t.port }

/-- R339: a transaction cut short: what needs a whole byte that did not arrive has not happened; 0x21 loads the latch
with its command byte, T_end releases once it is whole, its answer taken after the release and the LOSS record that
may follow it (log 97), and records clocked out whole count as returned. R334: the bytes clocked past a response's end
read 0. R335: a command that the event domain serves, cut short while that domain is not on, is answered 0xC3 and
raises the wake. -/
def Obligations.CutTransactionsComplete : Prop :=
  ∀ (st : Byte) (k m : Nat) (s : State),
    (∃ t, exec (.transactionCutShort [] k m) s = .next t ∧ t = { s with port := { s.port with response := [] } }) ∧
    (∃ t, exec (.transactionCutShort [st] k m) s = .next t ∧ t = { s with port := { s.port with response := [] } }) ∧
    (s.selected st = true → s.isOn domEvent = true →
      (∀ args, ∃ t, exec (.transactionCutShort (st :: 0x21#8 :: args) k m) s = .next t ∧
        t.port.latch = (s.position >>> 24).setWidth 24 ∧ t = { s with port := t.port }) ∧
      (∀ lo : Byte, exec (.transactionCutShort [st, 0x0E#8, lo] k m) s = .next (s.respond [])) ∧
      (∀ lo hi args, ∃ t, exec (.transactionCutShort (st :: 0x0E#8 :: lo :: hi :: args) k m) s = .next t ∧
        let w := s.drain (BitVec.ofNat 16 (leNat [lo, hi]))
        t.events = w.events ∧ t.port.response = (withCrc (0x5A#8 :: (leBytes 2 w.events.oldest.toNat ++
          leBytes 2 w.events.queue.length)) ++ List.replicate (m - 7) 0).take m) ∧
      (∀ n : Byte, ∃ t, exec (.transactionCutShort [st, 0x0B#8, n] k m) s = .next t ∧
        t.events = (s.markReturned (min n.toNat ((m - 4) / 32))).events)) ∧
    (s.selected st = true → s.isOn domEvent = false → ∀ c ∈ [0x0B#8, 0x0E#8, 0x05#8],
      let w := ((s.respond [0xC3#8]).raiseWake 0x11 (s.station.getD 0) [domEvent]).settle
      exec (.transactionCutShort [st, c] k m) s = .next (w.respond []) ∧
      ∀ n rest, exec (.transactionCutShort (st :: c :: n :: rest) k m) s = .next
        (w.respond (([0xC3#8] ++ List.replicate (m - 1) 0).take m)))

/-- R329, R516: once the event domain is on, every record held in the thimble enters the queue in its order, ahead of any
record formed later, and the thimble holds none; the records' numbers run on. -/
def Obligations.HeldRecordsEnter : Prop :=
  ∀ s : State, s.isOn domEvent = true → ∃ t, exec .heldRecordEntry s = .next t ∧
    t = ((s.events.held.foldl State.enterOne { s with events := { s.events with held := [] } }).tryLoss).settle ∧
    (s.dropToNote = none → s.role ≠ 1 → s.role ≠ 3 → s.events.loss.discarded = 0 →
      (s.events.held.all fun r => !r.flags.getLsbD 2 && r.type != 7) = true →
      s.events.ordinary + s.events.held.length ≤ 8191 →
        t.events.held = [] ∧ t.events.queue.map (·.record.type) =
          s.events.queue.map (·.record.type) ++ s.events.held.map (·.type) ∧
        t.events.nextSeq = s.events.nextSeq + BitVec.ofNat 32 s.events.held.length ∧
        t.events.nextTicket = s.events.nextTicket + BitVec.ofNat 16 s.events.held.length)

/-! ### Seam links -/

/-- R357 to R360, R378: training goes from DETECT to ACTIVE by its states, and fails with cause 1, 2, 3 or 4. The round trip
ρ is kept in whole nanoseconds, the largest of the sixteen rounded (log 20). -/
def Obligations.TrainingCompletes : Prop :=
  ∀ (q : SeamId) (s : State),
    (s.seams[q].link = .detect → s.power.seamclk = true → exec (.linkSignalDetect q) s = .next
      (s.updSeam q fun p => { p.enter .lock s.clock with leftDetect := some s.clock })) ∧
    (s.seams[q].link = .standby ∨ s.seams[q].link = .off → exec (.linkSignalDetect q) s = .next
      (s.raiseWake 0x12 q.val [domSeam q.val]).settle) ∧
    (∀ inv, s.seams[q].link = .lock → exec (.laneLock q inv) s = .next
      (s.updSeam q fun p => { p.enter .identify s.clock with inverted := inv })) ∧
    (∀ (lanes : List Nat) (partner : Fin 4), s.seams[q].link = .identify →
      ((lanes = [0, 1, 2, 3] ∨ lanes = [3, 2, 1, 0]) → partner = oppositePort q →
        exec (.laneIdentify q lanes partner) s = .next
          (s.updSeam q fun p => { p.enter .deskew s.clock with reversed := lanes == [3, 2, 1, 0] })) ∧
      (lanes ≠ [0, 1, 2, 3] → lanes ≠ [3, 2, 1, 0] →
        exec (.laneIdentify q lanes partner) s = .next (s.failLink q 2).settle) ∧
      ((lanes = [0, 1, 2, 3] ∨ lanes = [3, 2, 1, 0]) → partner ≠ oppositePort q →
        exec (.laneIdentify q lanes partner) s = .next (s.failLink q 3).settle)) ∧
    (∀ skew, s.seams[q].link = .deskew → skew ≤ 20000 → exec (.laneDeskew q skew) s = .next
      (s.updSeam q fun p => p.enter (if p.quick && p.rho.isSome then .ready else .measure) s.clock)) ∧
    (∀ trips : List Nat, s.seams[q].link = .measure → trips.length = 16 →
      (64 * trips.foldl max 0 ≤ 6000 → exec (.roundTripMeasure q trips) s = .next (s.updSeam q fun p =>
        { p.enter .ready s.clock with rho := some ((rne ((64 * trips.foldl max 0 : Nat) : Int) 10).toNat) })) ∧
      (6000 < 64 * trips.foldl max 0 → exec (.roundTripMeasure q trips) s = .next (s.failLink q 4).settle)) ∧
    (s.seams[q].link = .ready → exec (.linkUp q) s = .next
      (((s.releaseHolds q).updSeam q fun p => p.comeUp s.clock).sendHello q)) ∧
    (s.seams[q].trainingExpired s.clock = true → exec (.trainingTimeout q) s = .next (s.failLink q 1).settle)

/-- R363, R371, R379: a data flit is taken only in sequence and with a good CRC; it then moves the expected number on
and clears NAK; another sets NAK and moves nothing. A null flit applies its fields only, and a link-control flit with
a bad CRC only sets NAK. An empty list of bytes stands for TRAIN blocks (log 22), and the instant of the first discard
is kept for the retry credit (log 124). -/
def Obligations.DataFlitsGoInSequence : Prop :=
  ∀ (q : SeamId) (f : Flit) (s : State), s.seams[q].link = .up →
    (f ≠ [] → flitGood f = false → exec (.dataFlit q f) s = .next
      (s.updSeam q fun p => { p with nak := true, nakSince := if p.nak then p.nakSince else s.clock })) ∧
    (f ≠ [] → flitGood f = true → flitKind f = 0 →
      let r := (s.applyFields q f).sequence q f
      (r.1 = decide (BitVec.ofNat 12 (uAt f 2 2) = (s.applyFields q f).seams[q].rxSeq)) ∧
      (r.1 = true → r.2.seams[q].rxSeq = (s.applyFields q f).seams[q].rxSeq + 1 ∧ r.2.seams[q].nak = false) ∧
      (r.1 = false → r.2.seams[q].rxSeq = (s.applyFields q f).seams[q].rxSeq ∧ r.2.seams[q].nak = true) ∧
      exec (.dataFlit q f) s = .next
        (if r.1 = true ∧ r.2.seams[q].link = .up then (r.2.assemble q f).settle else r.2.settle)) ∧
    (exec (.dataFlit q []) s = .next (s.failLink q 9).settle) ∧
    (flitGood f = true → flitKind f = 1 → exec (.nullFlit q f) s = .next (s.applyFields q f).settle) ∧
    (flitGood f = false → exec (.nullFlit q f) s = .next s ∧
      ∀ c ∈ [.sleep q f, .sleepAck q f, .stay q f, .wake q f], exec c s = .next
        (s.updSeam q fun p => { p with nak := true, nakSince := if p.nak then p.nakSince else s.clock }).settle)

/-- R368, R372, R373, R377, R379, R380, R471: the transmitter's slot, the retry timers, the failures of a link that is
up, the end of its idle, and the loss and return of SEAMCLK: at the return the failed ports that are voted on and
whose idle is over train from DETECT. -/
def Obligations.LinkTimersComplete : Prop :=
  ∀ (q : SeamId) (s : State),
    (s.seams[q].link = .up →
      exec (.flitSlot q) s = .next
        (let w := (s.freeSlots q).updSeam q fun p => (p.slot s.clock).noteStalls s.clock
         if s.seams[q].endsStep && w.seams[q].sleep != .none && w.seamWanted q then w.abortSleep q else w) ∧
      (∀ x rest, s.seams[q].retry = x :: rest → x.sentAt + usPs ≤ s.clock →
        (x.flit.seqNo ∉ s.seams[q].resend → exec (.retryTimeout q) s = .next (s.goBack q).settle) ∧
        (x.flit.seqNo ∈ s.seams[q].resend → exec (.retryTimeout q) s = .next s)) ∧
      (∀ e, s.seams[q].episode = some e → e.since + 2 * usPs ≤ s.clock →
        exec (.retryBudgetExpiry q) s = .next (s.failLink q 5).settle) ∧
      exec (.laneLockLost q) s = .next (s.failLink q 6).settle ∧
      exec (.signalLost q) s = .next (s.failLink q 7).settle ∧
      (∀ (vc : Fin 4) t, s.seams[q].stalled[vc] = some t → t + 100 * usPs ≤ s.clock →
        exec (.creditStall q vc) s = .next (s.failLink q 8).settle)) ∧
    (s.seams[q].link = .idleFailed → s.seams[q].stateSince + 10 * usPs ≤ s.clock →
      (s.votedOn (domSeam q.val) = true → exec (.failureIdleEnd q) s = .next
        (s.updSeam q fun p => { p with link := .detect, stateSince := s.clock })) ∧
      (s.votedOn (domSeam q.val) = false → exec (.failureIdleEnd q) s = .next s)) ∧
    (s.power.seamclk = true → exec .seamclkLoss s = .next
      (allPorts.foldl (fun (s : State) q => if s.seams[q].link.powered then s.failLink q 7 else s)
        { s with power := { s.power with seamclk := false } }).settle) ∧
    (s.power.seamclk = false → exec .seamclkReturn s = .next
      (allPorts.foldl (fun (s : State) q =>
        if s.votedOn (domSeam q.val) = true ∧ s.seams[q].link = .idleFailed ∧ s.seams[q].stateSince + 10 * usPs ≤ s.clock
        then s.updSeam q fun p => { p with link := .detect, stateSince := s.clock } else s)
        { s with power := { s.power with seamclk := true } }))

/-- R376, R377: the codes of link control: SLEEP is answered, SLEEP_ACK agrees the shallower target, STAY and WAKE
keep the link ACTIVE, and with both directions drained the link sleeps and its domain is in its low state; the link
then leaves the bolt (log 98). Data or a vote at an abort point sends WAKE. -/
def Obligations.SleepNegotiationCompletes : Prop :=
  ∀ (q : SeamId) (f : Flit) (s s' : State),
    (s.takeControl q f 1 = some (true, s') → s'.seams[q].link = .up →
      exec (.sleep q f) s = .next (s'.answerSleep q (uAt f 0xD 1)).settle) ∧
    (∀ t, s.takeControl q f 2 = some (true, s') → s'.seams[q].link = .up → s'.seams[q].sleep = .requested t →
      s'.seamWanted q = false → exec (.sleepAck q f) s = .next
        ((s'.updSeam q fun p => { p with sleep := .agreed (min t (max (uAt f 0xD 1) 1)) }).updDom (domSeam q.val)
          fun d => { d with st := .entering (min t (max (uAt f 0xD 1) 1) == 1) false }).settle) ∧
    (s.takeControl q f 3 = some (true, s') → s'.seams[q].link = .up → exec (.stay q f) s = .next
      ((s'.updSeam q fun p => { p with sleep := .none, stayed := true }).updDom (domSeam q.val)
        fun d => { d with st := .on }).settle) ∧
    (s.takeControl q f 4 = some (true, s') → s'.seams[q].link = .up → exec (.wake q f) s = .next
      ((s'.updSeam q fun p => { p with sleep := .none }).updDom (domSeam q.val)
        fun d => { d with st := .on, unvoted := s'.time.wall }).settle) ∧
    (∀ t, s.seams[q].link = .up → s.seams[q].sleep = .agreed t → s.seams[q].drained = true →
      s.seamWanted q = false → ∃ w, exec (.electricalIdleEntry q) s = .next w ∧
        w.seams[q].link = (if t = 1 then .standby else .off) ∧ w.bolt.links[q].inBolt = false ∧
        ((s.power.domains.any fun d => d.id == domSeam q.val) = true →
          w.dom (domSeam q.val) = if t = 1 then .retention else .off)) ∧
    (∀ t, s.seams[q].link = .up → s.seams[q].sleep = .agreed t → s.seams[q].drained = true →
      s.seamWanted q = true → exec (.electricalIdleEntry q) s = .next (s.abortSleep q))

/-! ### The bolt -/

/-- R384, R385, R405: a HELLO: the own address collides and leaves the bolt with reason 5, another failed check
excludes the link with its reason, and one that passes puts the link in the bolt. -/
def Obligations.HellosAdmitOrExclude : Prop :=
  ∀ (q : SeamId) (m : Message) (s s' : State), s.takeMessage q vcTick 0x01 = some (m, s') →
    (BitVec.ofNat 16 (uAt m.payload 0 2) = s'.address → ∃ t, exec (.hello q) s = .next t ∧
      t.bolt.links[q].inBolt = false ∧ t.bolt.mode = 3 ∧ t.bolt.reason = 5) ∧
    (∀ r, s'.helloCheck q m.payload = (false, r) → r ≠ 0 →
      exec (.hello q) s = .next (s'.excludeLink q r m.payload).settle ∧
      (s'.excludeLink q r m.payload).bolt.links[q].inBolt = false) ∧
    (s'.helloCheck q m.payload = (false, 0) →
      let l := s'.bolt.links[q]
      let v := s'.updLink q fun l => { l with inBolt := true, excluded := 0 }
      let w := if l.inBolt then v
        else if l.everIn then v.linkReturns q else v.updSeam q fun p => { p with failed := false }
      exec (.hello q) s = .next
        (if bitAt (uAt m.payload 0x1D 1) 0 && (portSide q).isSome then w.anchorLink q m.payload else w).settle)

/-- R383, R389, R393 to R395: HELLO by line count, the master's TICK, a correction step, a move of the follower, and
the loss of TICK. -/
def Obligations.BoltTimersComplete : Prop :=
  ∀ (q : SeamId) (s : State),
    (s.seams[q].link = .up → (portSide q).isSome = true →
      65536 ≤ seqDiff s.bolt.links[q].helloLine s.intake.nextSeq ∨ s.bolt.links[q].helloDue = true →
      exec (.helloPeriodic q) s = .next (s.sendHello q)) ∧
    (s.running = true → s.isMaster = true → s.role ≠ 0 → s.tickDue = true → ∃ t, exec .tickSend s = .next t ∧
      t.bolt.sendSeq = s.bolt.sendSeq + 1 ∧ t.bolt.sentTick = some s.clock ∧ t.bolt.moved = false ∧
      t = { s.broadcast vcTick 0x02 s.tickPayload with bolt := t.bolt }) ∧
    (s.running = true → s.followsTick = false → 256 ≤ s.bolt.sinceStep → 256 ≤ s.bolt.kappa → s.bolt.swallow = false →
      exec .correctionStep s = .next { s with bolt := { s.bolt with
        swallow := true, kappa := s.bolt.kappa - 256, steps := satAdd 32 s.bolt.steps 1, sinceStep := 0 } }) ∧
    (s.running = true → s.followsTick = false → 256 ≤ s.bolt.sinceStep → s.bolt.kappa ≤ -256 →
      s.bolt.insertDue = true → (s.edges.last.map (· + 50000)).getD 0 ≤ s.clock →
      ∃ t, exec .correctionStep s = .next t ∧ t.bolt.beta = s.bolt.beta + 1 ∧ t.bolt.kappa = s.bolt.kappa + 256 ∧
        t.bolt.insertDue = false ∧ ∀ d : DecId, t.web.enc[d].count = s.web.enc[d].count) ∧
    (s.followsTick = true → s.bolt.loaded = true → s.bolt.follower ≠ s.bolt.target →
      s.bolt.lastMove + 50000 ≤ s.clock → ∃ t, exec .followerMove s = .next t ∧ t.bolt.lastMove = s.clock ∧
      t.bolt.follower = (if 0 < posDiff s.bolt.follower s.bolt.target then s.bolt.follower + 1
        else s.bolt.follower - 1)) ∧
    (s.running = true → s.inBolt = true → s.isMaster = false → s.bolt.lastTick + 10 * msPs ≤ s.clock →
      let w := s.leaveBolt 7 0xFFFF 0
      exec .tickLoss s = .next (if w.followsTick = true ∧ w.web.lost = false then w.losePosition.settle else w.settle))

/-- R391 to R397: a received TICK is forwarded; a usable one sets the follower's target, aligns the local position or
counts toward joining, and one that is not usable starts that count again. -/
def Obligations.TicksAlign : Prop :=
  ∀ (q : SeamId) (m : Message) (s s' : State), s.takeMessage q vcTick 0x02 = some (m, s') →
    let f := s'.forwardTick q m
    let target := f.tickTarget q m.payload
    let w := { f with bolt := { f.bolt with
      tickSeq := some (BitVec.ofNat 32 (uAt m.payload 0x20 4)), lastTick := s.clock } }
    (s.isMaster = true → exec (.tick q) s = .next f) ∧
    (s.isMaster = false → s.tickUsable m.payload = false →
      exec (.tick q) s = .next { f with bolt := { f.bolt with usable := 0 } }) ∧
    (s.isMaster = false → s.tickUsable m.payload = true →
      (s.inBolt = true → s.followsTick = true →
        exec (.tick q) s = .next ({ w with bolt := { w.bolt with target := target } }).settle) ∧
      (s.inBolt = true → s.followsTick = false → exec (.tick q) s = .next (w.alignLocal target).settle) ∧
      (s.inBolt = false → s.mayJoin = true → exec (.tick q) s = .next (w.countTick target).settle) ∧
      (s.inBolt = false → s.mayJoin = false → exec (.tick q) s = .next w.settle))

/-- R401 to R403: the latency sweep as its master runs it, and as a device takes part in it: every probe goes out on each
measured port whose link is in the bolt. -/
def Obligations.LatencySweepCompletes : Prop :=
  ∀ s : State,
    (s.running = true → s.isMaster = true → s.role ≠ 0 → s.bolt.latMaster = none →
      (∀ t, s.bolt.latUsed.2 = some t → t + 1000 * msPs ≤ s.clock) →
      let g := s.bolt.latUsed.1 + 1
      (∀ t, s.bolt.latDue = some t → t ≤ s.clock →
        exec .latencySweepStart s = .next (({ s with bolt := { s.bolt with
          latUsed := (g, some s.clock), latWanted := false, latDue := none
          latMaster := some (s.clock, true, 0) } }.broadcast vcTick 0x03 (probePayload g 0 0 0)).beginLatency g)) ∧
      (s.bolt.latWanted = true → (∀ t, s.bolt.latDue = some t → s.clock < t) →
        exec .latencySweepStart s = .next (({ s with bolt := { s.bolt with
          latUsed := (g, some s.clock), latWanted := false
          latMaster := some (s.clock, true, 0) } }.broadcast vcTick 0x03 (probePayload g 0 0 0)).beginLatency g))) ∧
    (∀ g, s.inBolt = true → s.bolt.latRun = some g → s.bolt.latSent < 256 →
      s.bolt.latSent = 0 ∨ s.bolt.latAt + 4 * usPs ≤ s.clock → ∃ t, exec .linkProbeSend s = .next t ∧
        t.bolt.latSent = s.bolt.latSent + 1 ∧ t.bolt.latAt = s.clock ∧ ∀ q : SeamId,
          (s.linkIn q = true → s.bolt.links[q].measured = true → t.seams[q] = s.seams[q].enqueue vcTick
            (messageFlits vcTick 0x03 (s.neighbour q) s.address
              (probePayload g 1 s.bolt.latSent (seamCycles s.clock)) none none)) ∧
          (s.linkIn q = false ∨ s.bolt.links[q].measured = false → t.seams[q] = s.seams[q])) ∧
    (∀ g, s.inBolt = true → s.bolt.latRun = some g → s.bolt.latSent = 256 → s.bolt.latAt + msPs ≤ s.clock →
      let p := s.latencyReport g s.latencyComplete
      let w := { s with bolt := { s.bolt with latSent := 257 } }
      exec .latencyEchoTimeout s = .next (if w.isMaster then w.noteReport p else w.sendTo vcTick 0x05 w.master p)) ∧
    (∀ t ok lam, s.bolt.latMaster = some (t, ok, lam) → t + 100 * msPs ≤ s.clock →
      let g := s.bolt.latUsed.1
      let w := { s with bolt := { s.bolt with latMaster := none } }
      let pw := w.switchAhead
      (ok = true → exec .latencyCollectionEnd s = .next
        ((w.broadcast vcTick 0x05 (leBytes 4 g.toNat ++ leBytes 1 1 ++ leBytes 1 0 ++ leBytes 4 (w.graceFor lam) ++
          leBytes 6 pw.toNat)).adoptLatency g (w.graceFor lam) pw).settle) ∧
      (ok = false → exec .latencyCollectionEnd s = .next
        ((w.broadcast vcTick 0x05 (leBytes 4 g.toNat ++ leBytes 1 2 ++ leBytes 1 0)).abortLatency g).settle)) ∧
    ∀ (q : SeamId) (m : Message) (s' : State),
      (s.takeMessage q vcTick 0x03 = some (m, s') → uAt m.payload 4 1 = 0 → s'.inBolt = true →
        exec (.latencyStart q) s = .next (s'.beginLatency (BitVec.ofNat 32 (uAt m.payload 0 4)))) ∧
      (s.takeMessage q vcTick 0x03 = some (m, s') → uAt m.payload 4 1 = 1 → s'.inBolt = true →
        exec (.linkProbe q) s = .next (s'.queueOn q vcTick 0x04 m.source s'.address
          (m.payload.take 4 ++ sliceB m.payload 6 2 ++ leBytes 2 0 ++ sliceB m.payload 8 4 ++
            leBytes 4 ((s'.clock - m.atClock) / 6400)) none none)) ∧
      (s.takeMessage q vcTick 0x04 = some (m, s') → s'.bolt.links[q].measured = true →
        s'.bolt.latRun = some (BitVec.ofNat 32 (uAt m.payload 0 4)) → exec (.latencyEcho q) s = .next
          (s'.updLink q fun l => { l with echoes := l.echoes ++ [echoCycles m] })) ∧
      (s.takeResult q 0 = some (m, s') → exec (.latencyReport q) s = .next (s'.noteReport m.payload)) ∧
      (s.takeResult q 1 = some (m, s') → s'.inBolt = true →
        exec (.latencyCommit q) s = .next (s'.adoptLatency (BitVec.ofNat 32 (uAt m.payload 0 4)) (uAt m.payload 6 4)
          (BitVec.ofNat 48 (uAt m.payload 10 6))).settle) ∧
      (s.takeResult q 2 = some (m, s') → s'.inBolt = true →
        exec (.latencyAbort q) s = .next (s'.abortLatency (BitVec.ofNat 32 (uAt m.payload 0 4))).settle) ∧
      (s.takeResult q 3 = some (m, s') → s'.isMaster = true → exec (.latencyRequest q) s = .next s'.wantLatency)

/-- R413, R414: the calibration sweep as its master runs it, and as a device takes part in it. -/
def Obligations.CalibrationSweepCompletes : Prop :=
  ∀ s : State,
    (s.running = true → s.isMaster = true → s.role ≠ 0 → s.bolt.calWanted = true → s.bolt.calMaster = none →
      (∀ t, s.bolt.calLast = some t → t + 60000 * msPs ≤ s.clock) →
      let g := s.bolt.calUsed + 1
      let pc := s.switchAhead
      exec .calibrationSweepStart s = .next (({ s with bolt := { s.bolt with
        calUsed := g, calWanted := false, calLast := some s.clock, calMaster := some (true, none) } }.broadcast vcTick 0x06
          (sweepPayload g 0 false pc 65536 0)).beginCalibration g pc 65536)) ∧
    (∀ g pc nc, s.bolt.calRun = some (g, pc, nc) → s.bolt.calSums = none →
      s.sumsFull nc = true ∨ s.sumsLate = true → let w := { s with bolt := { s.bolt with
          calSums := some s.clock, calOk := s.sumsFull nc } }
        exec .calibrationSumsDone s = .next
          (if !w.bolt.calSides.contains 0 || w.bolt.calWest.isSome then w.finishCalibration.settle else w)) ∧
    (∀ t, s.bolt.calRun.isSome = true → s.bolt.calDone = false → s.bolt.calWest = none → s.bolt.calSums = some t →
      t + 1000 * msPs ≤ s.clock → exec .calibrationFactorTimeout s = .next s.finishCalibration.settle) ∧
    (∀ ok t, s.bolt.calMaster = some (ok, some t) → t + 2000 * msPs ≤ s.clock →
      let g := s.bolt.calUsed
      let w := { s with bolt := { s.bolt with calMaster := none } }
      let ps := w.switchAhead
      (ok = true → exec .calibrationCollectionEnd s = .next
        ((w.broadcast vcTick 0x06 (sweepPayload g 3 true ps 0 0)).adoptCalibration g ps).settle) ∧
      (ok = false → exec .calibrationCollectionEnd s = .next
        ((w.broadcast vcTick 0x06 (sweepPayload g 4 false 0 0 0)).abortCalibration g).settle)) ∧
    ∀ (q : SeamId) (m : Message) (s' : State), let g := BitVec.ofNat 32 (uAt m.payload 0 4)
      (s.takeSweep q 0 = some (m, s') → s'.inBolt = true → exec (.calibrationStart q) s = .next
        (s'.beginCalibration g (BitVec.ofNat 48 (uAt m.payload 8 6)) (uAt m.payload 0x10 4))) ∧
      (s.takeSweep q 1 = some (m, s') → s'.bolt.calRun.map (·.1) = some g → q = 1 → s'.bolt.calDone = false →
        let w := { s' with bolt := { s'.bolt with
          calWest := some (uAt m.payload 0x14 4, bitAt (uAt m.payload 5 1) 0) } }
        exec (.calibrationFactor q) s = .next
          (if s'.bolt.calSums.isSome then w.finishCalibration.settle else w)) ∧
      (s.takeSweep q 2 = some (m, s') → g = s'.bolt.calUsed → exec (.calibrationReport q) s = .next
        { s' with bolt := { s'.bolt with
          calMaster := s'.bolt.calMaster.map fun (c, t) => (c && bitAt (uAt m.payload 5 1) 0, t) } }) ∧
      (s.takeSweep q 3 = some (m, s') → s'.bolt.calRun.map (·.1) = some g → exec (.calibrationCommit q) s = .next
        (s'.adoptCalibration g (BitVec.ofNat 48 (uAt m.payload 8 6))).settle) ∧
      (s.takeSweep q 4 = some (m, s') → s'.bolt.calRun.map (·.1) = some g →
        exec (.calibrationAbort q) s = .next (s'.abortCalibration g).settle) ∧
      (s.takeSweep q 5 = some (m, s') → s'.isMaster = true →
        exec (.calibrationRequest q) s = .next { s' with bolt := { s'.bolt with calWanted := true } })

/-- R405, R406, R430, R431, R433: a halo line or a replay line comes into its ring entry, if that may still be
written, and a replay for an entry that is final is counted and discarded; at the deadline of a line whose halo has not
come, the entry is written: awaiting replay on a failed link, missing otherwise. After a return, a line number that is not
newer than the last one shows that the neighbour was reset (log 129). -/
def Obligations.HaloLinesComplete : Prop :=
  ∀ (q : SeamId) (side : Fin 2) (m : Message) (s s' : State),
    (portSide q = some side → s.takeMessage q vcLine 0x10 = some (m, s') →
      let r := s'.bolt.links[q].place (BitVec.ofNat 40 (uAt m.payload 0 5))
      let v := s'.updLink q fun _ => { r.1 with lastLine := some (BitVec.ofNat 40 (uAt m.payload 0 5)) }
      ∀ line, r.2 = some line →
        let w := (v.firstAfterReturn q side line
          (s'.bolt.links[q].restarted (BitVec.ofNat 40 (uAt m.payload 0 5)))).missBefore side line
        (exec (.haloLine q) s = .next
          (if w.writable side line then ((w.storeHalo side line m.payload).sumSide side line).settle else w)) ∧
        (s.bolt.links[q].returning = false → (∀ e ∈ s.bolt.halo[side].ring, e.2.awaiting = false) →
          s.writable side line = true → ∃ t, exec (.haloLine q) s = .next t ∧
            t = ((v.storeHalo side line m.payload).sumSide side line).settle ∧
            t.haloEntry side line = some (s.entryOf side line m.payload))) ∧
    (portSide q = some side → s.takeMessage q vcLine 0x11 = some (m, s') →
      let c := { s' with faults := { s'.faults with replayReceived := satAdd 32 s'.faults.replayReceived 1 } }
      let r := c.bolt.links[q].place (BitVec.ofNat 40 (uAt m.payload 0 5))
      let v := c.updLink q fun _ => { r.1 with lastLine := some (BitVec.ofNat 40 (uAt m.payload 0 5)) }
      ∀ line, r.2 = some line →
        let w := v.firstAfterReturn q side line false
        (w.writable side line = true → exec (.replayLine q) s = .next
          ((w.storeHalo side line m.payload).sumSide side line).settle) ∧
        (w.writable side line = false → exec (.replayLine q) s = .next { w with
          faults := { w.faults with replayDiscarded := satAdd 32 w.faults.replayDiscarded 1 } }) ∧
        (s.bolt.links[q].returning = false → s.writable side line = true → ∃ t, exec (.replayLine q) s = .next t ∧
          t = ((v.storeHalo side line m.payload).sumSide side line).settle ∧
          t.haloEntry side line = some (s.entryOf side line m.payload))) ∧
    (∀ (east : Bool) line entered rest, side = (if east then 1 else 0) →
      s.bolt.halo[side].watch = (line, entered) :: rest → s.lineDeadline side entered ≤ s.clock →
      let v := { s with
        bolt := { s.bolt with halo := Vector.upd s.bolt.halo side fun h => { h with watch := rest } }
        faults := { s.faults with creditNs := satAdd 32 s.faults.creditNs (s.retryCredit (sidePort side) entered) } }
      let e : HaloEntry := if s.seams[sidePort side].failed
        then { seq := line, flags := 8, faultId := s.seams[sidePort side].faultId } else { seq := line, flags := 4 }
      (s.writable side line = true → ∃ t, exec (.lineDeadline east) s = .next t ∧
        t = { v.putHalo side e with faults := { v.faults with
          awaiting := satAdd 32 v.faults.awaiting (bit s.seams[sidePort side].failed)
          missing := satAdd 32 v.faults.missing (bit !s.seams[sidePort side].failed) } } ∧
        t.haloEntry side line = some e ∧ t.bolt.halo[side].watch = rest) ∧
      (s.writable side line = false → exec (.lineDeadline east) s = .next v))

/-- R409, R410, R435: segment reads are answered, replies and notices are kept, and a relayed record enters once: one
newer than the last of its source, and an "admitted" STATUS, which starts its source anew. What the home serves for a
segment, that GONE is kept as absent and that a notice changes the expiry of a held copy only, is logs 87 and 127. -/
def Obligations.BoltMessagesComplete : Prop :=
  ∀ (q : SeamId) (m : Message) (h : Hist) (s s' : State), s.pat.hist = some h → s'.inBoltOn q = true →
    let start : Pos := BitVec.ofNat 48 (uAt m.payload 0 6)
    let stamp : Pos := BitVec.ofNat 48 (uAt m.payload 6 6)
    (s.takeMessage q vcHist 0x30 = some (m, s') →
      (∀ x, s'.segment 0 start = some x → x.sealed_ = true → x.absent = false → x.damaged = false →
        reached stamp (h.expiryOf start) = false → s'.commons.badParity = [] → s'.hbm.errors = [] →
        exec (.segmentRead q) s = .next (s'.queueOn q vcHist 0x31 m.source
          s'.address (replyPayload start stamp false (s'.decodeSegment h x.stored)) none none).settle) ∧
      (∀ b, s'.homeBlocks h start = some b → reached stamp (h.expiryOf start) = false →
        let r := s'.readHome h start b
        (∀ b', r.1 = some b' → exec (.segmentRead q) s = .next (r.2.queueOn q vcHist 0x31 m.source
          r.2.address (replyPayload start stamp false (r.2.decodeSegment h b')) none none).settle) ∧
        (r.1 = none → exec (.segmentRead q) s = .next
          (r.2.queueOn q vcHist 0x32 m.source r.2.address (m.payload.take 12) none none).settle)) ∧
      (s'.homeBlocks h start = none ∨ reached stamp (h.expiryOf start) = true → exec (.segmentRead q) s = .next
        (s'.queueOn q vcHist 0x32 m.source s'.address (m.payload.take 12) none none).settle)) ∧
    (∀ side, portSegs q = some side →
      (s.takeMessage q vcHist 0x31 = some (m, s') → reached s'.position (h.expiryOf start) = false →
        s'.segment side start = none → exec (.segmentReply q) s = .next (s'.putSegment
          { start := start, side := side, sealed_ := true, expiry := h.expiryOf start
            stored := s'.encodeSegment h start ((sliceB m.payload 0x10 (uAt m.payload 0x0C 2)).map (·.toNat)) })) ∧
      (s.takeMessage q vcHist 0x32 = some (m, s') → s'.segment side start = none →
        exec (.gone q) s = .next (s'.putSegment
          { start := start, side := side, absent := true, expiry := h.expiryOf start })) ∧
      (s.takeMessage q vcHist 0x33 = some (m, s') → exec (.evictionNotice q) s = .next
        (s'.setSegs fun l => updFirst (fun x : Segment => x.side == side && x.start == start)
          (fun x => { x with expiry := stamp }) l))) ∧
    (s.takeMessage q vcEvent 0x20 = some (m, s') → s'.role = 2 ∨ s'.role = 4 → s'.inBolt = true →
      let r := Record.ofBytes m.payload
      (s'.events.lastOf.find? (·.1 == r.source) = none ∨ (r.type = 8 ∧ r.sub = 1) ∨
        (∃ a n, s'.events.lastOf.find? (·.1 == r.source) = some (a, n) ∧ 0 < (r.seqNo - n).toInt) →
        exec (.eventRecord q) s = .next (({ s' with events := { s'.events with
          lastOf := (r.source, r.seqNo) :: s'.events.lastOf.filter (·.1 != r.source) } }.submit
            { r with flags := r.flags ||| 4#8 }).settle)) ∧
      (∀ a n, s'.events.lastOf.find? (·.1 == r.source) = some (a, n) → (r.seqNo - n).toInt ≤ 0 →
        ¬ (r.type = 8 ∧ r.sub = 1) → exec (.eventRecord q) s = .next { s' with
          faults := { s'.faults with duplicates := satAdd 32 s'.faults.duplicates 1 } }))

/-! ### Power, wake and hold-up -/

/-- R443, R447, R448, R450, R451: a domain whose hysteresis has passed enters its low state, ends there, and comes on
again, whereupon the votes of the wakes for it end (log 49). A failed link's port first delivers what it has received
(R470, log 138). -/
def Obligations.DomainsComplete : Prop :=
  ∀ (id : Nat) (s : State),
    (∀ d, s.power.domains.find? (·.id == id) = some d → s.isOn id = true → s.votedOn id = false →
      hystPassed (s.voteEntry id).hyst d.unvoted s.time.wall = true →
      exec (.hysteresisExpiry id) s = .next (s.beginEntry id).intakeVotes.settle) ∧
    (∀ r b, s.dom id = .entering r b → (∀ q, seamOf id = some q → s.seams[q].link ≠ .up ∧ s.seams[q].inbox = []) →
      let k := r && !s.retainedNoMore id
      let w := ((s.updDom id fun d => { d with st := if k then .retention else .off, since := s.clock }).loseDomain id
        k).intakeVotes
      exec (.lowStateEntryComplete id) s = .next (if w.votedOn id then w.wakeDomain id else w).settle) ∧
    (∀ r, s.dom id = .waking r → s.mayTurnOn id = true → ¬ (id = domHbm ∧ s.hbm.lost = true) →
      exec (.domainOn id) s = .next ((s.reachOn id r).intakeVotes.settle)) ∧
    (∀ v : Vote, v ∈ s.endWakes.power.votes → (∃ n, v.client = .wake n) → s.isOn v.domain = false) ∧
    (∀ r, id = domHbm → s.dom id = .waking r → s.mayTurnOn id = true → s.hbm.lost = true →
      s.power.votes.any (fun v => v.client == .reload) = false →
      exec (.domainOn id) s = .next s.beginReload.settle)

/-- R270, R272, R288, R445, R449, R453: the web client's delays, the wall timebase's alarm with its domains (log 51),
the reload of HBM, which goes on after a flash error (log 50), and a patrol burst, which takes the block that holds a
word (log 55). -/
def Obligations.RestAndReloadComplete : Prop :=
  ∀ s : State, s.running = true →
    (s.web.stopped = true → s.power.web = .run → s.pat.restMs ≠ 0 →
      s.web.stopSince + s.pat.restMs * msPs ≤ s.time.wall →
      let w := s.addVotes .web s.restRetain true
      let v := w.dropVotes .web w.restDrop false
      exec .restDelayExpiry s = .next
        ({ v with power := { v.power with web := .rest, restFrom := v.time.wall } }.statusPos 0x11 0).settle) ∧
    (s.power.web = .rest → s.pat.deepS ≠ 0 → s.power.restFrom + s.pat.deepS * 1000 * msPs ≤ s.time.wall →
      let v := s.dropVote .web domHbm true
      exec .deepRestDelayExpiry s = .next ({ v with power := { v.power with web := .deep } }.statusPos 0x12 0).settle) ∧
    (∀ owner : Fin 2, exec (.timebaseAlarm owner) s = .next
      (s.raiseWake 0x14 (owner.val + 1) (if owner = 0 then [] else [domFlash, domHbm])).settle) ∧
    (s.hbm.lost = true → s.isOn domFlash = true → s.power.votes.any (fun v => v.client == .reload) = true →
      s.adm.flashWaiting = false →
      (s.loadOk (s.adm.slot.getD 0) = true → exec (.hbmReloadComplete false) s = .next s.reloaded.settle) ∧
      (s.loadOk (s.adm.slot.getD 0) = false → exec (.hbmReloadComplete false) s = .next (s.resetOutside 5 0)) ∧
      exec (.hbmReloadComplete true) s = .next s) ∧
    (∀ word u, s.isOn domHbm = true → word < 2 ^ 29 →
      (s.panels.toList.any fun x => x.seq.outst.all (·.unit != .stream)) = true →
      exec (.housekeepingBurst word u) s = .next ((s.upsets 0 u).scrub (word / 8)).settle)

/-- R457, R462, R466: VID moves one code a µs toward its target, the clock follows 10 µs after the last step, and with
it the control sequencer that waits for it; and the always-on regulator changes its mode. R458: the hundredth reading
above in a row lowers VID one code, four at most; a reading below raises it; and ten readings below with nothing
trimmed form STATUS 0x19 once. -/
def Obligations.VoltageAndRegulatorComplete : Prop :=
  ∀ s : State,
    (s.adm.dev ≠ .inReset → s.power.vidSince + usPs ≤ s.clock →
      (s.pins.vid < s.power.vidTarget → exec .vidStep s = .next { s with
        pins := { s.pins with vid := s.pins.vid + 1 }, power := { s.power with vidSince := s.clock } }) ∧
      (s.power.vidTarget < s.pins.vid → exec .vidStep s = .next { s with
        pins := { s.pins with vid := s.pins.vid - 1 }, power := { s.power with vidSince := s.clock } })) ∧
    (s.power.locked = true → s.power.clockPending = true → s.pins.vid = s.power.vidTarget →
      s.power.vidSince + 10 * usPs ≤ s.clock → exec .vidSettled s = .next
        ({ s with
          power := { s.power with
            clockPending := false, coreMhz := if s.sinceReady then levelMhz s.power.level else 400 }
          control := { s.control with onPll := s.control.onPll || s.control.wantPll, wantPll := false } }).settle) ∧
    (s.power.regulator = .rising → s.power.regSince + 40 * usPs ≤ s.clock →
      exec .regulatorNormalMode s = .next { s with power := { s.power with regulator := .normal } }) ∧
    (s.power.regulator = .normal → s.dom domEvent = .off ∨ s.dom domEvent = .retention →
      s.power.regSince + msPs ≤ s.clock →
      exec .regulatorLowPower s = .next { s with power := { s.power with regulator := .low } }) ∧
    (s.running = true → s.power.locked = true →
      (s.power.avsAbove + 1 < 100 → exec (.avsSample .above) s = .next
        ({ s with power := { s.power with avsAbove := s.power.avsAbove + 1, avsBelow := 0 } }).settle) ∧
      (100 ≤ s.power.avsAbove + 1 → exec (.avsSample .above) s = .next
        ({ s with power := { s.power with
          trim := min 4 (s.power.trim + 1), avsAbove := 0, avsBelow := 0 } }).settle) ∧
      (exec (.avsSample .between) s = .next
        ({ s with power := { s.power with avsAbove := 0, avsBelow := 0 } }).settle) ∧
      (0 < s.power.trim → exec (.avsSample .below) s = .next
        ({ s with power := { s.power with trim := s.power.trim - 1, avsAbove := 0, avsBelow := 0 } }).settle) ∧
      (s.power.trim = 0 → s.power.avsBelow + 1 < 10 ∨ s.power.avsNoted = true → exec (.avsSample .below) s = .next
        ({ s with power := { s.power with avsAbove := 0, avsBelow := s.power.avsBelow + 1 } }).settle) ∧
      (s.power.trim = 0 → 10 ≤ s.power.avsBelow + 1 → s.power.avsNoted = false → exec (.avsSample .below) s = .next
        ({ s with power := { s.power with
          avsAbove := 0, avsBelow := s.power.avsBelow + 1, avsNoted := true } }.statusPos 0x19
            (levelVid s.power.level)).settle))

/-- R50, R459 to R461: in every state but reset, two samples of 100 °C in a row assert the thermal cause of RATE_RISK,
which 10 ms below 95 °C end; one of 115 °C stops the device with THERMTRIP_N; two of 105 °C stop a running one whose
pattern has no degraded schedule, and start the switch to one that it has, which completes once the panels are quiet.
In which states each row acts is the model's reading (log 73). -/
def Obligations.TemperatureCompletes : Prop :=
  ∀ (x : Int) (s : State), s.adm.dev ≠ .inReset →
    (∃ t, exec (.temperatureSample x) s = .next t ∧ t.power.junction = x ∧
      (1600 ≤ x → 1 ≤ s.power.hot100 → t.pins.riskThermal = true) ∧
      (1520 ≤ x → s.pins.riskThermal = true → t.pins.riskThermal = true) ∧
      (x < 1600 → s.pins.riskThermal = false → t.pins.riskThermal = false) ∧
      (∀ c, x < 1520 → s.power.coolSince = some c → c + 10 * msPs ≤ s.clock → t.pins.riskThermal = false) ∧
      (1840 ≤ x → s.adm.dev ≠ .stopped →
        t.pins.thermtrip = true ∧ t.adm.dev = .stopped ∧ t.markers.inhibited = true) ∧
      (1680 ≤ x → x < 1840 → s.running = true → 1 ≤ s.power.hot105 → s.power.degradePending = false →
        s.power.degraded = false →
        (s.pat.hasDegraded = false → t.pins.thermtrip = true ∧ t.adm.dev = .stopped) ∧
        (s.pat.hasDegraded = true → t.power.degradePending = true ∧ t.adm.dev = .running))) ∧
    (s.adm.dev = .stopped ∨ (x < 1840 ∧ s.running = false) →
      let w := ({ s with
        power := { s.power with junction := x, peak := some (max x (s.power.peak.getD x)) }
        flash := { s.flash with counters :=
          s.flash.counters.modify 19 fun c => unsigned 64 (max x (signed 64 c)) } }).thermalRisk x
      exec (.temperatureSample x) s = .next ({ w with
        power := { w.power with hot105 := if 1680 ≤ x then s.power.hot105 + 1 else 0 } }).settle) ∧
    (s.running = true → s.power.degradePending = true →
      s.power.pll = false ∨ (s.look.ledger.all (·.degraded)) = true → exec .degradedSwitchComplete s = .next
        (let w := s.endNormalSpans
         if !w.power.pll || w.panelsQuiet then w.degrade else w).settle)

/-- R463: the timebase leaves XT32 when it fails, and returns to it once 32,768 cycles, which take a second, have passed
without a failure; each change forms its STATUS record, and the wall timebase runs on. -/
def Obligations.TimebaseCompletes : Prop :=
  ∀ s : State,
    (s.time.xt32 = true →
      let w := { s with
        time := { s.time with xtFrom := s.clock, xt32 := false, verified := false }
        wake := { s.wake with coarse := s.wake.coarse || !s.isOn domControl } }
      ∃ t, exec .xt32Fail s = .next t ∧ t.time.wall = s.time.wall ∧
        (s.time.verified = true → t = (w.statusPos 0x1A 0).settle) ∧ (s.time.verified = false → t = w.settle)) ∧
    (s.time.xt32 = false → exec .xt32Fail s = .next { s with time := { s.time with xtFrom := s.clock } }) ∧
    (s.time.verified = false → s.time.xtFrom + 10 ^ 12 ≤ s.clock → ∃ t, exec .xt32Verified s = .next t ∧
      t.time.wall = s.time.wall ∧
      t = (({ s with time := { s.time with xt32 := true, verified := true } }).statusPos 0x1B 0).settle) ∧
    (s.clock < s.time.xtFrom + 10 ^ 12 → exec .xt32Verified s = .next s)

/-- R473, R475 to R478, R487 to R490: the hold-up supervisor: sampling, arming, its windows, a power fail, the flush's
limits, the cutoff at the second sample below 500 mV, and the return of the input. The removal checks use K as it
stood over the window (log 72), a charge is a run of samples that charge the bank (log 54), and a flush that did not
complete has detail 2 (log 70). -/
def Obligations.HoldUpCompletes : Prop :=
  ∀ s : State,
    (∀ mv vin dq ua, s.adm.dev ≠ .inReset → s.hold.st ≠ .absentByStrap →
      let m := min mv 1200
      let good := if 1050 < vin then true else if vin < 1000 then false else s.hold.inputGood
      (s.hold.st ≠ .flushing →
        ∃ t, exec (.holdVSample mv vin dq ua) s = .next t ∧ t = { s with hold := t.hold } ∧ t.hold.mv = m ∧
          t.hold.inputGood = good ∧ t.hold.meanUa = min ua (10 ^ 7) ∧
          t.hold.low = (if m < 500 then s.hold.low + 1 else 0) ∧
          t.hold.highSince = (if good = true ∧ 900 ≤ m then some (s.hold.highSince.getD s.clock) else none)) ∧
      (s.hold.st = .flushing →
        (m < 500 → 1 ≤ s.hold.low → ∃ t, exec (.holdVSample mv vin dq ua) s = .next t ∧ t.hold.st = .flushed ∧
          t.adm.dev = .flushed ∧ t.markers.inhibited = true ∧ t.hold.completed = false ∧ t.flash.run = none ∧
          t.flash.late = none ∧ t.adm.flashWaiting = false ∧ t.hold.sram.2.2 = s.hold.sram.2.2 + 1) ∧
        (500 ≤ m ∨ s.hold.low = 0 → exec (.holdVSample mv vin dq ua) s = .next
          ({ s with hold := s.hold.sample m good (clampInt (-100) 100 dq) ua s.clock }).flushAdvance.settle))) ∧
    (∀ t, s.running = true → s.hold.st = .notReady → s.hold.highSince = some t → t + 50 * msPs ≤ s.clock →
      exec .holdupArm s = .next { s with hold := { s.hold with st := .armed }.openWindow s.clock }) ∧
    (s.adm.dev ≠ .inReset → s.hold.seen = true → s.hold.winFrom + 50 * msPs ≤ s.clock →
      let h := s.hold.refine.openWindow s.clock
      (s.hold.st ≠ .armed ∨ s.hold.inputGood = false ∨ s.hold.removed = (false, false) →
        exec .holdupWindow s = .next { s with hold := h }) ∧
      (∀ rise low, s.hold.st = .armed → s.hold.inputGood = true → s.hold.removed = (rise, low) → (rise || low) = true →
        exec .holdupWindow s = .next ({ s with hold :=
          { h with st := .absent, removal := BitVec.ofNat 2 (bit rise + 2 * bit low) } }.bump 16 1))) ∧
    (s.hold.st = .armed → exec .powerFail s = .next s.startFlush.settle) ∧
    (s.hold.st = .flushing → exec .flushStepTimeout s = .next s.flushAdvance.settle) ∧
    (s.hold.st = .flushing ∨ s.hold.st = .flushed → s.hold.inputGood = true → s.flash.run = none →
      s.hold.goodSince + 10 * msPs ≤ s.clock →
      exec .inputRestored s = .next (s.resetOutside 0x15 (if s.hold.completed then 1 else 2)))

/-! ### Values that the spec writes out -/

/-- R107, R336: the two checksums: their polynomials, initial and final values, what they give for no bytes and for
the ASCII digits 1 to 9, and the CRC-16 after the bytes that it covers. -/
def Obligations.ChecksumsHaveTheirValues : Prop :=
  crc32 [] = 0x00000000#32 ∧
    crc32 [0x31#8, 0x32#8, 0x33#8, 0x34#8, 0x35#8, 0x36#8, 0x37#8, 0x38#8, 0x39#8] = 0xCBF43926#32 ∧
    (∀ b, crc32Byte 0 b = (List.range 8).foldl
      (fun c _ => if c.getLsbD 0 then (c >>> 1) ^^^ 0xEDB88320#32 else c >>> 1) (b.setWidth 32)) ∧
    ∀ bs, crc32 bs = bs.foldl crc32Byte 0xFFFFFFFF#32 ^^^ 0xFFFFFFFF#32 ∧
    crc16 [0x31#8, 0x32#8, 0x33#8, 0x34#8, 0x35#8, 0x36#8, 0x37#8, 0x38#8, 0x39#8] = 0x29B1#16 ∧
    (∀ b, crc16Byte 0 b = (List.range 8).foldl
      (fun c _ => if c.getLsbD 15 then (c <<< 1) ^^^ 0x1021#16 else c <<< 1) (b.setWidth 16 <<< 8)) ∧
    (∀ bs, crc16 bs = bs.foldl crc16Byte 0xFFFF#16) ∧
    ∀ bs, (withCrc bs).take bs.length = bs ∧ (withCrc bs).length = bs.length + 2

/-- R47, R51: LVL_A to LVL_D give the address of the bolt, and LVL_G trims the basting threshold in steps of 0.25,
which are 64 of its units. -/
def Obligations.StrapsGiveAddressAndTrim : Prop :=
  ∀ s : State,
    (∀ a b c d : Nat, s.level 0 = some a → s.level 1 = some b → s.level 2 = some c → s.level 3 = some d →
      a < 16 → b < 16 → d < 16 → c < 8 ∧ s.address.toNat % 256 = 16 * a + b ∧
        s.address.toNat / 256 = 16 * c + d ∧ s.address.toNat / 256 ≤ 127) ∧
    (∀ l : Nat, s.level 6 = some l → l < 16 →
      (l ≤ 7 → s.sentinelTrim = l) ∧ (8 ≤ l → s.sentinelTrim = (l : Int) - 16) ∧
      (-32768 ≤ s.pat.sntl.threshold + 64 * s.sentinelTrim → s.pat.sntl.threshold + 64 * s.sentinelTrim ≤ 32767 →
        s.effectiveThreshold = s.pat.sntl.threshold + 64 * s.sentinelTrim))
end

