-- ==== Sys2Proof/Laws/Memory.lean ====
section
/-! SUPPORT. The laws of addressed stores: a read after a write, and the canonical form that every operation keeps. -/

namespace Sys2Proof.Machine.Memory

/-- The canonical form from a bound holds from every lower bound. -/
theorem wfFrom_mono {d : Byte} {m : List Host.Cell} {lo hi : Nat} (h : wfFrom d hi m = true) (le : lo ≤ hi) :
    wfFrom d lo m = true := by
  cases m with
  | nil => rfl
  | cons c m =>
    obtain ⟨a, b⟩ := c
    simp only [wfFrom, Bool.and_eq_true, decide_eq_true_eq] at h ⊢
    exact ⟨⟨le.trans h.1.1, h.1.2⟩, h.2⟩

/-- A write keeps the canonical form, from any bound at or below its address. -/
theorem write_wfFrom {d : Byte} {m : List Host.Cell} {lo a : Nat} (v : Byte) (h : wfFrom d lo m = true) (le : lo ≤ a) :
    wfFrom d lo (write d m a v) = true := by
  induction m generalizing lo with
  | nil => by_cases hv : v = d <;> simp [write, hv, wfFrom, le]
  | cons c m ih =>
    obtain ⟨k, b⟩ := c
    simp only [wfFrom, Bool.and_eq_true, decide_eq_true_eq, bne_iff_ne, ne_eq] at h
    obtain ⟨⟨hk, hb⟩, hm⟩ := h
    rcases Nat.lt_trichotomy a k with hak | hak | hak
    · by_cases hv : v = d <;> simp [write, hak, hv, wfFrom, hk, hb, hm, le, Nat.succ_le_of_lt hak]
    · subst hak
      by_cases hv : v = d
      · simpa [write, hv] using wfFrom_mono hm (by omega)
      · simp [write, hv, wfFrom, le, hm]
    · have hnl : ¬ a < k := by omega
      have hne : ¬ a = k := by omega
      simp [write, hnl, hne, wfFrom, hk, hb, ih hm (by omega)]

/-- A write keeps the canonical form. -/
theorem write_wf {d : Byte} {m : List Host.Cell} (a : Nat) (v : Byte) (h : wf d m = true) : wf d (write d m a v) = true :=
  write_wfFrom v h (Nat.zero_le a)

/-- Writes of several bytes keep the canonical form. -/
theorem writeN_wf {d : Byte} {m : List Host.Cell} (a : Nat) (bs : List Byte) (h : wf d m = true) :
    wf d (writeN d m a bs) = true := by
  induction bs generalizing m a with
  | nil => exact h
  | cons b bs ih => exact ih _ (write_wf a b h)

/-- A part of a store in canonical form, in the same order, is in canonical form. -/
theorem filter_wfFrom {d : Byte} {m : List Host.Cell} {lo : Nat} (p : Host.Cell → Bool) (h : wfFrom d lo m = true) :
    wfFrom d lo (m.filter p) = true := by
  induction m generalizing lo with
  | nil => rfl
  | cons c m ih =>
    obtain ⟨k, b⟩ := c
    simp only [wfFrom, Bool.and_eq_true, decide_eq_true_eq] at h
    by_cases hp : p (k, b) = true
    · simp [hp, wfFrom, h.1.1, h.1.2, ih h.2]
    · simpa [hp] using ih (wfFrom_mono h.2 (by omega))

/-- A part of a store in canonical form is in canonical form. -/
theorem filter_wf {d : Byte} {m : List Host.Cell} (p : Host.Cell → Bool) (h : wf d m = true) : wf d (m.filter p) = true :=
  filter_wfFrom p h

/-- Clearing a range keeps the canonical form. -/
theorem clear_wf {d : Byte} {m : List Host.Cell} (a n : Nat) (h : wf d m = true) : wf d (clear m a n) = true :=
  filter_wf _ h

/-- Below its bound a store in canonical form reads as its default. -/
theorem foldl_wf {α : Type} {d : Byte} {f : List Host.Cell → α → List Host.Cell}
    (hf : ∀ m x, wf d m = true → wf d (f m x) = true) (l : List α) {m : List Host.Cell} (h : wf d m = true) :
    wf d (l.foldl f m) = true := by
  induction l generalizing m with
  | nil => exact h
  | cons a l ih => exact ih (hf m a h)

theorem read_below {d : Byte} {m : List Host.Cell} {lo a : Nat} (h : wfFrom d lo m = true) (lt : a < lo) : read d m a = d := by
  cases m with
  | nil => rfl
  | cons c m =>
    obtain ⟨k, b⟩ := c
    simp only [wfFrom, Bool.and_eq_true, decide_eq_true_eq] at h
    have hk : a < k := by omega
    simp [read, hk, Nat.ne_of_gt hk]

/-- A read at the address of a write gives the byte written. -/
theorem read_write_same {d : Byte} {m : List Host.Cell} {lo : Nat} (h : wfFrom d lo m = true) (a : Nat) (v : Byte) :
    read d (write d m a v) a = v := by
  induction m generalizing lo with
  | nil => by_cases hv : v = d <;> simp [write, read, hv]
  | cons c m ih =>
    obtain ⟨k, b⟩ := c
    simp only [wfFrom, Bool.and_eq_true, decide_eq_true_eq] at h
    rcases Nat.lt_trichotomy a k with hak | hak | hak
    · by_cases hv : v = d <;> simp [write, read, hak, hv, Nat.ne_of_gt hak]
    · subst hak
      by_cases hv : v = d
      · simpa [write, hv] using read_below h.2 (by omega)
      · simp [write, read, hv]
    · have hnl : ¬ a < k := by omega
      have hne : ¬ a = k := by omega
      have hnk : ¬ k = a := by omega
      simp [write, read, hnl, hne, hnk, ih h.2]

/-- A write leaves every other address as it was. -/
theorem read_write_other {d : Byte} {m : List Host.Cell} {lo : Nat} (h : wfFrom d lo m = true) {a x : Nat} (v : Byte)
    (ne : x ≠ a) : read d (write d m a v) x = read d m x := by
  induction m generalizing lo with
  | nil =>
    by_cases hv : v = d
    · simp [write, hv]
    · have : ¬ a = x := fun e => ne e.symm
      simp [write, read, hv, this]
  | cons c m ih =>
    obtain ⟨k, b⟩ := c
    simp only [wfFrom, Bool.and_eq_true, decide_eq_true_eq] at h
    have hax : ¬ a = x := fun e => ne e.symm
    rcases Nat.lt_trichotomy a k with hak | hak | hak
    · by_cases hv : v = d
      · simp [write, hak, hv]
      · by_cases hx : x < a
        · have h1 : ¬ k = x := by omega
          have h2 : x < k := by omega
          simp [write, read, hak, hv, hax, hx, h1, h2]
        · simp [write, read, hak, hv, hax, hx]
    · subst hak
      by_cases hv : v = d
      · by_cases hx : x < a
        · simpa [write, read, hv, hax, hx] using read_below h.2 (by omega)
        · simp [write, read, hv, hax, hx]
      · by_cases hx : x < a <;> simp [write, read, hv, hax, hx]
    · have hnl : ¬ a < k := by omega
      have hne : ¬ a = k := by omega
      by_cases hkx : k = x
      · subst hkx
        simp [write, read, hnl, hne]
      · by_cases hx : x < k <;> simp [write, read, hnl, hne, hkx, hx, ih h.2]

/-- A walk of n bytes gives n bytes. -/
theorem readN_length (d : Byte) (m : List Host.Cell) (a n : Nat) : (readN d m a n).length = n := by
  induction m generalizing a n with
  | nil => simp [readN]
  | cons c m ih =>
    obtain ⟨k, b⟩ := c
    simp only [readN]
    split
    · exact ih a n
    · split
      · simp
      · simp [ih]; omega

end Sys2Proof.Machine.Memory
end

