-- ==== Sys2Proof/Laws/Kept.lean ====
section
/-! SUPPORT. What almost every operation keeps: the queue, the two clocks, the fuses, the straps, the pattern and the
encoder counts; FAULT_N, THERMTRIP_N and the marker inhibit once set; the canonical form of every addressed store. The
relation is reflexive and transitive, so each operation's lemma follows from those of the operations that it calls. -/

namespace Sys2Proof.Machine

set_option Elab.async false

/-- R9: the position counters of the two decoders. -/
abbrev Web.counts (w : Web) : Pos × Pos := (w.enc[0].count, w.enc[1].count)

/-- What the relation below looks at. -/
structure Held where
  pending : List Instr
  clock : Nat
  wall : Nat
  fuses : Fuses
  levels : Levels
  pat : Pattern
  counts : Pos × Pos
  fault : Bool
  trip : Bool
  inhibited : Bool
  flash : List Host.Cell
  hbm : List Host.Cell
  commons : List Host.Cell
  panels : Vector Panel 16

/-- The part of a state that the relation looks at. -/
abbrev State.held (s : State) : Held :=
  ⟨s.pending, s.clock, s.time.wall, s.fuses, s.levels, s.pat, s.web.counts, s.pins.fault, s.pins.thermtrip,
    s.markers.inhibited, s.flash.mem, s.hbm.mem, s.commons.mem, s.panels⟩

/-- What an ordinary operation keeps. -/
structure Held.Kept (a b : Held) : Prop where
  pending : b.pending = a.pending
  clock : b.clock = a.clock
  wall : b.wall = a.wall
  fuses : b.fuses = a.fuses
  levels : b.levels = a.levels
  pat : b.pat = a.pat
  counts : b.counts = a.counts
  fault : a.fault = true → b.fault = true
  trip : a.trip = true → b.trip = true
  inhibited : a.inhibited = true → b.inhibited = true
  flash : Memory.wf 0xFF a.flash = true → Memory.wf 0xFF b.flash = true
  hbm : Memory.wf 0 a.hbm = true → Memory.wf 0 b.hbm = true
  commons : Memory.wf 0 a.commons = true → Memory.wf 0 b.commons = true
  panels : (∀ p : PanelId, a.panels[p].memWf = true) → ∀ p : PanelId, b.panels[p].memWf = true

/-- What admission keeps too: it samples the straps and loads the pattern, and sealing burns fuses. -/
structure Held.Steady (a b : Held) : Prop where
  pending : b.pending = a.pending
  clock : b.clock = a.clock
  wall : b.wall = a.wall
  counts : b.counts = a.counts
  flag : a.fuses.flag = true → b.fuses.flag = true
  key : ∀ i, a.fuses.key.getLsbD i = true → b.fuses.key.getLsbD i = true
  fault : a.fault = true → b.fault = true
  trip : a.trip = true → b.trip = true
  inhibited : a.inhibited = true → b.inhibited = true
  flash : Memory.wf 0xFF a.flash = true → Memory.wf 0xFF b.flash = true
  hbm : Memory.wf 0 a.hbm = true → Memory.wf 0 b.hbm = true
  commons : Memory.wf 0 a.commons = true → Memory.wf 0 b.commons = true
  panels : (∀ p : PanelId, a.panels[p].memWf = true) → ∀ p : PanelId, b.panels[p].memWf = true

/-- What every operation keeps, resets, sealing and admission among them: the queue and the model's clock, every burned
fuse, and the canonical form of the stores. -/
structure Held.Based (a b : Held) : Prop where
  pending : b.pending = a.pending
  clock : b.clock = a.clock
  flag : a.fuses.flag = true → b.fuses.flag = true
  key : ∀ i, a.fuses.key.getLsbD i = true → b.fuses.key.getLsbD i = true
  flash : Memory.wf 0xFF a.flash = true → Memory.wf 0xFF b.flash = true
  hbm : Memory.wf 0 a.hbm = true → Memory.wf 0 b.hbm = true
  commons : Memory.wf 0 a.commons = true → Memory.wf 0 b.commons = true
  panels : (∀ p : PanelId, a.panels[p].memWf = true) → ∀ p : PanelId, b.panels[p].memWf = true

/-- The state after an operation keeps what the state before it held. -/
def Kept (s t : State) : Prop := s.held.Kept t.held

/-- As `Kept`, for what resets, sealing and admission keep too. -/
def Based (s t : State) : Prop := s.held.Based t.held

/-- As `Kept`, for what admission keeps too. -/
def Steady (s t : State) : Prop := s.held.Steady t.held

theorem Kept.refl (s : State) : Kept s s :=
  ⟨rfl, rfl, rfl, rfl, rfl, rfl, rfl, id, id, id, id, id, id, id⟩

theorem Kept.trans {s t u : State} (h : Kept s t) (k : Kept t u) : Kept s u :=
  ⟨k.pending.trans h.pending, k.clock.trans h.clock, k.wall.trans h.wall, k.fuses.trans h.fuses, k.levels.trans h.levels,
    k.pat.trans h.pat, k.counts.trans h.counts, fun x => k.fault (h.fault x), fun x => k.trip (h.trip x),
    fun x => k.inhibited (h.inhibited x), fun x => k.flash (h.flash x), fun x => k.hbm (h.hbm x),
    fun x => k.commons (h.commons x), fun x => k.panels (h.panels x)⟩

/-- As `Kept.trans`, the later part first. -/
theorem Kept.after {s t u : State} (k : Kept t u) (h : Kept s t) : Kept s u := h.trans k

theorem Steady.refl (s : State) : Steady s s :=
  ⟨rfl, rfl, rfl, rfl, id, fun _ => id, id, id, id, id, id, id, id⟩

theorem Steady.trans {s t u : State} (h : Steady s t) (k : Steady t u) : Steady s u :=
  ⟨k.pending.trans h.pending, k.clock.trans h.clock, k.wall.trans h.wall, k.counts.trans h.counts,
    fun x => k.flag (h.flag x), fun i x => k.key i (h.key i x), fun x => k.fault (h.fault x), fun x => k.trip (h.trip x),
    fun x => k.inhibited (h.inhibited x), fun x => k.flash (h.flash x), fun x => k.hbm (h.hbm x),
    fun x => k.commons (h.commons x), fun x => k.panels (h.panels x)⟩

theorem Steady.after {s t u : State} (k : Steady t u) (h : Steady s t) : Steady s u := h.trans k

theorem Steady.based {s t : State} (h : Steady s t) : Based s t :=
  ⟨h.pending, h.clock, h.flag, h.key, h.flash, h.hbm, h.commons, h.panels⟩

theorem Based.refl (s : State) : Based s s := ⟨rfl, rfl, id, fun _ => id, id, id, id, id⟩

theorem Based.trans {s t u : State} (h : Based s t) (k : Based t u) : Based s u :=
  ⟨k.pending.trans h.pending, k.clock.trans h.clock, fun x => k.flag (h.flag x), fun i x => k.key i (h.key i x),
    fun x => k.flash (h.flash x), fun x => k.hbm (h.hbm x), fun x => k.commons (h.commons x), fun x => k.panels (h.panels x)⟩

theorem Based.after {s t u : State} (k : Based t u) (h : Based s t) : Based s u := h.trans k

theorem Kept.steady {s t : State} (h : Kept s t) : Steady s t where
  pending := h.pending
  clock := h.clock
  wall := h.wall
  counts := h.counts
  flag := fun x => (congrArg Fuses.flag h.fuses).trans x
  key := fun i x => (congrArg (fun f : Fuses => f.key.getLsbD i) h.fuses).trans x
  fault := h.fault
  trip := h.trip
  inhibited := h.inhibited
  flash := h.flash
  hbm := h.hbm
  commons := h.commons
  panels := h.panels

theorem Kept.based {s t : State} (h : Kept s t) : Based s t := h.steady.based

theorem Kept.ite {c : Prop} [Decidable c] {s a b : State} (h : Kept s a) (k : Kept s b) : Kept s (if c then a else b) := by
  split
  · exact h
  · exact k

theorem Steady.ite {c : Prop} [Decidable c] {s a b : State} (h : Steady s a) (k : Steady s b) :
    Steady s (if c then a else b) := by
  split
  · exact h
  · exact k

theorem Based.ite {c : Prop} [Decidable c] {s a b : State} (h : Based s a) (k : Based s b) :
    Based s (if c then a else b) := by
  split
  · exact h
  · exact k

/-- A record update of parts that the relation allows to change. -/
theorem Kept.mk {X : State} {free web time wake pins adm flash intake bobbin sentinel panels control commons hbm tables
    history look events port markers seams bolt faults power hold}
    (h1 : time.wall = X.time.wall) (h2 : web.counts = X.web.counts) (h3 : X.pins.fault = true → pins.fault = true)
    (h4 : X.pins.thermtrip = true → pins.thermtrip = true) (h5 : X.markers.inhibited = true → markers.inhibited = true)
    (h6 : Memory.wf 0xFF X.flash.mem = true → Memory.wf 0xFF flash.mem = true)
    (h7 : Memory.wf 0 X.hbm.mem = true → Memory.wf 0 hbm.mem = true)
    (h8 : Memory.wf 0 X.commons.mem = true → Memory.wf 0 commons.mem = true)
    (h9 : (∀ p : PanelId, X.panels[p].memWf = true) → ∀ p : PanelId, panels[p].memWf = true) :
    Kept X ⟨X.pending, X.clock, free, web, time, wake, X.levels, pins, adm, X.fuses, X.pat, flash, intake, bobbin, sentinel,
      panels, control, commons, hbm, tables, history, look, events, port, markers, seams, bolt, faults, power, hold⟩ :=
  ⟨rfl, rfl, h1, rfl, rfl, rfl, h2, h3, h4, h5, h6, h7, h8, h9⟩

/-- As `Kept.mk`, where what the relation looks at is the same in both. -/
theorem Kept.rest {X : State} {free web time wake pins adm flash intake bobbin sentinel panels control commons hbm tables
    history look events port markers seams bolt faults power hold}
    (h1 : time.wall = X.time.wall := by rfl) (h2 : web.counts = X.web.counts := by rfl)
    (h3 : X.pins.fault = true → pins.fault = true := by exact fun h => h)
    (h4 : X.pins.thermtrip = true → pins.thermtrip = true := by exact fun h => h)
    (h5 : X.markers.inhibited = true → markers.inhibited = true := by exact fun h => h)
    (h6 : Memory.wf 0xFF X.flash.mem = true → Memory.wf 0xFF flash.mem = true := by exact fun h => h)
    (h7 : Memory.wf 0 X.hbm.mem = true → Memory.wf 0 hbm.mem = true := by exact fun h => h)
    (h8 : Memory.wf 0 X.commons.mem = true → Memory.wf 0 commons.mem = true := by exact fun h => h)
    (h9 : (∀ p : PanelId, X.panels[p].memWf = true) → ∀ p : PanelId, panels[p].memWf = true := by exact fun h => h) :
    Kept X ⟨X.pending, X.clock, free, web, time, wake, X.levels, pins, adm, X.fuses, X.pat, flash, intake, bobbin,
      sentinel, panels, control, commons, hbm, tables, history, look, events, port, markers, seams, bolt, faults, power,
      hold⟩ :=
  Kept.mk h1 h2 h3 h4 h5 h6 h7 h8 h9

/-- A record update of parts that every operation may change. -/
theorem Based.mk {X : State} {free web time wake levels pins adm fuses pat flash intake bobbin sentinel panels control
    commons hbm tables history look events port markers seams bolt faults power hold}
    (h1 : X.fuses.flag = true → fuses.flag = true)
    (h2 : ∀ i, X.fuses.key.getLsbD i = true → fuses.key.getLsbD i = true)
    (h6 : Memory.wf 0xFF X.flash.mem = true → Memory.wf 0xFF flash.mem = true)
    (h7 : Memory.wf 0 X.hbm.mem = true → Memory.wf 0 hbm.mem = true)
    (h8 : Memory.wf 0 X.commons.mem = true → Memory.wf 0 commons.mem = true)
    (h9 : (∀ p : PanelId, X.panels[p].memWf = true) → ∀ p : PanelId, panels[p].memWf = true) :
    Based X ⟨X.pending, X.clock, free, web, time, wake, levels, pins, adm, fuses, pat, flash, intake, bobbin, sentinel,
      panels, control, commons, hbm, tables, history, look, events, port, markers, seams, bolt, faults, power, hold⟩ :=
  ⟨rfl, rfl, h1, h2, h6, h7, h8, h9⟩

/-- A record update of parts that admission may change. -/
theorem Steady.mk {X : State} {free web time wake levels pins adm fuses pat flash intake bobbin sentinel panels control
    commons hbm tables history look events port markers seams bolt faults power hold}
    (h1 : time.wall = X.time.wall) (h2 : web.counts = X.web.counts)
    (h3 : X.fuses.flag = true → fuses.flag = true)
    (h4 : ∀ i, X.fuses.key.getLsbD i = true → fuses.key.getLsbD i = true)
    (h5 : X.pins.fault = true → pins.fault = true) (h6 : X.pins.thermtrip = true → pins.thermtrip = true)
    (h7 : X.markers.inhibited = true → markers.inhibited = true)
    (h8 : Memory.wf 0xFF X.flash.mem = true → Memory.wf 0xFF flash.mem = true)
    (h9 : Memory.wf 0 X.hbm.mem = true → Memory.wf 0 hbm.mem = true)
    (h10 : Memory.wf 0 X.commons.mem = true → Memory.wf 0 commons.mem = true)
    (h11 : (∀ p : PanelId, X.panels[p].memWf = true) → ∀ p : PanelId, panels[p].memWf = true) :
    Steady X ⟨X.pending, X.clock, free, web, time, wake, levels, pins, adm, fuses, pat, flash, intake, bobbin, sentinel,
      panels, control, commons, hbm, tables, history, look, events, port, markers, seams, bolt, faults, power, hold⟩ :=
  ⟨rfl, rfl, h1, h2, h3, h4, h5, h6, h7, h8, h9, h10, h11⟩

/-- A fold of operations. -/
theorem Kept.foldl {α : Type} {f : State → α → State} (h : ∀ s x, Kept s (f s x)) (s : State) (l : List α) :
    Kept s (l.foldl f s) := by
  induction l generalizing s with
  | nil => exact Kept.refl _
  | cons a l ih => exact (h s a).trans (ih _)

/-- A fold of operations whose accumulator holds the state at `π`. -/
theorem Kept.foldl_on {α β : Type} (π : β → State) {f : β → α → β} (h : ∀ b x, Kept (π b) (π (f b x))) (b : β)
    (l : List α) : Kept (π b) (π (l.foldl f b)) := by
  induction l generalizing b with
  | nil => exact Kept.refl _
  | cons a l ih => exact (h b a).trans (ih _)

/-- A fold of operations, for what every operation keeps. -/
theorem Based.foldl {α : Type} {f : State → α → State} (h : ∀ s x, Based s (f s x)) (s : State) (l : List α) :
    Based s (l.foldl f s) := by
  induction l generalizing s with
  | nil => exact Based.refl _
  | cons a l ih => exact (h s a).trans (ih _)

theorem Based.foldl_on {α β : Type} (π : β → State) {f : β → α → β} (h : ∀ b x, Based (π b) (π (f b x))) (b : β)
    (l : List α) : Based (π b) (π (l.foldl f b)) := by
  induction l generalizing b with
  | nil => exact Based.refl _
  | cons a l ih => exact (h b a).trans (ih _)

theorem Steady.foldl_on {α β : Type} (π : β → State) {f : β → α → β} (h : ∀ b x, Steady (π b) (π (f b x))) (b : β)
    (l : List α) : Steady (π b) (π (l.foldl f b)) := by
  induction l generalizing b with
  | nil => exact Steady.refl _
  | cons a l ih => exact (h b a).trans (ih _)

theorem Steady.foldl {α : Type} {f : State → α → State} (h : ∀ s x, Steady s (f s x)) (s : State) (l : List α) :
    Steady s (l.foldl f s) := Steady.foldl_on id h s l

/-- A command's answer, where it is a next state, keeps what the state before it held. -/
structure KeptBy (s : State) (r : Result) : Prop where
  of_next : ∀ {t}, r = .next t → Kept s t

/-- As `KeptBy`, for what admission keeps too. -/
structure SteadyBy (s : State) (r : Result) : Prop where
  of_next : ∀ {t}, r = .next t → Steady s t

/-- As `KeptBy`, for what every command keeps. -/
structure BasedBy (s : State) (r : Result) : Prop where
  of_next : ∀ {t}, r = .next t → Based s t

/-- As `KeptBy`, for an operation that answers a value and a state, or nothing. -/
structure KeptOpt {α : Type} (s : State) (o : Option (α × State)) : Prop where
  of_some : ∀ {a t}, o = some (a, t) → Kept s t

theorem KeptOpt.none {α : Type} (s : State) : KeptOpt s (none : Option (α × State)) := by
  constructor
  rintro a u ⟨⟩

theorem KeptOpt.some {α : Type} {s : State} {p : α × State} (h : Kept s p.2) : KeptOpt s (some p) := by
  constructor
  rintro a u ⟨⟩
  exact h

/-- As `KeptBy`, for the effect of a panel's instruction, if it has one. -/
structure KeptEff (o : Option (Nat → State → State)) : Prop where
  of_some : ∀ {g}, o = some g → ∀ t s, Kept s (g t s)

theorem KeptEff.none : KeptEff none := ⟨by rintro g ⟨⟩⟩

theorem KeptEff.some {g : Nat → State → State} (h : ∀ t s, Kept s (g t s)) : KeptEff (some g) := ⟨by rintro g ⟨⟩; exact h⟩

/-- As `KeptEff`, for an instruction that the control sequencer has too. -/
structure KeptFun (o : Option (State → State)) : Prop where
  of_some : ∀ {g}, o = some g → ∀ s, Kept s (g s)

theorem KeptFun.none : KeptFun none := ⟨by rintro g ⟨⟩⟩

theorem KeptFun.some {g : State → State} (h : ∀ s, Kept s (g s)) : KeptFun (some g) := ⟨by rintro g ⟨⟩; exact h⟩

theorem KeptFun.map {o : Option (State → State)} (h : KeptFun o) : KeptEff (o.map fun g _ => g) := by
  cases o with
  | none => exact KeptEff.none
  | some g => exact KeptEff.some fun _ => h.of_some rfl

theorem KeptBy.ite {c : Prop} [Decidable c] {s : State} {a b : Result} (h : KeptBy s a) (k : KeptBy s b) :
    KeptBy s (if c then a else b) := by
  split
  · exact h
  · exact k

theorem SteadyBy.ite {c : Prop} [Decidable c] {s : State} {a b : Result} (h : SteadyBy s a) (k : SteadyBy s b) :
    SteadyBy s (if c then a else b) := by
  split
  · exact h
  · exact k

theorem BasedBy.ite {c : Prop} [Decidable c] {s : State} {a b : Result} (h : BasedBy s a) (k : BasedBy s b) :
    BasedBy s (if c then a else b) := by
  split
  · exact h
  · exact k

theorem KeptBy.next {s t : State} (h : Kept s t) : KeptBy s (.next t) := by
  constructor
  rintro u ⟨⟩
  exact h

theorem BasedBy.fault {s : State} (r : Fault) : BasedBy s (.fault r) := by
  constructor
  rintro u ⟨⟩

theorem KeptBy.fault {s : State} (r : Fault) : KeptBy s (.fault r) := by
  constructor
  rintro u ⟨⟩

theorem KeptBy.when {c : Bool} {s : State} {f : State → State} (h : Kept s (f s)) : KeptBy s (when c s f) := by
  constructor
  rintro u ⟨⟩
  cases c
  · exact Kept.refl s
  · exact h

theorem KeptBy.from {s t : State} {r : Result} (h : Kept s t) (k : KeptBy t r) : KeptBy s r :=
  ⟨fun e => h.trans (k.of_next e)⟩

theorem BasedBy.from {s t : State} {r : Result} (h : Based s t) (k : BasedBy t r) : BasedBy s r :=
  ⟨fun e => h.trans (k.of_next e)⟩

theorem SteadyBy.from {s t : State} {r : Result} (h : Steady s t) (k : SteadyBy t r) : SteadyBy s r :=
  ⟨fun e => h.trans (k.of_next e)⟩

theorem KeptBy.steadyBy {s : State} {r : Result} (h : KeptBy s r) : SteadyBy s r := ⟨fun e => (h.of_next e).steady⟩

theorem SteadyBy.basedBy {s : State} {r : Result} (h : SteadyBy s r) : BasedBy s r := ⟨fun e => (h.of_next e).based⟩

theorem KeptBy.basedBy {s : State} {r : Result} (h : KeptBy s r) : BasedBy s r := ⟨fun e => (h.of_next e).based⟩

theorem SteadyBy.next {s t : State} (h : Steady s t) : SteadyBy s (.next t) := by
  constructor
  rintro u ⟨⟩
  exact h

theorem SteadyBy.when {c : Bool} {s : State} {f : State → State} (h : Steady s (f s)) : SteadyBy s (when c s f) := by
  constructor
  rintro u ⟨⟩
  cases c
  · exact Steady.refl s
  · exact h

theorem BasedBy.next {s t : State} (h : Based s t) : BasedBy s (.next t) := by
  constructor
  rintro u ⟨⟩
  exact h

theorem BasedBy.when {c : Bool} {s : State} {f : State → State} (h : Based s (f s)) : BasedBy s (when c s f) := by
  constructor
  rintro u ⟨⟩
  cases c
  · exact Based.refl s
  · exact h

/-- A panel's stores after a change of each. -/
theorem Panel.memWf_of {x y : Panel} (h : x.memWf = true)
    (a : Memory.wf 0 x.scratch = true → Memory.wf 0 y.scratch = true)
    (b : Memory.wf 0 x.fileA = true → Memory.wf 0 y.fileA = true)
    (c : Memory.wf 0 x.fileB = true → Memory.wf 0 y.fileB = true) : y.memWf = true := by
  simp only [Panel.memWf, Bool.and_eq_true] at h ⊢
  exact ⟨⟨a h.1.1, b h.1.2⟩, c h.2⟩

/-- The panels' stores after one panel's change. -/
theorem upd_memWf {v : Vector Panel 16} (q : PanelId) {f : Panel → Panel} (hf : ∀ x : Panel, x.memWf = true → (f x).memWf = true)
    (h : ∀ p : PanelId, v[p].memWf = true) (p : PanelId) : (Vector.upd v q f)[p].memWf = true := by
  unfold Vector.upd
  simp only [Fin.getElem_fin, Vector.getElem_set]
  split
  · exact hf _ (h q)
  · exact h p

/-- The panels' stores after a change of every panel. -/
theorem map_memWf {v : Vector Panel 16} {f : Panel → Panel} (hf : ∀ x : Panel, x.memWf = true → (f x).memWf = true)
    (h : ∀ p : PanelId, v[p].memWf = true) (p : PanelId) : (v.map f)[p].memWf = true := by
  simp only [Fin.getElem_fin, Vector.getElem_map]
  exact hf _ (h p)

/-- The counts after a change of one decoder that keeps its count. -/
theorem upd_counts {v : Vector Encoder 2} (d : DecId) {f : Encoder → Encoder} (hf : ∀ x : Encoder, (f x).count = x.count) :
    ((Vector.upd v d f)[0].count, (Vector.upd v d f)[1].count) = (v[0].count, v[1].count) := by
  unfold Vector.upd
  fin_cases d <;> simp [hf]

/-- The counts after a change of both decoders that keeps their counts. -/
theorem map_counts {v : Vector Encoder 2} {f : Encoder → Encoder} (hf : ∀ x : Encoder, (f x).count = x.count) :
    ((v.map f)[0].count, (v.map f)[1].count) = (v[0].count, v[1].count) := by
  simp [hf]

end Sys2Proof.Machine
end

