-- ==== Sys2Proof/Laws/KeptOps.lean ====
section
/-! SUPPORT. The shared operations, the links, the halo, the calibration and the stores:
what each operation and command keeps, as Laws/Kept.lean lists it. -/

namespace Sys2Proof.Machine

set_option Elab.async false
set_option linter.unreachableTactic false
set_option linter.unusedTactic false

/-! ### Machine/SeamOps.lean -/

theorem State.updSeam_kept (s : State) (q : SeamId) (f : Seam → Seam) : Kept s (State.updSeam s q f) := by
  unfold State.updSeam
  refine Kept.trans ?_ Kept.rest
  exact Kept.refl _

theorem State.updLink_kept (s : State) (q : SeamId) (f : BoltLink → BoltLink) : Kept s (State.updLink s q f) := by
  unfold State.updLink
  refine Kept.trans ?_ Kept.rest
  exact Kept.refl _

theorem State.queueOn_kept (s : State) (q : SeamId) (vc type : Nat) (dest src : Addr) (payload : List Byte)
    (line : Option LineSeq) (arrived : Option Nat) :
    Kept s (State.queueOn s q vc type dest src payload line arrived) := by
  unfold State.queueOn
  refine Kept.trans ?_ (State.updSeam_kept ..)
  exact Kept.refl _

theorem State.countUnroutable_kept (s : State) (q : SeamId) : Kept s (State.countUnroutable s q) := by
  unfold State.countUnroutable
  refine Kept.trans ?_ (State.updSeam_kept ..)
  exact Kept.refl _

theorem State.sendTo_kept (s : State) (vc type : Nat) (dest : Addr) (payload : List Byte) :
    Kept s (State.sendTo s vc type dest payload) := by
  unfold State.sendTo
  try dsimp only
  repeat' first
    | with_reducible exact Kept.refl _
    | with_reducible refine Kept.ite ?_ ?_
    | with_reducible apply Kept.after (State.queueOn_kept ..)
    | with_reducible apply Kept.after (State.countUnroutable_kept ..)
    | dsimp only
    | split
    | refine Kept.trans ?_ Kept.rest

theorem State.broadcast_kept (s : State) (vc type : Nat) (payload : List Byte) :
    Kept s (State.broadcast s vc type payload) := by
  unfold State.broadcast
  refine Kept.trans ?_ (Kept.foldl (fun s x => ?_) _ _)
  · exact Kept.refl _
  · split
    · refine Kept.trans ?_ (State.queueOn_kept ..)
      exact Kept.refl _
    · exact Kept.refl _

theorem State.queueEvent_kept (s : State) (q : SeamId) (dest src : Addr) (r : Record) :
    Kept s (State.queueEvent s q dest src r) := by
  unfold State.queueEvent
  dsimp only
  split
  · refine Kept.trans ?_ Kept.rest
    refine Kept.trans ?_ (State.updSeam_kept ..)
    refine Kept.trans ?_ (State.queueOn_kept ..)
    exact Kept.refl _
  · refine Kept.trans ?_ (State.updSeam_kept ..)
    refine Kept.trans ?_ (State.queueOn_kept ..)
    exact Kept.refl _

theorem State.relay_kept (s : State) (r : Record) : Kept s (State.relay s r) := by
  unfold State.relay
  split
  · split
    · split
      · refine Kept.trans ?_ (State.queueEvent_kept ..)
        exact Kept.refl _
      · refine Kept.trans ?_ (State.countUnroutable_kept ..)
        exact Kept.refl _
    · exact Kept.refl _
  · exact Kept.refl _

/-! ### Machine/Ops.lean -/

theorem done_kept (s : State) : KeptBy s (done s) := by
  unfold done
  refine KeptBy.next ?_
  exact Kept.refl _

theorem State.takeFree_kept (s : State) : Kept s (State.takeFree s).2 := by
  unfold State.takeFree
  dsimp only
  refine Kept.trans ?_ Kept.rest
  exact Kept.refl _

theorem State.takeFree_kept_eq {a0} {t : State} {s : State} (heq : State.takeFree s = (a0, t)) : Kept s t := by
  have := State.takeFree_kept s
  rw [heq] at this
  exact this

theorem State.updDom_kept (s : State) (id : Nat) (f : Domain → Domain) : Kept s (State.updDom s id f) := by
  unfold State.updDom
  refine Kept.trans ?_ Kept.rest
  exact Kept.refl _

theorem State.tryLoss_kept (s : State) : Kept s (State.tryLoss s) := by
  unfold State.tryLoss
  dsimp only
  split
  · refine Kept.trans ?_ (State.relay_kept ..)
    refine Kept.trans ?_ Kept.rest
    exact Kept.refl _
  · exact Kept.refl _

theorem State.enterOne_kept (s : State) (r : Record) :
    Kept s (State.enterOne s r) := by
  unfold State.enterOne
  try dsimp only
  repeat' first
    | with_reducible exact Kept.refl _
    | with_reducible refine Kept.ite ?_ ?_
    | with_reducible apply Kept.after (State.relay_kept ..)
    | dsimp only
    | split
    | refine Kept.trans ?_ Kept.rest

theorem State.enterRecord_kept (s : State) (r : Record) :
    Kept s (State.enterRecord s r) := by
  unfold State.enterRecord
  try dsimp only
  repeat' first
    | with_reducible exact Kept.refl _
    | with_reducible refine Kept.ite ?_ ?_
    | with_reducible apply Kept.after (State.enterOne_kept ..)
    | with_reducible apply Kept.after (State.tryLoss_kept ..)
    | dsimp only
    | split
    | refine Kept.trans ?_ Kept.rest

theorem State.submit_kept (s : State) (r : Record) : Kept s (State.submit s r) := by
  unfold State.submit
  split
  · exact Kept.refl _
  · split
    · refine Kept.trans ?_ (State.enterRecord_kept ..)
      exact Kept.refl _
    · refine Kept.trans ?_ Kept.rest
      exact Kept.refl _

theorem State.status_kept (s : State) (cause small : Nat) (body : BitVec 128) :
    Kept s (State.status s cause small body) := by
  unfold State.status
  refine Kept.trans ?_ (State.submit_kept ..)
  exact Kept.refl _

theorem State.statusPos_kept (s : State) (cause small : Nat) : Kept s (State.statusPos s cause small) := by
  unfold State.statusPos
  refine Kept.trans ?_ (State.status_kept ..)
  exact Kept.refl _

theorem State.boltRecord_kept (s : State) (sub small at16 : Nat) (detail : Nat) :
    Kept s (State.boltRecord s sub small at16 detail) := by
  unfold State.boltRecord
  refine Kept.trans ?_ (State.submit_kept ..)
  exact Kept.refl _

theorem State.assertFault_kept (s : State) : Kept s (State.assertFault s) := by
  unfold State.assertFault
  refine Kept.trans ?_ (Kept.mk rfl rfl (fun _ => rfl) (fun h => h) (fun h => h) (fun h => h) (fun h => h) (fun h => h) (fun h => h))
  exact Kept.refl _

theorem State.faultId_kept (s : State) :
    Kept s (State.faultId s).2 := by
  unfold State.faultId
  try dsimp only
  repeat' first
    | with_reducible exact Kept.refl _
    | with_reducible refine Kept.ite ?_ ?_
    | dsimp only
    | split
    | with_reducible apply Kept.after (State.takeFree_kept ..)
    | dsimp only
    | split
    | exact State.takeFree_kept_eq (by assumption)
    | refine Kept.trans ?_ Kept.rest

theorem State.faultId_kept_eq {a0} {t : State} {s : State}
    (heq : State.faultId s = (a0, t)) :
    Kept s t := by
  have := State.faultId_kept s
  rw [heq] at this
  exact this

theorem State.formFault_kept (s : State) (cause unit detail : Nat) :
    Kept s (State.formFault s cause unit detail).2 := by
  unfold State.formFault
  try dsimp only
  repeat' first
    | with_reducible exact Kept.refl _
    | with_reducible refine Kept.ite ?_ ?_
    | dsimp only
    | split
    | with_reducible apply Kept.after (State.faultId_kept ..)
    | with_reducible apply Kept.after (State.submit_kept ..)
    | dsimp only
    | split
    | exact State.faultId_kept_eq (by assumption)
    | refine Kept.trans ?_ Kept.rest

theorem State.formFault_kept_eq {a0} {t : State} {s : State} {cause unit detail : Nat}
    (heq : State.formFault s cause unit detail = (a0, t)) :
    Kept s t := by
  have := State.formFault_kept s cause unit detail
  rw [heq] at this
  exact this

theorem State.faultRecord_kept (s : State) (cause unit detail : Nat) :
    Kept s (State.faultRecord s cause unit detail) := by
  unfold State.faultRecord
  try dsimp only
  repeat' first
    | with_reducible exact Kept.refl _
    | with_reducible refine Kept.ite ?_ ?_
    | with_reducible apply Kept.after (State.formFault_kept ..)
    | dsimp only
    | split
    | exact State.formFault_kept_eq (by assumption)
    | refine Kept.trans ?_ Kept.rest

theorem State.detect_kept (s : State) (cause unit detail loc : Nat) :
    Kept s (State.detect s cause unit detail loc).2 := by
  unfold State.detect
  try dsimp only
  repeat' first
    | with_reducible exact Kept.refl _
    | with_reducible refine Kept.ite ?_ ?_
    | dsimp only
    | split
    | with_reducible apply Kept.after (State.assertFault_kept ..)
    | with_reducible apply Kept.after (State.formFault_kept ..)
    | dsimp only
    | split
    | exact State.formFault_kept_eq (by assumption)
    | refine Kept.trans ?_ Kept.rest

theorem State.detect_kept_eq {a0} {t : State} {s : State} {cause unit detail loc : Nat}
    (heq : State.detect s cause unit detail loc = (a0, t)) :
    Kept s t := by
  have := State.detect_kept s cause unit detail loc
  rw [heq] at this
  exact this

theorem State.noteDrops_kept (s : State) : Kept s (State.noteDrops s) := by
  unfold State.noteDrops
  split
  · dsimp only
    refine Kept.trans ?_ (State.detect_kept ..)
    refine Kept.trans ?_ (State.updSeam_kept ..)
    exact Kept.refl _
  · exact Kept.refl _

theorem State.markRecord_kept (s : State) (sub marker : Nat) (target : Pos) (covered : Nat) (tag : Tag) :
    Kept s (State.markRecord s sub marker target covered tag) := by
  unfold State.markRecord
  refine Kept.trans ?_ (State.submit_kept ..)
  exact Kept.refl _

theorem State.callFires_kept (s : State) (type cls : Nat) (pe : Pos) (tag : Tag) :
    Kept s (State.callFires s type cls pe tag) := by
  unfold State.callFires
  split
  · exact Kept.refl _
  · dsimp only
    refine Kept.trans ?_ Kept.rest
    exact Kept.refl _

theorem State.bump_kept (s : State) (i n : Nat) : Kept s (State.bump s i n) := by
  unfold State.bump
  refine Kept.trans ?_ Kept.rest
  exact Kept.refl _

theorem State.closingRecord_kept (s : State) (type cls small : Nat) (flags : BitVec 8) (pe : Pos) (tag : Tag) :
    Kept s (State.closingRecord s type cls small flags pe tag) := by
  unfold State.closingRecord
  dsimp only
  refine Kept.trans ?_ (State.callFires_kept ..)
  refine Kept.trans ?_ (State.submit_kept ..)
  refine Kept.trans ?_ (State.bump_kept ..)
  exact Kept.refl _

theorem State.closeWindow_kept (s : State) (tag : Tag) (type cls small : Nat) (flags : BitVec 8) :
    Kept s (State.closeWindow s tag type cls small flags) := by
  unfold State.closeWindow
  split
  · dsimp only
    refine Kept.trans ?_ (State.closingRecord_kept ..)
    refine Kept.trans ?_ Kept.rest
    exact Kept.refl _
  · refine Kept.trans ?_ Kept.rest
    exact Kept.refl _

theorem State.discardFires_kept (s : State) : Kept s (State.discardFires s) := by
  unfold State.discardFires
  dsimp only
  split
  · refine Kept.trans ?_ (Kept.foldl (fun s x => ?_) _ _)
    · refine Kept.trans ?_ (Kept.mk rfl rfl (fun h => h) (fun h => h) (fun _ => rfl) (fun h => h) (fun h => h) (fun h => h) (fun h => h))
      exact Kept.refl _
    · refine Kept.trans ?_ (State.markRecord_kept ..)
      exact Kept.refl _
  · refine Kept.trans ?_ (State.markRecord_kept ..)
    refine Kept.trans ?_ (Kept.foldl (fun s x => ?_) _ _)
    · refine Kept.trans ?_ (Kept.mk rfl rfl (fun h => h) (fun h => h) (fun _ => rfl) (fun h => h) (fun h => h) (fun h => h) (fun h => h))
      exact Kept.refl _
    · refine Kept.trans ?_ (State.markRecord_kept ..)
      exact Kept.refl _

theorem State.mapRuns_kept (s : State) (f : SlotRun → SlotRun) :
    Kept s (State.mapRuns s f) := by
  unfold State.mapRuns
  try dsimp only
  repeat' first
    | with_reducible exact Kept.refl _
    | with_reducible refine Kept.ite ?_ ?_
    | dsimp only
    | split
    | refine Kept.trans ?_ Kept.rest

theorem State.losePosition_kept (s : State) : Kept s (State.losePosition s) := by
  unfold State.losePosition
  dsimp only
  refine Kept.trans ?_ (Kept.foldl (fun s x => ?_) _ _)
  · refine Kept.trans ?_ (State.discardFires_kept ..)
    refine Kept.trans ?_ (State.faultRecord_kept ..)
    refine Kept.trans ?_ (State.assertFault_kept ..)
    refine Kept.trans ?_ Kept.rest
    exact Kept.refl _
  · refine Kept.trans ?_ (State.closeWindow_kept ..)
    exact Kept.refl _

theorem State.addUncertainty_kept (s : State) (d : DecId) (n : Nat) : Kept s (State.addUncertainty s d n) := by
  unfold State.addUncertainty
  dsimp only
  refine Kept.trans ?_ (Kept.mk rfl (upd_counts _ fun _ => rfl) (fun h => h) (fun h => h) (fun h => h) (fun h => h) (fun h => h) (fun h => h) (fun h => h))
  exact Kept.refl _

theorem State.checkSlip_kept (s : State) : Kept s (State.checkSlip s) := by
  unfold State.checkSlip
  split
  · refine Kept.trans ?_ (State.losePosition_kept ..)
    exact Kept.refl _
  · exact Kept.refl _

theorem State.requestPll_kept (s : State) : Kept s (State.requestPll s) := by
  unfold State.requestPll
  split
  · exact Kept.refl _
  · refine Kept.trans ?_ Kept.rest
    exact Kept.refl _

theorem State.retrainPort_kept (s : State) (id : Nat) :
    Kept s (State.retrainPort s id) := by
  unfold State.retrainPort
  try dsimp only
  repeat' first
    | with_reducible exact Kept.refl _
    | with_reducible refine Kept.ite ?_ ?_
    | with_reducible apply Kept.after (State.updSeam_kept ..)
    | dsimp only
    | split
    | refine Kept.trans ?_ Kept.rest

theorem State.settleClocks_kept (s : State) : Kept s (State.settleClocks s) := by
  unfold State.settleClocks
  dsimp only
  refine Kept.trans ?_ Kept.rest
  split
  · refine Kept.trans ?_ (State.requestPll_kept ..)
    exact Kept.refl _
  · split
    · refine Kept.trans ?_ Kept.rest
      exact Kept.refl _
    · exact Kept.refl _

theorem State.wakeDomain_kept (s : State) (id : Nat) : Kept s (State.wakeDomain s id) := by
  have low (f : Domain → Domain) (b : Bool) : Kept s (if b then
      { State.updDom s id f with power := { (State.updDom s id f).power with regulator := .rising, regSince := s.clock } }
      else State.updDom s id f) :=
    Kept.ite ((State.updDom_kept ..).trans Kept.rest)
      (State.updDom_kept ..)
  unfold State.wakeDomain
  refine Kept.ite (Kept.refl _) ?_
  generalize hd : s.dom id = d
  clear hd
  rcases d with _ | _ | _ | _ | ⟨r, _ | _⟩
  all_goals first
    | exact Kept.refl _
    | exact State.retrainPort_kept ..
    | exact low _ _
    | exact (State.takeFree_kept s).trans (Kept.ite (State.updDom_kept ..) (State.updDom_kept ..))

theorem State.addVote_kept (s : State) (c : Client) (id : Nat) (retain : Bool) :
    Kept s (State.addVote s c id retain) := by
  unfold State.addVote
  dsimp only
  split
  · split
    · exact Kept.refl _
    · refine Kept.trans ?_ Kept.rest
      exact Kept.refl _
  · refine Kept.trans ?_ (State.wakeDomain_kept ..)
    split
    · exact Kept.refl _
    · refine Kept.trans ?_ Kept.rest
      exact Kept.refl _

theorem State.startHysteresis_kept (s : State) (id : Nat) : Kept s (State.startHysteresis s id) := by
  unfold State.startHysteresis
  split
  · exact Kept.refl _
  · refine Kept.trans ?_ (State.updDom_kept ..)
    exact Kept.refl _

theorem State.dropRetained_kept (s : State) (id : Nat) : Kept s (State.dropRetained s id) := by
  unfold State.dropRetained
  split
  · refine Kept.trans ?_ (State.updDom_kept ..)
    exact Kept.refl _
  · exact Kept.refl _

theorem State.dropVote_kept (s : State) (c : Client) (id : Nat) (retain : Bool) :
    Kept s (State.dropVote s c id retain) := by
  unfold State.dropVote
  dsimp only
  split
  · split
    · refine Kept.trans ?_ (State.dropRetained_kept ..)
      refine Kept.trans ?_ Kept.rest
      exact Kept.refl _
    · refine Kept.trans ?_ (State.startHysteresis_kept ..)
      refine Kept.trans ?_ Kept.rest
      exact Kept.refl _
  · exact Kept.refl _

theorem State.addVotes_kept (s : State) (c : Client) (ids : List Nat) (retain : Bool) :
    Kept s (State.addVotes s c ids retain) := by
  unfold State.addVotes
  refine Kept.trans ?_ (Kept.foldl (fun s x => ?_) _ _)
  · exact Kept.refl _
  · refine Kept.trans ?_ (State.addVote_kept ..)
    exact Kept.refl _

theorem State.dropVotes_kept (s : State) (c : Client) (ids : List Nat) (retain : Bool) :
    Kept s (State.dropVotes s c ids retain) := by
  unfold State.dropVotes
  refine Kept.trans ?_ (Kept.foldl (fun s x => ?_) _ _)
  · exact Kept.refl _
  · refine Kept.trans ?_ (State.dropVote_kept ..)
    exact Kept.refl _

theorem State.eventVotes_kept (s : State) : Kept s (State.eventVotes s) := by
  unfold State.eventVotes
  dsimp only
  split
  · split
    · refine Kept.trans ?_ (State.addVote_kept ..)
      refine Kept.trans ?_ (State.addVote_kept ..)
      exact Kept.refl _
    · refine Kept.trans ?_ (State.dropVote_kept ..)
      refine Kept.trans ?_ (State.addVote_kept ..)
      exact Kept.refl _
  · split
    · refine Kept.trans ?_ (State.addVote_kept ..)
      refine Kept.trans ?_ (State.dropVote_kept ..)
      exact Kept.refl _
    · refine Kept.trans ?_ (State.dropVote_kept ..)
      refine Kept.trans ?_ (State.dropVote_kept ..)
      exact Kept.refl _

theorem State.checkRestored_kept (s : State) :
    Kept s (State.checkRestored s) := by
  unfold State.checkRestored
  try dsimp only
  repeat' first
    | with_reducible exact Kept.refl _
    | with_reducible refine Kept.ite ?_ ?_
    | dsimp only
    | split
    | refine Kept.trans ?_ Kept.rest

theorem State.recordWake_kept (s : State) (cause detail : Nat) : Kept s (State.recordWake s cause detail) := by
  unfold State.recordWake
  split
  · exact Kept.refl _
  · refine Kept.trans ?_ (State.status_kept ..)
    exact Kept.trans (t := { s with wake := _ }) Kept.rest Kept.rest

theorem State.noteFirst_kept (s : State) : Kept s (State.noteFirst s) := by
  unfold State.noteFirst
  split
  · exact Kept.refl _
  · exact Kept.rest

theorem State.restore_kept (s : State) (cause : Nat) : Kept s (State.restore s cause) := by
  unfold State.restore
  dsimp only
  refine Kept.trans ?_ (State.statusPos_kept ..)
  refine Kept.trans ?_ Kept.rest
  refine Kept.trans ?_ (State.addVotes_kept ..)
  exact Kept.refl _

theorem State.raiseWake_kept (s : State) (cause detail : Nat) (targets : List Nat) :
    Kept s (State.raiseWake s cause detail targets) := by
  unfold State.raiseWake
  refine Kept.trans ?_ (State.addVotes_kept ..)
  refine Kept.trans ?_ (State.recordWake_kept ..)
  exact Kept.refl _

theorem State.startControl_kept (s : State) (pc : Nat) : Kept s (State.startControl s pc) := by
  unfold State.startControl
  dsimp only
  refine Kept.trans ?_ (State.addVote_kept ..)
  refine Kept.trans ?_ Kept.rest
  exact Kept.refl _

theorem State.startPending_kept (s : State) : Kept s (State.startPending s) := by
  unfold State.startPending
  split
  · split
    · dsimp only
      split
      · refine Kept.trans ?_ (State.startControl_kept ..)
        refine Kept.trans ?_ Kept.rest
        exact Kept.refl _
      · refine Kept.trans ?_ Kept.rest
        exact Kept.refl _
    · exact Kept.refl _
  · exact Kept.refl _

theorem State.raiseEntry_kept (s : State) (k : Nat) : Kept s (State.raiseEntry s k) := by
  unfold State.raiseEntry
  split
  · refine Kept.trans ?_ (State.startPending_kept ..)
    refine Kept.trans ?_ Kept.rest
    exact Kept.refl _
  · exact Kept.refl _

theorem State.resumeWaite_kept (s : State) : Kept s (State.resumeWaite s) := by
  unfold State.resumeWaite
  split
  · dsimp only
    refine Kept.trans ?_ (State.addVote_kept ..)
    refine Kept.trans ?_ Kept.rest
    exact Kept.refl _
  · exact Kept.refl _

theorem State.continueControl_kept (s : State) : Kept s (State.continueControl s) := by
  unfold State.continueControl
  split
  · dsimp only
    refine Kept.trans ?_ (State.startPending_kept ..)
    split
    · exact Kept.ite (Kept.refl _) (State.resumeWaite_kept ..)
    · exact Kept.refl _
  · exact Kept.refl _

theorem State.endWakes_kept (s : State) : Kept s (State.endWakes s) :=
  Kept.foldl (fun _ _ => State.dropVote_kept ..) _ _

theorem State.settle_kept (s : State) : Kept s (State.settle s) :=
  (((((State.noteDrops_kept s).trans (State.continueControl_kept _)).trans (State.endWakes_kept _)).trans
    (State.eventVotes_kept _)).trans (State.checkRestored_kept _)).trans (State.settleClocks_kept _)

theorem State.controlEvent_kept (s : State) (b : Nat) : Kept s (State.controlEvent s b) := by
  unfold State.controlEvent
  dsimp only
  split
  · split
    · refine Kept.trans ?_ Kept.rest
      exact Kept.refl _
    · split
      · refine Kept.trans ?_ (State.resumeWaite_kept ..)
        refine Kept.trans ?_ Kept.rest
        exact Kept.refl _
      · refine Kept.trans ?_ (State.raiseWake_kept ..)
        refine Kept.trans ?_ Kept.rest
        exact Kept.refl _
  · refine Kept.trans ?_ Kept.rest
    exact Kept.refl _

/-! ### Machine/Geometry.lean -/

theorem State.putLine_kept (s : State) (l : BobLine) : Kept s (State.putLine s l) := by
  unfold State.putLine
  dsimp only
  refine Kept.trans ?_ Kept.rest
  exact Kept.refl _

theorem State.putHalo_kept (s : State) (side : Fin 2) (e : HaloEntry) : Kept s (State.putHalo s side e) := by
  unfold State.putHalo
  dsimp only
  refine Kept.trans ?_ Kept.rest
  exact Kept.refl _

/-! ### Machine/Spans.lean -/

theorem State.updGroup_kept (s : State) (g : Nat) (f : Group → Group) : Kept s (State.updGroup s g f) := by
  unfold State.updGroup
  split
  · refine Kept.trans ?_ Kept.rest
    exact Kept.refl _
  · exact Kept.refl _

theorem State.startSpan_kept (s : State) (g : Nat) :
    Kept s (State.startSpan s g) := by
  unfold State.startSpan
  try dsimp only
  repeat' first
    | with_reducible exact Kept.refl _
    | with_reducible refine Kept.trans ?_ (State.updGroup_kept ..)
    | with_reducible refine Kept.trans ?_ (State.addVotes_kept ..)
    | dsimp only
    | split
    | refine Kept.trans ?_ Kept.rest

theorem State.startSpans_kept (s : State) :
    Kept s (State.startSpans s) := by
  unfold State.startSpans
  try dsimp only
  repeat' first
    | with_reducible exact Kept.refl _
    | with_reducible refine Kept.trans ?_ (State.startSpan_kept ..)
    | with_reducible refine Kept.trans ?_ (Kept.foldl (fun s x => ?_) _ _)
    | dsimp only
    | split
    | refine Kept.trans ?_ Kept.rest

theorem State.wakeGroups_kept (s : State) :
    Kept s (State.wakeGroups s) := by
  unfold State.wakeGroups
  try dsimp only
  repeat' first
    | with_reducible exact Kept.refl _
    | with_reducible refine Kept.trans ?_ (State.startSpans_kept ..)
    | dsimp only
    | split
    | refine Kept.trans ?_ Kept.rest

/-! ### Machine/Halo.lean -/

theorem State.clearKey_kept (s : State) (kind key : Nat) :
    Kept s (State.clearKey s kind key) := by
  unfold State.clearKey
  try dsimp only
  repeat' first
    | with_reducible exact Kept.refl _
    | with_reducible refine Kept.ite ?_ ?_
    | with_reducible apply Kept.after (State.wakeGroups_kept ..)
    | dsimp only
    | split
    | refine Kept.trans ?_ Kept.rest

theorem State.sendLine_kept (s : State) (side : Fin 2) (type : Nat) (l : BobLine) :
    Kept s (State.sendLine s side type l) := by
  unfold State.sendLine
  refine Kept.trans ?_ (State.queueOn_kept ..)
  exact Kept.refl _

theorem State.sendHalos_kept (s : State) (l : BobLine) : Kept s (State.sendHalos s l) := by
  unfold State.sendHalos
  split
  · refine Kept.trans ?_ (Kept.foldl (fun s x => ?_) _ _)
    · exact Kept.refl _
    · split
      · refine Kept.trans ?_ (State.sendLine_kept ..)
        exact Kept.refl _
      · exact Kept.refl _
  · exact Kept.refl _

theorem State.sendReplays_kept (s : State) (side : Fin 2) : Kept s (State.sendReplays s side) := by
  unfold State.sendReplays
  refine Kept.trans ?_ (Kept.foldl (fun s x => ?_) _ _)
  · exact Kept.refl _
  · dsimp only
    refine Kept.trans ?_ Kept.rest
    refine Kept.trans ?_ (State.sendLine_kept ..)
    exact Kept.refl _

theorem State.missBefore_kept (s : State) (side : Fin 2) (q : LineSeq) : Kept s (State.missBefore s side q) := by
  unfold State.missBefore
  dsimp only
  refine Kept.trans ?_ (Kept.foldl (fun s x => ?_) _ _)
  · exact Kept.refl _
  · refine Kept.trans ?_ (State.clearKey_kept ..)
    refine Kept.trans ?_ (State.putHalo_kept ..)
    exact Kept.refl _

theorem State.missAll_kept (s : State) (side : Fin 2) :
    Kept s (State.missAll s side) := by
  unfold State.missAll
  try dsimp only
  repeat' first
    | with_reducible exact Kept.refl _
    | with_reducible refine Kept.ite ?_ ?_
    | with_reducible apply Kept.after (State.putHalo_kept ..)
    | with_reducible apply Kept.after (State.clearKey_kept ..)
    | with_reducible apply Kept.after (Kept.foldl (fun s x => ?_) _ _)
    | dsimp only
    | split
    | refine Kept.trans ?_ Kept.rest

theorem State.storeHalo_kept (s : State) (side : Fin 2) (q : LineSeq) (p : List Byte) :
    Kept s (State.storeHalo s side q p) := by
  unfold State.storeHalo
  dsimp only
  refine Kept.trans ?_ (State.clearKey_kept ..)
  refine Kept.trans ?_ Kept.rest
  refine Kept.trans ?_ (State.putHalo_kept ..)
  exact Kept.refl _

theorem State.takeMessage_kept (s : State) (q : SeamId) (vc type : Nat) :
    KeptOpt s (State.takeMessage s q vc type) := by
  unfold State.takeMessage
  split
  · split
    · refine KeptOpt.some ?_
      dsimp only
      refine Kept.trans ?_ (State.updSeam_kept ..)
      exact Kept.refl _
    · exact KeptOpt.none _
  · exact KeptOpt.none _

theorem State.firstAfterReturn_kept (s : State) (q : SeamId) (side : Fin 2) (line : LineSeq) (reset : Bool) :
    Kept s (State.firstAfterReturn s q side line reset) := by
  unfold State.firstAfterReturn
  try dsimp only
  repeat' first
    | with_reducible exact Kept.refl _
    | with_reducible refine Kept.ite ?_ ?_
    | with_reducible apply Kept.after (State.missAll_kept ..)
    | with_reducible apply Kept.after (State.missBefore_kept ..)
    | with_reducible apply Kept.after (State.updLink_kept ..)
    | dsimp only
    | split
    | refine Kept.trans ?_ Kept.rest

theorem State.sumSide_kept (s : State) (side : Fin 2) (line : LineSeq) : Kept s (State.sumSide s side line) := by
  unfold State.sumSide
  split
  · dsimp only
    split
    · refine Kept.trans ?_ (State.updLink_kept ..)
      exact Kept.refl _
    · exact Kept.refl _
  · exact Kept.refl _

theorem execHaloLine_kept (q : SeamId) (s : State) :
    KeptBy s (execHaloLine q s) := by
  unfold execHaloLine
  try dsimp only
  repeat' first
    | with_reducible exact Kept.refl _
    | with_reducible refine Kept.ite ?_ ?_
    | with_reducible refine KeptBy.ite ?_ ?_
    | with_reducible refine KeptBy.next ?_
    | with_reducible refine KeptBy.when ?_
    | with_reducible apply Kept.after (State.updLink_kept ..)
    | with_reducible apply Kept.after (State.firstAfterReturn_kept ..)
    | with_reducible apply Kept.after (State.missBefore_kept ..)
    | with_reducible apply Kept.after (State.storeHalo_kept ..)
    | with_reducible apply Kept.after (State.sumSide_kept ..)
    | with_reducible apply Kept.after (State.settle_kept ..)
    | dsimp only
    | split
    | exact (State.takeMessage_kept ..).of_some (by assumption)
    | refine Kept.trans ?_ Kept.rest

theorem execReplayLine_kept (q : SeamId) (s : State) :
    KeptBy s (execReplayLine q s) := by
  unfold execReplayLine
  try dsimp only
  repeat' first
    | with_reducible exact Kept.refl _
    | with_reducible refine Kept.ite ?_ ?_
    | with_reducible refine KeptBy.ite ?_ ?_
    | with_reducible refine KeptBy.next ?_
    | with_reducible refine KeptBy.when ?_
    | with_reducible exact KeptBy.fault _
    | with_reducible apply Kept.after (State.updLink_kept ..)
    | with_reducible apply Kept.after (State.firstAfterReturn_kept ..)
    | with_reducible apply Kept.after (State.storeHalo_kept ..)
    | with_reducible apply Kept.after (State.sumSide_kept ..)
    | with_reducible apply Kept.after (State.settle_kept ..)
    | dsimp only
    | split
    | exact (State.takeMessage_kept ..).of_some (by assumption)
    | refine Kept.trans ?_ Kept.rest

theorem execLineDeadline_kept (east : Bool) (s : State) : KeptBy s (execLineDeadline east s) := by
  unfold execLineDeadline
  dsimp only
  split
  · refine KeptBy.when ?_
    split
    · split
      · refine Kept.trans ?_ Kept.rest
        refine Kept.trans ?_ (State.putHalo_kept ..)
        refine Kept.trans ?_ Kept.rest
        exact Kept.refl _
      · refine Kept.trans ?_ Kept.rest
        exact Kept.refl _
    · split
      · refine Kept.trans ?_ Kept.rest
        refine Kept.trans ?_ (State.putHalo_kept ..)
        refine Kept.trans ?_ Kept.rest
        exact Kept.refl _
      · refine Kept.trans ?_ Kept.rest
        exact Kept.refl _
  · refine KeptBy.next ?_
    exact Kept.refl _

/-! ### Machine/Latency.lean -/

theorem State.beginLatency_kept (s : State) (gen : BitVec 32) : Kept s (State.beginLatency s gen) := by
  unfold State.beginLatency
  dsimp only
  refine Kept.trans ?_ Kept.rest
  refine Kept.trans ?_ (Kept.foldl (fun s x => ?_) _ _)
  · exact Kept.refl _
  · refine Kept.trans ?_ (State.updLink_kept ..)
    exact Kept.refl _

theorem execLatencySweepStart_kept (s : State) : KeptBy s (execLatencySweepStart s) := by
  unfold execLatencySweepStart
  refine KeptBy.when ?_
  dsimp only
  refine Kept.trans ?_ (State.beginLatency_kept ..)
  refine Kept.trans ?_ (State.broadcast_kept ..)
  refine Kept.trans ?_ Kept.rest
  exact Kept.refl _

theorem execLatencyStart_kept (q : SeamId) (s : State) : KeptBy s (execLatencyStart q s) := by
  unfold execLatencyStart
  split
  · split
    · refine KeptBy.next ?_
      split
      · refine Kept.trans ?_ (State.beginLatency_kept ..)
        refine Kept.trans ?_ ((State.takeMessage_kept ..).of_some (by assumption))
        exact Kept.refl _
      · refine Kept.trans ?_ ((State.takeMessage_kept ..).of_some (by assumption))
        exact Kept.refl _
    · refine KeptBy.next ?_
      exact Kept.refl _
  · refine KeptBy.next ?_
    exact Kept.refl _

theorem execLinkProbeSend_kept (s : State) : KeptBy s (execLinkProbeSend s) := by
  unfold execLinkProbeSend
  split
  · refine KeptBy.when ?_
    dsimp only
    refine Kept.trans ?_ Kept.rest
    refine Kept.trans ?_ (Kept.foldl (fun s x => ?_) _ _)
    · exact Kept.refl _
    · split
      · refine Kept.trans ?_ (State.queueOn_kept ..)
        exact Kept.refl _
      · exact Kept.refl _
  · refine KeptBy.next ?_
    exact Kept.refl _

theorem execLinkProbe_kept (q : SeamId) (s : State) :
    KeptBy s (execLinkProbe q s) := by
  unfold execLinkProbe
  try dsimp only
  repeat' first
    | with_reducible exact Kept.refl _
    | with_reducible refine Kept.ite ?_ ?_
    | with_reducible refine KeptBy.ite ?_ ?_
    | with_reducible refine KeptBy.next ?_
    | with_reducible refine KeptBy.when ?_
    | with_reducible apply Kept.after (State.queueOn_kept ..)
    | dsimp only
    | split
    | exact (State.takeMessage_kept ..).of_some (by assumption)
    | refine Kept.trans ?_ Kept.rest

theorem execLatencyEcho_kept (q : SeamId) (s : State) : KeptBy s (execLatencyEcho q s) := by
  unfold execLatencyEcho
  split
  · refine KeptBy.from ?_ (KeptBy.when ?_)
    · refine Kept.trans ?_ ((State.takeMessage_kept ..).of_some (by assumption))
      exact Kept.refl _
    · refine Kept.trans ?_ (State.updLink_kept ..)
      exact Kept.refl _
  · refine KeptBy.next ?_
    exact Kept.refl _

theorem State.noteReport_kept (s : State) (p : List Byte) : Kept s (State.noteReport s p) := by
  unfold State.noteReport
  split
  · split
    · dsimp only
      refine Kept.trans ?_ Kept.rest
      exact Kept.refl _
    · exact Kept.refl _
  · exact Kept.refl _

theorem execLatencyEchoTimeout_kept (s : State) : KeptBy s (execLatencyEchoTimeout s) := by
  unfold execLatencyEchoTimeout
  split
  · refine KeptBy.when ?_
    dsimp only
    split
    · refine Kept.trans ?_ (State.noteReport_kept ..)
      refine Kept.trans ?_ Kept.rest
      exact Kept.refl _
    · refine Kept.trans ?_ (State.sendTo_kept ..)
      refine Kept.trans ?_ Kept.rest
      exact Kept.refl _
  · refine KeptBy.next ?_
    exact Kept.refl _

theorem State.takeResult_kept (s : State) (q : SeamId) (kind : Nat) : KeptOpt s (State.takeResult s q kind) := by
  unfold State.takeResult
  split
  · split
    · refine KeptOpt.some ?_
      dsimp only
      refine Kept.trans ?_ ((State.takeMessage_kept ..).of_some (by assumption))
      exact Kept.refl _
    · exact KeptOpt.none _
  · exact KeptOpt.none _

theorem execLatencyReport_kept (q : SeamId) (s : State) : KeptBy s (execLatencyReport q s) := by
  unfold execLatencyReport
  split
  · refine KeptBy.next ?_
    refine Kept.trans ?_ (State.noteReport_kept ..)
    refine Kept.trans ?_ ((State.takeResult_kept ..).of_some (by assumption))
    exact Kept.refl _
  · refine KeptBy.next ?_
    exact Kept.refl _

theorem State.adoptLatency_kept (s : State) (gen : BitVec 32) (g : Nat) (pw : Pos) :
    Kept s (State.adoptLatency s gen g pw) := by
  unfold State.adoptLatency
  try dsimp only
  repeat' first
    | with_reducible exact Kept.refl _
    | with_reducible refine Kept.ite ?_ ?_
    | with_reducible apply Kept.after (State.settleLatency_kept ..)
    | with_reducible apply Kept.after (State.boltRecord_kept ..)
    | dsimp only
    | split
    | refine Kept.trans ?_ Kept.rest

theorem State.abortLatency_kept (s : State) (gen : BitVec 32) : Kept s (State.abortLatency s gen) := by
  unfold State.abortLatency
  refine Kept.trans ?_ (State.boltRecord_kept ..)
  refine Kept.trans ?_ Kept.rest
  exact Kept.refl _

theorem State.settleLatency_kept (s : State) :
    Kept s (State.settleLatency s) := by
  unfold State.settleLatency
  try dsimp only
  repeat' first
    | with_reducible exact Kept.refl _
    | with_reducible refine Kept.ite ?_ ?_
    | dsimp only
    | split
    | refine Kept.trans ?_ Kept.rest

theorem execLatencyCollectionEnd_kept (s : State) : KeptBy s (execLatencyCollectionEnd s) := by
  unfold execLatencyCollectionEnd
  split
  · refine KeptBy.when ?_
    dsimp only
    split
    · refine Kept.trans ?_ (State.settle_kept ..)
      refine Kept.trans ?_ (State.adoptLatency_kept ..)
      refine Kept.trans ?_ (State.broadcast_kept ..)
      refine Kept.trans ?_ Kept.rest
      exact Kept.refl _
    · refine Kept.trans ?_ (State.settle_kept ..)
      refine Kept.trans ?_ (State.abortLatency_kept ..)
      refine Kept.trans ?_ (State.broadcast_kept ..)
      refine Kept.trans ?_ Kept.rest
      exact Kept.refl _
  · refine KeptBy.next ?_
    exact Kept.refl _

theorem execLatencyCommit_kept (q : SeamId) (s : State) : KeptBy s (execLatencyCommit q s) := by
  unfold execLatencyCommit
  split
  · dsimp only
    refine KeptBy.from ?_ (KeptBy.when ?_)
    · refine Kept.trans ?_ ((State.takeResult_kept ..).of_some (by assumption))
      exact Kept.refl _
    · refine Kept.trans ?_ (State.settle_kept ..)
      refine Kept.trans ?_ (State.adoptLatency_kept ..)
      exact Kept.refl _
  · refine KeptBy.next ?_
    exact Kept.refl _

theorem execLatencyAbort_kept (q : SeamId) (s : State) : KeptBy s (execLatencyAbort q s) := by
  unfold execLatencyAbort
  split
  · dsimp only
    refine KeptBy.from ?_ (KeptBy.when ?_)
    · refine Kept.trans ?_ ((State.takeResult_kept ..).of_some (by assumption))
      exact Kept.refl _
    · refine Kept.trans ?_ (State.settle_kept ..)
      refine Kept.trans ?_ (State.abortLatency_kept ..)
      exact Kept.refl _
  · refine KeptBy.next ?_
    exact Kept.refl _

theorem State.wantLatency_kept (s : State) : Kept s (State.wantLatency s) := by
  unfold State.wantLatency
  refine Kept.trans ?_ Kept.rest
  exact Kept.refl _

theorem execLatencyRequest_kept (q : SeamId) (s : State) : KeptBy s (execLatencyRequest q s) := by
  unfold execLatencyRequest
  split
  · refine KeptBy.next ?_
    split
    · refine Kept.trans ?_ (State.wantLatency_kept ..)
      refine Kept.trans ?_ ((State.takeResult_kept ..).of_some (by assumption))
      exact Kept.refl _
    · refine Kept.trans ?_ ((State.takeResult_kept ..).of_some (by assumption))
      exact Kept.refl _
  · refine KeptBy.next ?_
    exact Kept.refl _

theorem State.requestLatency_kept (s : State) : Kept s (State.requestLatency s) := by
  unfold State.requestLatency
  split
  · refine Kept.trans ?_ (State.wantLatency_kept ..)
    exact Kept.refl _
  · refine Kept.trans ?_ (State.sendTo_kept ..)
    exact Kept.refl _

theorem execEventRecord_kept (q : SeamId) (s : State) : KeptBy s (execEventRecord q s) := by
  unfold execEventRecord
  split
  · split
    · refine KeptBy.next ?_
      refine Kept.trans ?_ ((State.takeMessage_kept ..).of_some (by assumption))
      exact Kept.refl _
    · dsimp only
      split
      · split
        · refine KeptBy.next ?_
          refine Kept.trans ?_ (State.settle_kept ..)
          refine Kept.trans ?_ (State.submit_kept ..)
          refine Kept.trans ?_ Kept.rest
          refine Kept.trans ?_ ((State.takeMessage_kept ..).of_some (by assumption))
          exact Kept.refl _
        · refine KeptBy.next ?_
          refine Kept.trans ?_ Kept.rest
          refine Kept.trans ?_ ((State.takeMessage_kept ..).of_some (by assumption))
          exact Kept.refl _
      · split
        · refine KeptBy.next ?_
          refine Kept.trans ?_ (State.settle_kept ..)
          refine Kept.trans ?_ (State.submit_kept ..)
          refine Kept.trans ?_ Kept.rest
          refine Kept.trans ?_ ((State.takeMessage_kept ..).of_some (by assumption))
          exact Kept.refl _
        · refine KeptBy.next ?_
          refine Kept.trans ?_ Kept.rest
          refine Kept.trans ?_ ((State.takeMessage_kept ..).of_some (by assumption))
          exact Kept.refl _
  · refine KeptBy.next ?_
    exact Kept.refl _

/-! ### Machine/Stores.lean -/

theorem State.updPanel_kept {f : Panel → Panel} (s : State) (p : PanelId)
    (h : ∀ x : Panel, x.memWf = true → (f x).memWf = true) : Kept s (State.updPanel s p f) :=
  Kept.mk rfl rfl (fun h => h) (fun h => h) (fun h => h) (fun h => h) (fun h => h) (fun h => h) (upd_memWf p h)

theorem State.flipCommons_kept (s : State) (a : Nat) (flip : Byte) : Kept s (State.flipCommons s a flip) := by
  unfold State.flipCommons
  refine Kept.ite ?_ ?_
  · dsimp only
    split
    · exact Kept.rest
    · split <;> exact Kept.rest
  · split
    · exact Kept.rest
    · exact Kept.mk rfl rfl id id id id id (fun h => Memory.write_wf _ _ h) id

theorem State.upsetCommons_kept (s : State) (a : Nat) (flip : Byte) : Kept s (State.upsetCommons s a flip) := by
  unfold State.upsetCommons
  exact Kept.after (State.flipCommons_kept ..) Kept.rest

theorem State.upset_kept (s : State) (p : PanelId) (u : Upset) : Kept s (State.upset s p u) := by
  unfold State.upset
  split
  · refine Kept.trans ?_ (State.updPanel_kept _ _ ?_)
    · exact Kept.refl _
    · refine fun _ h => Panel.memWf_of h ?_ ?_ ?_
      · exact fun h => Memory.write_wf _ _ h
      · exact fun h => h
      · exact fun h => h
  · refine Kept.trans ?_ (State.upsetCommons_kept ..)
    exact Kept.refl _
  · dsimp only
    refine Kept.trans ?_ Kept.rest
    exact Kept.refl _

theorem State.upsets_kept (s : State) (p : PanelId) (u : List Upset) : Kept s (State.upsets s p u) := by
  unfold State.upsets
  refine Kept.trans ?_ (Kept.foldl (fun s x => ?_) _ _)
  · exact Kept.refl _
  · refine Kept.trans ?_ (State.upset_kept ..)
    exact Kept.refl _

theorem State.writeCommons_kept (s : State) (a : Nat) (bs : List Byte) : Kept s (State.writeCommons s a bs) := by
  unfold State.writeCommons
  refine Kept.trans ?_ (Kept.mk rfl rfl (fun h => h) (fun h => h) (fun h => h) (fun h => h) (fun h => h) (fun h => Memory.writeN_wf _ _ h) (fun h => h))
  exact Kept.refl _

theorem State.cleanCommons_kept (s : State) (a n : Nat) : Kept s (State.cleanCommons s a n) := by
  unfold State.cleanCommons
  refine Kept.trans ?_ Kept.rest
  exact Kept.refl _

theorem State.readHbmWord_kept (s : State) (w : Nat) : Kept s (State.readHbmWord s w).2.2.2 := by
  unfold State.readHbmWord
  dsimp only
  split
  · dsimp only
    exact Kept.refl _
  · dsimp only
    exact Kept.refl _
  · dsimp only
    exact Kept.refl _
  · split
    · dsimp only
      refine Kept.trans ?_ (State.takeFree_kept ..)
      exact Kept.refl _
    · dsimp only
      refine Kept.trans ?_ (State.takeFree_kept ..)
      exact Kept.refl _
    · dsimp only
      refine Kept.trans ?_ (State.takeFree_kept ..)
      exact Kept.refl _

theorem State.readHbmWord_kept_eq {a0 a1 a2} {t : State} {s : State} {w : Nat}
    (heq : State.readHbmWord s w = (a0, a1, a2, t)) :
    Kept s t := by
  have := State.readHbmWord_kept s w
  rw [heq] at this
  exact this

theorem State.readHbm_kept (s : State) (a n : Nat) : Kept s (State.readHbm s a n).2.2 := by
  unfold State.readHbm
  split
  · dsimp only
    exact Kept.refl _
  · dsimp only
    refine Kept.trans ?_ (Kept.foldl_on (fun b => Prod.snd (Prod.snd (b))) (fun b x => ?_) _ _)
    · dsimp only
      exact Kept.refl _
    · dsimp only
      split
      · refine Kept.trans ?_ Kept.rest
        refine Kept.trans ?_ (State.readHbmWord_kept ..)
        exact Kept.refl _
      · refine Kept.trans ?_ (State.readHbmWord_kept ..)
        exact Kept.refl _

theorem State.readHbm_kept_eq {a0 a1} {t : State} {s : State} {a n : Nat} (heq : State.readHbm s a n = (a0, a1, t)) :
    Kept s t := by
  have := State.readHbm_kept s a n
  rw [heq] at this
  exact this

theorem State.writeHbm_kept (s : State) (a : Nat) (bs : List Byte) : Kept s (State.writeHbm s a bs) := by
  unfold State.writeHbm
  refine Kept.trans ?_ (Kept.mk rfl rfl (fun h => h) (fun h => h) (fun h => h) (fun h => h) (fun h => Memory.writeN_wf _ _ h) (fun h => h) (fun h => h))
  exact Kept.refl _

/-! ### Machine/Calibration.lean -/

theorem State.beginCalibration_kept (s : State) (gen : BitVec 32) (pc : Pos) (nc : Nat) :
    Kept s (State.beginCalibration s gen pc nc) := by
  unfold State.beginCalibration
  dsimp only
  refine Kept.trans ?_ Kept.rest
  refine Kept.trans ?_ (Kept.foldl (fun s x => ?_) _ _)
  · exact Kept.refl _
  · refine Kept.trans ?_ (State.updLink_kept ..)
    exact Kept.refl _

theorem execCalibrationSweepStart_kept (s : State) : KeptBy s (execCalibrationSweepStart s) := by
  unfold execCalibrationSweepStart
  refine KeptBy.when ?_
  dsimp only
  refine Kept.trans ?_ (State.beginCalibration_kept ..)
  refine Kept.trans ?_ (State.broadcast_kept ..)
  refine Kept.trans ?_ Kept.rest
  exact Kept.refl _

theorem State.takeSweep_kept (s : State) (q : SeamId) (kind : Nat) : KeptOpt s (State.takeSweep s q kind) := by
  unfold State.takeSweep
  split
  · split
    · refine KeptOpt.some ?_
      dsimp only
      refine Kept.trans ?_ ((State.takeMessage_kept ..).of_some (by assumption))
      exact Kept.refl _
    · exact KeptOpt.none _
  · exact KeptOpt.none _

theorem execCalibrationStart_kept (q : SeamId) (s : State) : KeptBy s (execCalibrationStart q s) := by
  unfold execCalibrationStart
  split
  · refine KeptBy.next ?_
    split
    · refine Kept.trans ?_ (State.beginCalibration_kept ..)
      refine Kept.trans ?_ ((State.takeSweep_kept ..).of_some (by assumption))
      exact Kept.refl _
    · refine Kept.trans ?_ ((State.takeSweep_kept ..).of_some (by assumption))
      exact Kept.refl _
  · refine KeptBy.next ?_
    exact Kept.refl _

theorem State.finishCalibration_kept (s : State) : Kept s (State.finishCalibration s) := by
  unfold State.finishCalibration
  split
  · dsimp only
    split
    · split
      · refine Kept.trans ?_ Kept.rest
        refine Kept.trans ?_ (State.queueOn_kept ..)
        refine Kept.trans ?_ Kept.rest
        exact Kept.refl _
      · refine Kept.trans ?_ (State.sendTo_kept ..)
        refine Kept.trans ?_ (State.queueOn_kept ..)
        refine Kept.trans ?_ Kept.rest
        exact Kept.refl _
    · split
      · refine Kept.trans ?_ Kept.rest
        refine Kept.trans ?_ Kept.rest
        exact Kept.refl _
      · refine Kept.trans ?_ (State.sendTo_kept ..)
        refine Kept.trans ?_ Kept.rest
        exact Kept.refl _
  · exact Kept.refl _

theorem execCalibrationSumsDone_kept (s : State) : KeptBy s (execCalibrationSumsDone s) := by
  unfold execCalibrationSumsDone
  split
  · refine KeptBy.when ?_
    dsimp only
    split
    · refine Kept.trans ?_ (State.settle_kept ..)
      refine Kept.trans ?_ (State.finishCalibration_kept ..)
      refine Kept.trans ?_ Kept.rest
      exact Kept.refl _
    · refine Kept.trans ?_ Kept.rest
      exact Kept.refl _
  · refine KeptBy.next ?_
    exact Kept.refl _

theorem execCalibrationFactor_kept (q : SeamId) (s : State) : KeptBy s (execCalibrationFactor q s) := by
  unfold execCalibrationFactor
  split
  · dsimp only
    refine KeptBy.from ?_ (KeptBy.when ?_)
    · refine Kept.trans ?_ ((State.takeSweep_kept ..).of_some (by assumption))
      exact Kept.refl _
    · split
      · refine Kept.trans ?_ (State.settle_kept ..)
        refine Kept.trans ?_ (State.finishCalibration_kept ..)
        refine Kept.trans ?_ Kept.rest
        exact Kept.refl _
      · refine Kept.trans ?_ Kept.rest
        exact Kept.refl _
  · refine KeptBy.next ?_
    exact Kept.refl _

theorem execCalibrationFactorTimeout_kept (s : State) : KeptBy s (execCalibrationFactorTimeout s) := by
  unfold execCalibrationFactorTimeout
  refine KeptBy.when ?_
  refine Kept.trans ?_ (State.settle_kept ..)
  refine Kept.trans ?_ (State.finishCalibration_kept ..)
  exact Kept.refl _

theorem execCalibrationReport_kept (q : SeamId) (s : State) : KeptBy s (execCalibrationReport q s) := by
  unfold execCalibrationReport
  split
  · refine KeptBy.from ?_ (KeptBy.when ?_)
    · refine Kept.trans ?_ ((State.takeSweep_kept ..).of_some (by assumption))
      exact Kept.refl _
    · dsimp only
      refine Kept.trans ?_ Kept.rest
      exact Kept.refl _
  · refine KeptBy.next ?_
    exact Kept.refl _

theorem State.changeCoefs_kept (s : State) (x : CoefChange) : Kept s (State.changeCoefs s x) := by
  unfold State.changeCoefs
  dsimp only
  refine Kept.trans ?_ Kept.rest
  refine Kept.trans ?_ (State.cleanCommons_kept ..)
  exact Kept.refl _

theorem State.adoptCalibration_kept (s : State) (gen : BitVec 32) (ps : Pos) :
    Kept s (State.adoptCalibration s gen ps) := by
  unfold State.adoptCalibration
  dsimp only
  refine Kept.trans ?_ (State.boltRecord_kept ..)
  refine Kept.trans ?_ Kept.rest
  refine Kept.trans ?_ (State.changeCoefs_kept ..)
  exact Kept.refl _

theorem State.abortCalibration_kept (s : State) (gen : BitVec 32) : Kept s (State.abortCalibration s gen) := by
  unfold State.abortCalibration
  refine Kept.trans ?_ (State.boltRecord_kept ..)
  refine Kept.trans ?_ Kept.rest
  exact Kept.refl _

theorem execCalibrationCollectionEnd_kept (s : State) : KeptBy s (execCalibrationCollectionEnd s) := by
  unfold execCalibrationCollectionEnd
  split
  · refine KeptBy.when ?_
    dsimp only
    split
    · refine Kept.trans ?_ (State.settle_kept ..)
      refine Kept.trans ?_ (State.adoptCalibration_kept ..)
      refine Kept.trans ?_ (State.broadcast_kept ..)
      refine Kept.trans ?_ Kept.rest
      exact Kept.refl _
    · refine Kept.trans ?_ (State.settle_kept ..)
      refine Kept.trans ?_ (State.abortCalibration_kept ..)
      refine Kept.trans ?_ (State.broadcast_kept ..)
      refine Kept.trans ?_ Kept.rest
      exact Kept.refl _
  · refine KeptBy.next ?_
    exact Kept.refl _

theorem execCalibrationCommit_kept (q : SeamId) (s : State) : KeptBy s (execCalibrationCommit q s) := by
  unfold execCalibrationCommit
  split
  · dsimp only
    refine KeptBy.from ?_ (KeptBy.when ?_)
    · refine Kept.trans ?_ ((State.takeSweep_kept ..).of_some (by assumption))
      exact Kept.refl _
    · refine Kept.trans ?_ (State.settle_kept ..)
      refine Kept.trans ?_ (State.adoptCalibration_kept ..)
      exact Kept.refl _
  · refine KeptBy.next ?_
    exact Kept.refl _

theorem execCalibrationAbort_kept (q : SeamId) (s : State) : KeptBy s (execCalibrationAbort q s) := by
  unfold execCalibrationAbort
  split
  · dsimp only
    refine KeptBy.from ?_ (KeptBy.when ?_)
    · refine Kept.trans ?_ ((State.takeSweep_kept ..).of_some (by assumption))
      exact Kept.refl _
    · refine Kept.trans ?_ (State.settle_kept ..)
      refine Kept.trans ?_ (State.abortCalibration_kept ..)
      exact Kept.refl _
  · refine KeptBy.next ?_
    exact Kept.refl _

theorem execCalibrationRequest_kept (q : SeamId) (s : State) : KeptBy s (execCalibrationRequest q s) := by
  unfold execCalibrationRequest
  split
  · refine KeptBy.from ?_ (KeptBy.when ?_)
    · refine Kept.trans ?_ ((State.takeSweep_kept ..).of_some (by assumption))
      exact Kept.refl _
    · refine Kept.trans ?_ Kept.rest
      exact Kept.refl _
  · refine KeptBy.next ?_
    exact Kept.refl _


end Sys2Proof.Machine
end

