-- ==== Sys2Proof/Laws/KeptPanel.lean ====
section
/-! SUPPORT. The panels, history, the web, lookback and the control sequencer:
what each operation and command keeps, as Laws/Kept.lean lists it. -/

namespace Sys2Proof.Machine

set_option Elab.async false
set_option linter.unreachableTactic false
set_option linter.unusedTactic false

/-! ### Machine/PanelOps.lean -/

theorem State.updRun_kept (s : State) (g : Nat) (f : SlotRun → SlotRun) : Kept s (State.updRun s g f) := by
  unfold State.updRun
  refine Kept.trans ?_ (State.updGroup_kept ..)
  exact Kept.refl _

theorem State.markGroup_kept (s : State) (g : Nat) (id : BitVec 32) (hold : Nat) (keys : List Nat) :
    Kept s (State.markGroup s g id hold keys) := by
  unfold State.markGroup
  try dsimp only
  repeat' first
    | with_reducible exact Kept.refl _
    | with_reducible refine Kept.ite ?_ ?_
    | with_reducible apply Kept.after (State.updRun_kept ..)
    | dsimp only
    | split
    | refine Kept.trans ?_ Kept.rest

theorem State.markRun_kept (s : State) (p : PanelId) (id : BitVec 32) (hold : Nat) (keys : List Nat) :
    Kept s (State.markRun s p id hold keys) := by
  unfold State.markRun
  try dsimp only
  repeat' first
    | with_reducible exact Kept.refl _
    | with_reducible refine Kept.ite ?_ ?_
    | with_reducible apply Kept.after (State.markGroup_kept ..)
    | dsimp only
    | split
    | refine Kept.trans ?_ Kept.rest

theorem State.markTag_kept (s : State) (tag : Tag) (id : BitVec 32) (hold : Nat) (keys : List Nat) :
    Kept s (State.markTag s tag id hold keys) := by
  unfold State.markTag
  try dsimp only
  repeat' first
    | with_reducible exact Kept.refl _
    | with_reducible refine Kept.ite ?_ ?_
    | with_reducible apply Kept.after (State.markGroup_kept ..)
    | dsimp only
    | split
    | refine Kept.trans ?_ Kept.rest

theorem State.queueRepair_kept (s : State) (word : Nat) (id : BitVec 32) : Kept s (State.queueRepair s word id) := by
  unfold State.queueRepair
  split
  · exact Kept.refl _
  · refine Kept.trans ?_ (State.addVotes_kept ..)
    refine Kept.trans ?_ Kept.rest
    exact Kept.refl _

theorem State.detectCommons_kept (s : State) (word ordinal : Nat) : Kept s (State.detectCommons s word ordinal).2 := by
  unfold State.detectCommons
  dsimp only
  refine Kept.trans ?_ (State.detect_kept ..)
  refine Kept.trans ?_ Kept.rest
  exact Kept.refl _

theorem State.detectCommons_kept_eq {a0} {t : State} {s : State} {word ordinal : Nat}
    (heq : State.detectCommons s word ordinal = (a0, t)) :
    Kept s t := by
  have := State.detectCommons_kept s word ordinal
  rw [heq] at this
  exact this

theorem State.detectHbm_kept (s : State) (word : Nat) : Kept s (State.detectHbm s word).2 := by
  unfold State.detectHbm
  dsimp only
  split
  · refine Kept.trans ?_ (State.detect_kept ..)
    refine Kept.trans ?_ Kept.rest
    exact Kept.refl _
  · refine Kept.trans ?_ (State.queueRepair_kept ..)
    refine Kept.trans ?_ (State.detect_kept ..)
    refine Kept.trans ?_ Kept.rest
    exact Kept.refl _

theorem State.detectHbm_kept_eq {a0} {t : State} {s : State} {word : Nat} (heq : State.detectHbm s word = (a0, t)) :
    Kept s t := by
  have := State.detectHbm_kept s word
  rw [heq] at this
  exact this

theorem State.queueRefill_kept (s : State) (line : Nat) : Kept s (State.queueRefill s line) := by
  unfold State.queueRefill
  refine Kept.trans ?_ Kept.rest
  exact Kept.refl _

theorem State.founds_kept (s : State) (p : PanelId) (l : List Found) : Kept s (State.founds s p l) := by
  unfold State.founds
  refine Kept.trans ?_ (Kept.foldl (fun s x => ?_) _ _)
  · exact Kept.refl _
  · unfold State.found
    split
    · dsimp only
      refine Kept.trans ?_ (State.markRun_kept ..)
      refine Kept.trans ?_ (State.detect_kept ..)
      refine Kept.trans ?_ Kept.rest
      exact Kept.refl _
    · dsimp only
      split
      · refine Kept.trans ?_ (State.markRun_kept ..)
        refine Kept.trans ?_ (State.queueRefill_kept ..)
        refine Kept.trans ?_ (State.detectCommons_kept ..)
        exact Kept.refl _
      · split
        · refine Kept.trans ?_ (State.updRun_kept ..)
          refine Kept.trans ?_ (State.detectCommons_kept ..)
          exact Kept.refl _
        · refine Kept.trans ?_ (State.markRun_kept ..)
          refine Kept.trans ?_ (State.detectCommons_kept ..)
          exact Kept.refl _
    · split
      split
      · refine Kept.trans ?_ (State.detectHbm_kept_eq (by assumption))
        exact Kept.refl _
      · refine Kept.trans ?_ (State.markRun_kept ..)
        refine Kept.trans ?_ (State.detectHbm_kept_eq (by assumption))
        exact Kept.refl _

theorem State.closeTree_kept (s : State) (t : Tree) :
    Kept s (State.closeTree s t) := by
  unfold State.closeTree
  try dsimp only
  repeat' first
    | with_reducible exact Kept.refl _
    | exact fun _ h => h
    | with_reducible refine Kept.ite ?_ ?_
    | with_reducible apply Kept.after (State.updPanel_kept _ _ ?_)
    | with_reducible apply Kept.after (Kept.foldl (fun s x => ?_) _ _)
    | dsimp only
    | split
    | refine Kept.trans ?_ Kept.rest

theorem State.refreshMoves_kept (s : State) :
    Kept s (State.refreshMoves s) := by
  unfold State.refreshMoves
  try dsimp only
  repeat' first
    | with_reducible exact Kept.refl _
    | with_reducible refine Kept.ite ?_ ?_
    | with_reducible apply Kept.after (State.closeTree_kept ..)
    | with_reducible apply Kept.after (Kept.foldl (fun s x => ?_) _ _)
    | dsimp only
    | split
    | refine Kept.trans ?_ Kept.rest

theorem State.issuePanel_kept (s : State) (p : PanelId) (ins : Stitch) : KeptOpt s (State.issuePanel s p ins) := by
  unfold State.issuePanel
  dsimp only
  split
  · exact KeptOpt.none _
  · refine KeptOpt.some ?_
    dsimp only
    refine Kept.trans ?_ (State.refreshMoves_kept ..)
    refine Kept.trans ?_ (State.updPanel_kept _ _ fun _ h => h)
    exact Kept.refl _

theorem panelStep_kept {effect : Stitch → Option (Nat → State → State)} (p : PanelId) (u : List Upset) (s : State)
    (h : ∀ i, KeptEff (effect i)) : KeptBy s (panelStep p u s effect) := by
  unfold panelStep
  split
  · exact KeptBy.next (Kept.refl _)
  · split
    · exact KeptBy.next (Kept.refl _)
    · rename_i g hg
      split
      · split
        · exact KeptBy.next (Kept.refl _)
        · rename_i hi
          refine KeptBy.next ?_
          refine Kept.trans ?_ (State.settle_kept ..)
          refine Kept.trans ?_ (State.updPanel_kept _ _ fun _ h => h)
          refine Kept.trans ?_ ((h _).of_some hg _ _)
          refine Kept.trans ?_ ((State.issuePanel_kept ..).of_some hi)
          exact State.upsets_kept ..
      · exact KeptBy.fault _

theorem State.readUnits_kept (s : State) (p : PanelId) (d : TileDesc) (base : Int) (loops : List LoopLevel) :
    Kept s (State.readUnits s p d base loops).2.2 := by
  unfold State.readUnits
  dsimp only
  split
  · dsimp only
    exact Kept.refl _
  · split
    · dsimp only
      exact Kept.refl _
    · dsimp only
      refine Kept.trans ?_ (State.readHbm_kept ..)
      exact Kept.refl _

theorem State.readUnits_kept_eq {a0 a1} {t : State} {s : State} {p : PanelId} {d : TileDesc} {base : Int}
    {loops : List LoopLevel} (heq : State.readUnits s p d base loops = (a0, a1, t)) :
    Kept s t := by
  have := State.readUnits_kept s p d base loops
  rw [heq] at this
  exact this

theorem State.noteRead_kept (s : State) (p : PanelId) (gone bad dam : Bool) :
    Kept s (State.noteRead s p gone bad dam) := by
  unfold State.noteRead
  refine Kept.trans ?_ (State.updRun_kept ..)
  exact Kept.refl _

theorem State.readTile_kept (s : State) (p : PanelId) (f : Nat) :
    Kept s (State.readTile s p f).2 := by
  unfold State.readTile
  try dsimp only
  repeat' first
    | with_reducible exact Kept.refl _
    | with_reducible refine Kept.ite ?_ ?_
    | dsimp only
    | split
    | with_reducible apply Kept.after (State.noteRead_kept ..)
    | with_reducible apply Kept.after (State.readUnits_kept ..)
    | with_reducible apply Kept.after (State.founds_kept ..)
    | with_reducible apply Kept.after (State.updRun_kept ..)
    | with_reducible apply Kept.after (State.markRun_kept ..)
    | dsimp only
    | split
    | exact State.readUnits_kept_eq (by assumption)
    | refine Kept.trans ?_ Kept.rest

theorem State.readTile_kept_eq {a0} {t : State} {s : State} {p : PanelId} {f : Nat}
    (heq : State.readTile s p f = (a0, t)) :
    Kept s t := by
  have := State.readTile_kept s p f
  rw [heq] at this
  exact this

theorem State.readStored_kept (s : State) (p : PanelId) (f : Nat) :
    Kept s (State.readStored s p f).2 := by
  unfold State.readStored
  try dsimp only
  repeat' first
    | with_reducible exact Kept.refl _
    | with_reducible refine Kept.ite ?_ ?_
    | dsimp only
    | split
    | with_reducible apply Kept.after (State.noteRead_kept ..)
    | with_reducible apply Kept.after (State.readUnits_kept ..)
    | with_reducible apply Kept.after (State.founds_kept ..)
    | dsimp only
    | split
    | exact State.readUnits_kept_eq (by assumption)
    | refine Kept.trans ?_ Kept.rest

theorem State.readStored_kept_eq {a0} {t : State} {s : State} {p : PanelId} {f : Nat}
    (heq : State.readStored s p f = (a0, t)) :
    Kept s t := by
  have := State.readStored_kept s p f
  rw [heq] at this
  exact this

theorem State.writeStore_kept (s : State) (p : PanelId) (space a : Nat) (bs : List Byte) :
    Kept s (State.writeStore s p space a bs) := by
  unfold State.writeStore
  split
  · refine Kept.trans ?_ (State.updPanel_kept _ _ ?_)
    · exact Kept.refl _
    · refine fun _ h => Panel.memWf_of h ?_ ?_ ?_
      · exact fun h => Memory.writeN_wf _ _ h
      · exact fun h => h
      · exact fun h => h
  · split
    · refine Kept.trans ?_ (State.writeCommons_kept ..)
      exact Kept.refl _
    · exact Kept.refl _

theorem State.writeStored_kept (s : State) (p : PanelId) (f : Nat) (units : List (List Byte)) :
    Kept s (State.writeStored s p f units) := by
  unfold State.writeStored
  dsimp only
  refine Kept.trans ?_ (Kept.foldl (fun s x => ?_) _ _)
  · exact Kept.refl _
  · split
    · refine Kept.trans ?_ (State.writeStore_kept ..)
      exact Kept.refl _
    · refine Kept.trans ?_ (State.writeStore_kept ..)
      exact Kept.refl _

theorem State.writeValues_kept (s : State) (p : PanelId) (f : Nat) (away : Bool) (vs : List Num) :
    Kept s (State.writeValues s p f away vs) := by
  unfold State.writeValues
  dsimp only
  split
  · refine Kept.trans ?_ (State.writeStored_kept ..)
    exact Kept.refl _
  · refine Kept.trans ?_ (State.writeStored_kept ..)
    exact Kept.refl _

/-! ### Machine/PanelMove.lean -/

theorem State.loadFile_kept (s : State) (p : PanelId) (d : TileDesc) (target array off : Nat) (l : List Elem) :
    Kept s (State.loadFile s p d target array off l) := by
  unfold State.loadFile
  refine State.updPanel_kept _ _ fun x h => ?_
  dsimp only
  split
  · exact Panel.memWf_of h (fun h => h) (fun h => Memory.foldl_wf (fun m i k => Memory.writeN_wf _ _ k) _ h) fun h => h
  · exact Panel.memWf_of h (fun h => h) (fun h => h) fun h => Memory.foldl_wf (fun m i k => Memory.writeN_wf _ _ k) _ h

theorem State.copyElems_kept (s : State) (p : PanelId) (src : TileDesc) (f : Nat) (l : List Elem) :
    Kept s (State.copyElems s p src f l) := by
  unfold State.copyElems
  refine Kept.trans ?_ (State.writeStored_kept ..)
  exact Kept.refl _

theorem State.loadTile_kept (s : State) (p : PanelId) (a d target array off : Nat) :
    Kept s (State.loadTile s p a d target array off) := by
  unfold State.loadTile
  dsimp only
  split
  · refine Kept.trans ?_ (State.loadFile_kept ..)
    refine Kept.trans ?_ (State.readTile_kept ..)
    exact Kept.refl _
  · split
    · refine Kept.trans ?_ (State.writeStored_kept ..)
      refine Kept.trans ?_ (State.readStored_kept ..)
      exact Kept.refl _
    · refine Kept.trans ?_ (State.copyElems_kept ..)
      refine Kept.trans ?_ (State.readTile_kept ..)
      exact Kept.refl _

theorem execLoadt_kept (p : PanelId) (u : List Upset) (s : State) : KeptBy s (execLoadt p u s) := by
  unfold execLoadt
  refine panelStep_kept _ _ _ fun i => ?_
  split
  · refine KeptEff.some fun t s => ?_
    refine Kept.trans ?_ (State.loadTile_kept ..)
    exact Kept.refl _
  · exact KeptEff.none

theorem State.encodeTile_kept (s : State) (p : PanelId) (f : Nat) (l : List Elem) :
    Kept s (State.encodeTile s p f l) := by
  unfold State.encodeTile
  dsimp only
  refine Kept.trans ?_ (State.writeStored_kept ..)
  refine Kept.trans ?_ (State.updPanel_kept _ _ fun _ h => h)
  split
  · split
    · refine Kept.trans ?_ Kept.rest
      exact Kept.refl _
    · exact Kept.refl _
  · split
    · refine Kept.trans ?_ Kept.rest
      exact Kept.refl _
    · exact Kept.refl _

theorem execStoret_kept (p : PanelId) (u : List Upset) (s : State) : KeptBy s (execStoret p u s) := by
  unfold execStoret
  refine panelStep_kept _ _ _ fun i => ?_
  split
  · refine KeptEff.some fun t s => ?_
    dsimp only
    split
    · refine Kept.trans ?_ (State.encodeTile_kept ..)
      refine Kept.trans ?_ (State.readTile_kept ..)
      exact Kept.refl _
    · refine Kept.trans ?_ (State.loadTile_kept ..)
      exact Kept.refl _
  · exact KeptEff.none

theorem State.updPin_kept (s : State) (lo hi : Nat) (f : PinRange → PinRange) : Kept s (State.updPin s lo hi f) := by
  unfold State.updPin
  refine Kept.trans ?_ Kept.rest
  exact Kept.refl _

theorem State.streamUnits_kept (s : State) (p : PanelId) (f : Nat) : Kept s (State.streamUnits s p f).2 := by
  unfold State.streamUnits
  dsimp only
  split
  · split
    · dsimp only
      split
      · refine Kept.trans ?_ (State.markRun_kept ..)
        refine Kept.trans ?_ (State.founds_kept ..)
        exact Kept.refl _
      · refine Kept.trans ?_ (State.founds_kept ..)
        exact Kept.refl _
    · dsimp only
      refine Kept.trans ?_ (State.founds_kept ..)
      refine Kept.trans ?_ (State.readUnits_kept ..)
      exact Kept.refl _
  · dsimp only
    refine Kept.trans ?_ (State.founds_kept ..)
    refine Kept.trans ?_ (State.readUnits_kept ..)
    exact Kept.refl _

theorem State.streamUnits_kept_eq {a0} {t : State} {s : State} {p : PanelId} {f : Nat}
    (heq : State.streamUnits s p f = (a0, t)) :
    Kept s t := by
  have := State.streamUnits_kept s p f
  rw [heq] at this
  exact this

theorem State.streamTile_kept (s : State) (p : PanelId) (t a d tg x off : Nat) :
    Kept s (State.streamTile s p t a d tg x off) := by
  unfold State.streamTile
  dsimp only
  split
  · refine Kept.trans ?_ (State.loadFile_kept ..)
    refine Kept.trans ?_ (State.updPin_kept ..)
    refine Kept.trans ?_ (State.streamUnits_kept ..)
    exact Kept.refl _
  · split
    · refine Kept.trans ?_ (State.writeStored_kept ..)
      refine Kept.trans ?_ (State.updPin_kept ..)
      refine Kept.trans ?_ (State.streamUnits_kept ..)
      exact Kept.refl _
    · refine Kept.trans ?_ (State.copyElems_kept ..)
      refine Kept.trans ?_ (State.updPin_kept ..)
      refine Kept.trans ?_ (State.streamUnits_kept ..)
      exact Kept.refl _

theorem execStreamw_kept (p : PanelId) (u : List Upset) (s : State) :
    KeptBy s (execStreamw p u s) := by
  unfold execStreamw
  refine panelStep_kept _ _ _ fun i => ?_
  split
  · split
    · exact KeptEff.some fun t s => State.streamTile_kept ..
    · exact KeptEff.none
  · exact KeptEff.none

theorem execPin_kept (p : PanelId) (s : State) : KeptBy s (execPin p s) := by
  unfold execPin
  refine panelStep_kept _ _ _ fun i => ?_
  split
  · refine KeptEff.some fun t s => ?_
    split
    dsimp only
    split
    · exact Kept.refl _
    · refine Kept.trans ?_ Kept.rest
      exact Kept.refl _
  · exact KeptEff.none

theorem State.release_kept (s : State) (lo hi : Nat) : Kept s (State.release s lo hi) := by
  unfold State.release
  split
  · split
    · refine Kept.trans ?_ (State.updPin_kept ..)
      exact Kept.refl _
    · refine Kept.trans ?_ Kept.rest
      exact Kept.refl _
  · exact Kept.refl _

theorem execFree_kept (p : PanelId) (s : State) : KeptBy s (execFree p s) := by
  unfold execFree
  refine panelStep_kept _ _ _ fun i => ?_
  split
  · refine KeptEff.some fun t s => ?_
    split
    refine Kept.trans ?_ (State.release_kept ..)
    exact Kept.refl _
  · exact KeptEff.none

theorem State.fillLines_kept (s : State) (q : PinRange) (k : Nat) (bs : List Byte) :
    Kept s (State.fillLines s q k bs) := by
  unfold State.fillLines
  refine Kept.trans ?_ (Kept.foldl (fun s x => ?_) _ _)
  · exact Kept.refl _
  · refine Kept.trans ?_ (State.writeCommons_kept ..)
    exact Kept.refl _

theorem State.poisonOf_kept (s : State) (fs : List Found) : Kept s (State.poisonOf s fs).2 := by
  unfold State.poisonOf
  refine Kept.trans ?_ (Kept.foldl_on (fun b => Prod.snd (b)) (fun b x => ?_) _ _)
  · dsimp only
    exact Kept.refl _
  · split
    split
    · split
      · dsimp only
        exact Kept.refl _
      · split
        dsimp only
        refine Kept.trans ?_ (State.detectHbm_kept_eq (by assumption))
        exact Kept.refl _
    · exact Kept.refl _

theorem State.poisonOf_kept_eq {a0} {t : State} {s : State} {fs : List Found} (heq : State.poisonOf s fs = (a0, t)) :
    Kept s t := by
  have := State.poisonOf_kept s fs
  rw [heq] at this
  exact this

theorem State.markReaders_kept (s : State) (q : PinRange) (poison : List (Nat × BitVec 32)) :
    Kept s (State.markReaders s q poison) := by
  unfold State.markReaders
  try dsimp only
  repeat' first
    | with_reducible exact Kept.refl _
    | with_reducible refine Kept.ite ?_ ?_
    | with_reducible apply Kept.after (State.markTag_kept ..)
    | with_reducible apply Kept.after (Kept.foldl (fun s x => ?_) _ _)
    | dsimp only
    | split
    | refine Kept.trans ?_ Kept.rest

theorem execStreamFillComplete_kept (u : List Upset) (s : State) :
    KeptBy s (execStreamFillComplete u s) := by
  unfold execStreamFillComplete
  try dsimp only
  repeat' first
    | with_reducible exact Kept.refl _
    | with_reducible refine Kept.ite ?_ ?_
    | with_reducible refine KeptBy.ite ?_ ?_
    | with_reducible refine KeptBy.next ?_
    | with_reducible refine KeptBy.when ?_
    | with_reducible apply Kept.after (State.upsets_kept ..)
    | with_reducible apply Kept.after (State.readHbm_kept ..)
    | with_reducible apply Kept.after (State.poisonOf_kept ..)
    | with_reducible apply Kept.after (State.markReaders_kept ..)
    | with_reducible apply Kept.after (State.settle_kept ..)
    | with_reducible apply Kept.after (State.fillLines_kept ..)
    | with_reducible apply Kept.after (State.updPin_kept ..)
    | dsimp only
    | split
    | exact State.readHbm_kept_eq (by assumption)
    | exact State.poisonOf_kept_eq (by assumption)
    | refine Kept.trans ?_ Kept.rest

theorem State.clearHolds_kept (s : State) (kind : Nat) (gone : Nat → Bool) :
    Kept s (State.clearHolds s kind gone) := by
  unfold State.clearHolds
  try dsimp only
  repeat' first
    | with_reducible exact Kept.refl _
    | with_reducible refine Kept.ite ?_ ?_
    | with_reducible apply Kept.after (State.wakeGroups_kept ..)
    | dsimp only
    | split
    | refine Kept.trans ?_ Kept.rest

theorem State.closeHeld_kept (s : State) (kind key : Nat) : Kept s (State.closeHeld s kind key) := by
  unfold State.closeHeld
  refine Kept.trans ?_ (Kept.foldl (fun s x => ?_) _ _)
  · exact Kept.refl _
  · refine Kept.trans ?_ (State.closeWindow_kept ..)
    exact Kept.refl _

theorem State.refillLine_kept (s : State) (q : PinRange) :
    Kept s (State.refillLine s q) := by
  unfold State.refillLine
  try dsimp only
  repeat' first
    | with_reducible exact Kept.refl _
    | with_reducible refine Kept.ite ?_ ?_
    | with_reducible apply Kept.after (State.readHbm_kept ..)
    | with_reducible apply Kept.after (State.poisonOf_kept ..)
    | with_reducible apply Kept.after (State.fillLines_kept ..)
    | with_reducible apply Kept.after (State.updPin_kept ..)
    | with_reducible apply Kept.after (State.clearHolds_kept ..)
    | with_reducible apply Kept.after (State.mapRuns_kept ..)
    | dsimp only
    | split
    | exact State.readHbm_kept_eq (by assumption)
    | exact State.poisonOf_kept_eq (by assumption)
    | refine Kept.trans ?_ Kept.rest

theorem execStreamLineRefill_kept (s : State) : KeptBy s (execStreamLineRefill s) := by
  unfold execStreamLineRefill
  split
  · exact KeptBy.next (Kept.refl _)
  · exact KeptBy.next (Kept.trans (State.refillLine_kept ..) (State.settle_kept ..))

theorem State.refillWord_kept (s : State) (w : Nat) : Kept s (State.refillWord s w) := by
  unfold State.refillWord
  dsimp only
  refine Kept.trans ?_ Kept.rest
  refine Kept.trans ?_ (Kept.foldl (fun s x => ?_) _ _)
  · exact Kept.refl _
  · split
    · refine Kept.trans ?_ (State.writeCommons_kept ..)
      exact Kept.refl _
    · exact Kept.refl _

theorem State.dropRepairVotes_kept (s : State) : Kept s (State.dropRepairVotes s) := by
  unfold State.dropRepairVotes
  split
  · refine Kept.trans ?_ (State.dropVotes_kept ..)
    exact Kept.refl _
  · exact Kept.refl _

theorem execHbmRepairComplete_kept (ok : Bool) (s : State) :
    KeptBy s (execHbmRepairComplete ok s) := by
  unfold execHbmRepairComplete
  try dsimp only
  repeat' first
    | with_reducible exact Kept.refl _
    | with_reducible refine Kept.ite ?_ ?_
    | with_reducible refine KeptBy.ite ?_ ?_
    | with_reducible refine KeptBy.next ?_
    | with_reducible refine KeptBy.when ?_
    | with_reducible exact KeptBy.fault _
    | with_reducible apply Kept.after (State.refillWord_kept ..)
    | with_reducible apply Kept.after (State.clearHolds_kept ..)
    | with_reducible apply Kept.after (State.dropRepairVotes_kept ..)
    | with_reducible apply Kept.after (State.settle_kept ..)
    | with_reducible apply Kept.after (State.detect_kept ..)
    | with_reducible apply Kept.after (State.assertFault_kept ..)
    | with_reducible apply Kept.after (State.closeHeld_kept ..)
    | dsimp only
    | split
    | exact State.detect_kept_eq (by assumption)
    | refine Kept.trans ?_ Kept.rest

theorem State.combineTile_kept (s : State) (p : PanelId) (t a d i g tr : Nat) :
    Kept s (State.combineTile s p t a d i g tr) := by
  unfold State.combineTile
  try dsimp only
  repeat' first
    | with_reducible exact Kept.refl _
    | with_reducible refine Kept.ite ?_ ?_
    | with_reducible apply Kept.after (State.readTile_kept ..)
    | with_reducible apply Kept.after (State.writeCommons_kept ..)
    | with_reducible apply Kept.after (State.refreshMoves_kept ..)
    | dsimp only
    | split
    | exact State.readTile_kept_eq (by assumption)
    | refine Kept.trans ?_ Kept.rest

theorem execCombine_kept (p : PanelId) (u : List Upset) (s : State) : KeptBy s (execCombine p u s) := by
  unfold execCombine
  refine panelStep_kept _ _ _ fun i => ?_
  split
  · exact KeptEff.some fun t s => State.combineTile_kept ..
  · exact KeptEff.none

theorem State.reduceTree_kept (s : State) (t : Tree) :
    Kept s (State.reduceTree s t) := by
  unfold State.reduceTree
  try dsimp only
  repeat' first
    | with_reducible exact Kept.refl _
    | with_reducible refine Kept.ite ?_ ?_
    | with_reducible apply Kept.after (State.detectCommons_kept ..)
    | with_reducible apply Kept.after (State.markTag_kept ..)
    | with_reducible apply Kept.after (State.writeCommons_kept ..)
    | with_reducible apply Kept.after (Kept.foldl (fun s x => ?_) _ _)
    | dsimp only
    | split
    | exact State.detectCommons_kept_eq (by assumption)
    | refine Kept.trans ?_ Kept.rest

theorem execCombineTreeComplete_kept (tree : Fin 16) (s : State) : KeptBy s (execCombineTreeComplete tree s) := by
  unfold execCombineTreeComplete
  split
  · exact KeptBy.next (Kept.refl _)
  · exact KeptBy.next (Kept.trans (State.reduceTree_kept ..) (State.settle_kept ..))

/-! ### Machine/History.lean -/

theorem State.setSegs_kept (s : State) (f : List Segment → List Segment) : Kept s (State.setSegs s f) := by
  unfold State.setSegs
  refine Kept.trans ?_ Kept.rest
  exact Kept.refl _

theorem State.putSegment_kept (s : State) (x : Segment) : Kept s (State.putSegment s x) := by
  unfold State.putSegment
  refine Kept.trans ?_ (State.setSegs_kept ..)
  exact Kept.refl _

theorem State.contribute_kept (s : State) (pe : Pos) (c : List Byte) : Kept s (State.contribute s pe c) := by
  unfold State.contribute
  split
  · exact Kept.refl _
  · dsimp only
    split
    · refine Kept.trans ?_ Kept.rest
      exact Kept.refl _
    · refine Kept.trans ?_ (State.putSegment_kept ..)
      exact Kept.refl _

theorem State.pushSegment_kept (s : State) (start : Pos) (el : List Nat) : Kept s (State.pushSegment s start el) := by
  unfold State.pushSegment
  refine Kept.trans ?_ (Kept.foldl (fun s x => ?_) _ _)
  · exact Kept.refl _
  · refine Kept.trans ?_ (State.queueOn_kept ..)
    exact Kept.refl _

theorem State.sealSegment_kept (s : State) (h : Hist) (start : Pos) : Kept s (State.sealSegment s h start) := by
  unfold State.sealSegment
  dsimp only
  refine Kept.trans ?_ (State.pushSegment_kept ..)
  refine Kept.trans ?_ (State.putSegment_kept ..)
  split
  · refine Kept.trans ?_ Kept.rest
    exact Kept.refl _
  · exact Kept.refl _

theorem execSegmentSeal_kept (start : Pos) (s : State) : KeptBy s (execSegmentSeal start s) := by
  unfold execSegmentSeal
  split
  · exact KeptBy.next (Kept.refl _)
  · exact KeptBy.when (State.sealSegment_kept ..)

theorem State.sendNotices_kept (s : State) (x : Segment) : Kept s (State.sendNotices s x) := by
  unfold State.sendNotices
  refine Kept.trans ?_ (Kept.foldl (fun s x => ?_) _ _)
  · exact Kept.refl _
  · refine Kept.trans ?_ (State.queueOn_kept ..)
    exact Kept.refl _

theorem execSegmentExpiry_kept (start : Pos) (s : State) : KeptBy s (execSegmentExpiry start s) := by
  unfold execSegmentExpiry
  dsimp only
  split
  · refine KeptBy.from ?_ (KeptBy.when ?_)
    · refine Kept.trans ?_ (State.setSegs_kept ..)
      exact Kept.refl _
    · refine Kept.trans ?_ (State.sendNotices_kept ..)
      refine Kept.trans ?_ (State.putSegment_kept ..)
      exact Kept.refl _
  · refine KeptBy.next ?_
    refine Kept.trans ?_ (State.setSegs_kept ..)
    exact Kept.refl _

theorem execHomeSegmentDrop_kept (start : Pos) (s : State) : KeptBy s (execHomeSegmentDrop start s) := by
  unfold execHomeSegmentDrop
  split
  · refine KeptBy.when ?_
    refine Kept.trans ?_ (State.setSegs_kept ..)
    exact Kept.refl _
  · refine KeptBy.next ?_
    exact Kept.refl _

theorem execSegmentReply_kept (q : SeamId) (s : State) : KeptBy s (execSegmentReply q s) := by
  unfold execSegmentReply
  split
  · dsimp only
    refine KeptBy.from ?_ (KeptBy.when ?_)
    · refine Kept.trans ?_ ((State.takeMessage_kept ..).of_some (by assumption))
      exact Kept.refl _
    · refine Kept.trans ?_ (State.putSegment_kept ..)
      exact Kept.refl _
  · refine KeptBy.next ?_
    refine Kept.trans ?_ ((State.takeMessage_kept ..).of_some (by assumption))
    exact Kept.refl _
  · refine KeptBy.next ?_
    exact Kept.refl _

theorem execGone_kept (q : SeamId) (s : State) : KeptBy s (execGone q s) := by
  unfold execGone
  split
  · dsimp only
    refine KeptBy.from ?_ (KeptBy.when ?_)
    · refine Kept.trans ?_ ((State.takeMessage_kept ..).of_some (by assumption))
      exact Kept.refl _
    · refine Kept.trans ?_ (State.putSegment_kept ..)
      exact Kept.refl _
  · refine KeptBy.next ?_
    refine Kept.trans ?_ ((State.takeMessage_kept ..).of_some (by assumption))
    exact Kept.refl _
  · refine KeptBy.next ?_
    exact Kept.refl _

theorem execEvictionNotice_kept (q : SeamId) (s : State) : KeptBy s (execEvictionNotice q s) := by
  unfold execEvictionNotice
  split
  · dsimp only
    refine KeptBy.from ?_ (KeptBy.when ?_)
    · refine Kept.trans ?_ ((State.takeMessage_kept ..).of_some (by assumption))
      exact Kept.refl _
    · refine Kept.trans ?_ (State.setSegs_kept ..)
      exact Kept.refl _
  · refine KeptBy.next ?_
    refine Kept.trans ?_ ((State.takeMessage_kept ..).of_some (by assumption))
    exact Kept.refl _
  · refine KeptBy.next ?_
    exact Kept.refl _

theorem State.readHistory_kept (s : State) (side : Fin 2) : Kept s (State.readHistory s side) := by
  unfold State.readHistory
  split
  · exact Kept.refl _
  · split
    · refine Kept.trans ?_ (Kept.foldl (fun s x => ?_) _ _)
      · exact Kept.refl _
      · refine Kept.trans ?_ (State.queueOn_kept ..)
        exact Kept.refl _
    · exact Kept.refl _

theorem State.hbmFate_kept (s : State) (good : List Byte) (e : BitVec 256) :
    Kept s (State.hbmFate s good e).2 := by
  unfold State.hbmFate
  try dsimp only
  repeat' first
    | with_reducible exact Kept.refl _
    | with_reducible refine Kept.ite ?_ ?_
    | dsimp only
    | split
    | with_reducible apply Kept.after (State.takeFree_kept ..)
    | dsimp only
    | split
    | exact State.takeFree_kept_eq (by assumption)
    | refine Kept.trans ?_ Kept.rest

theorem State.strike_kept (s : State) (h : Hist) (ps : List ViewPlace) (f : Found) (ks : List Nat) :
    Kept s (State.strike s h ps f ks) := by
  unfold State.strike
  try dsimp only
  repeat' first
    | with_reducible exact Kept.refl _
    | with_reducible refine Kept.ite ?_ ?_
    | with_reducible apply Kept.after (State.detectCommons_kept ..)
    | with_reducible apply Kept.after (State.cleanCommons_kept ..)
    | with_reducible apply Kept.after (State.detectHbm_kept ..)
    | with_reducible apply Kept.after (State.putSegment_kept ..)
    | with_reducible apply Kept.after (Kept.foldl (fun s x => ?_) _ _)
    | dsimp only
    | split
    | exact State.detectCommons_kept_eq (by assumption)
    | exact State.detectHbm_kept_eq (by assumption)
    | refine Kept.trans ?_ Kept.rest

theorem State.fillDamage_kept (s : State) (h : Hist) (ps : List ViewPlace) (l : List Upset) (bs : List Byte) :
    Kept s (State.fillDamage s h ps l bs).2 := by
  unfold State.fillDamage
  dsimp only
  refine Kept.trans ?_ (Kept.foldl_on (fun b : List Byte × State => b.2) (fun b x => ?_) _ _)
  · refine Kept.trans ?_ (Kept.foldl_on (fun b : List Byte × State => b.2) (fun b x => ?_) _ _)
    · exact Kept.refl _
    · split
      · exact Kept.refl _
      · exact State.strike_kept ..
      · exact Kept.refl _
  · split
    · exact State.hbmFate_kept ..
    · exact (State.hbmFate_kept ..).trans (State.strike_kept ..)
    · exact State.hbmFate_kept ..

theorem State.readHome_kept (s : State) (h : Hist) (start : Pos) (b : List Byte) : Kept s (State.readHome s h start b).2 := by
  unfold State.readHome
  exact State.fillDamage_kept ..

theorem State.answerRead_kept (s : State) (h : Hist) (q : SeamId) (m : Message) (start stamp : Pos) (b : List Byte) :
    Kept s (State.answerRead s h q m start stamp b) := by
  unfold State.answerRead
  dsimp only
  refine Kept.ite (State.queueOn_kept ..) ?_
  have k := State.readHome_kept s h start b
  split
  · rename_i e
    rw [e] at k
    exact k.trans (State.queueOn_kept ..)
  · rename_i e
    rw [e] at k
    exact k.trans (State.queueOn_kept ..)

theorem execSegmentRead_kept (q : SeamId) (s : State) : KeptBy s (execSegmentRead q s) := by
  unfold execSegmentRead
  split
  · refine KeptBy.from ((State.takeMessage_kept ..).of_some (by assumption)) (KeptBy.when ?_)
    dsimp only
    refine Kept.trans ?_ (State.settle_kept ..)
    split
    · exact State.answerRead_kept ..
    · exact State.queueOn_kept ..
  · exact KeptBy.next ((State.takeMessage_kept ..).of_some (by assumption))
  · exact KeptBy.next (Kept.refl _)

theorem State.writeView_kept (s : State) (h : Hist) (w : Window) (places : List (List Byte)) :
    Kept s (State.writeView s h w places) := by
  unfold State.writeView
  refine Kept.trans ?_ (State.writeCommons_kept ..)
  exact Kept.refl _

theorem State.fillView_kept (s : State) (h : Hist) (w : Window) (u : List Upset) :
    Kept s (State.fillView s h w u).2 := by
  unfold State.fillView
  dsimp only
  refine Kept.trans ?_ (State.writeView_kept ..)
  refine Kept.trans ?_ (State.fillDamage_kept ..)
  exact Kept.refl _

theorem State.fillView_kept_eq {a0} {t : State} {s : State} {h : Hist} {w : Window} {u : List Upset}
    (heq : State.fillView s h w u = (a0, t)) :
    Kept s t := by
  have := State.fillView_kept s h w u
  rw [heq] at this
  exact this

theorem execViewFillComplete_kept (tag : Tag) (u : List Upset) (s : State) :
    KeptBy s (execViewFillComplete tag u s) := by
  unfold execViewFillComplete
  try dsimp only
  repeat' first
    | with_reducible exact Kept.refl _
    | with_reducible refine Kept.ite ?_ ?_
    | with_reducible refine KeptBy.ite ?_ ?_
    | with_reducible refine KeptBy.next ?_
    | with_reducible refine KeptBy.when ?_
    | with_reducible apply Kept.after (State.closeWindow_kept ..)
    | with_reducible apply Kept.after (State.settle_kept ..)
    | with_reducible apply Kept.after (State.fillView_kept ..)
    | with_reducible apply Kept.after (State.wakeGroups_kept ..)
    | dsimp only
    | split
    | exact State.fillView_kept_eq (by assumption)
    | refine Kept.trans ?_ Kept.rest

/-! ### Machine/Web.lean -/

theorem State.countEvent_kept (s : State) (forward : Bool) : Kept s (State.countEvent s forward) := by
  unfold State.countEvent
  dsimp only
  split
  · split
    · refine Kept.trans ?_ Kept.rest
      refine Kept.trans ?_ Kept.rest
      exact Kept.refl _
    · refine Kept.trans ?_ Kept.rest
      exact Kept.refl _
  · split
    · refine Kept.trans ?_ Kept.rest
      exact Kept.refl _
    · exact Kept.refl _

theorem State.legalEdge_based (s : State) (d : DecId) (forward : Bool) : Based s (State.legalEdge s d forward) := by
  unfold State.legalEdge
  dsimp only
  split
  · refine Based.trans ?_ (Based.mk (fun h => h) (fun _ h => h) (fun h => h) (fun h => h) (fun h => h) (fun h => h))
    exact Based.refl _
  · split
    · refine Based.trans ?_ (State.countEvent_kept ..).based
      refine Based.trans ?_ (Based.mk (fun h => h) (fun _ h => h) (fun h => h) (fun h => h) (fun h => h) (fun h => h))
      exact Based.refl _
    · refine Based.trans ?_ (Based.mk (fun h => h) (fun _ h => h) (fun h => h) (fun h => h) (fun h => h) (fun h => h))
      exact Based.refl _

theorem State.illegalEdge_kept (s : State) (d : DecId) : Kept s (State.illegalEdge s d) := by
  unfold State.illegalEdge
  dsimp only
  split
  · refine Kept.trans ?_ (State.checkSlip_kept ..)
    refine Kept.trans ?_ (State.addUncertainty_kept ..)
    refine Kept.trans ?_ (Kept.mk rfl (upd_counts _ fun _ => rfl) (fun h => h) (fun h => h) (fun h => h) (fun h => h) (fun h => h) (fun h => h) (fun h => h))
    exact Kept.refl _
  · refine Kept.trans ?_ (State.addUncertainty_kept ..)
    refine Kept.trans ?_ (Kept.mk rfl (upd_counts _ fun _ => rfl) (fun h => h) (fun h => h) (fun h => h) (fun h => h) (fun h => h) (fun h => h) (fun h => h))
    exact Kept.refl _

theorem execEncoderEdge_based (d : DecId) (a b : PinLevel) (s : State) :
    BasedBy s (execEncoderEdge d a b s) := by
  unfold execEncoderEdge
  dsimp only
  split
  · exact BasedBy.next (Based.refl _)
  split
  · refine BasedBy.next ?_
    refine Based.trans ?_ (Based.mk (fun h => h) (fun _ h => h) (fun h => h) (fun h => h) (fun h => h) (fun h => h))
    exact Based.refl _
  · split
    · refine BasedBy.next ?_
      refine Based.trans ?_ (Based.mk (fun h => h) (fun _ h => h) (fun h => h) (fun h => h) (fun h => h) (fun h => h))
      exact Based.refl _
    · refine BasedBy.next ?_
      refine Based.trans ?_ (State.settle_kept ..).based
      refine Based.trans ?_ (State.legalEdge_based ..)
      refine Based.trans ?_ (Based.mk (fun h => h) (fun _ h => h) (fun h => h) (fun h => h) (fun h => h) (fun h => h))
      exact Based.refl _
    · refine BasedBy.next ?_
      refine Based.trans ?_ (State.settle_kept ..).based
      refine Based.trans ?_ (State.illegalEdge_kept ..).based
      refine Based.trans ?_ (Based.mk (fun h => h) (fun _ h => h) (fun h => h) (fun h => h) (fun h => h) (fun h => h))
      exact Based.refl _

theorem execCrossCheckSpan_kept (s : State) : KeptBy s (execCrossCheckSpan s) := by
  unfold execCrossCheckSpan
  refine KeptBy.when ?_
  dsimp only
  split
  · refine Kept.trans ?_ (State.settle_kept ..)
    refine Kept.trans ?_ (State.checkSlip_kept ..)
    refine Kept.trans ?_ (State.faultRecord_kept ..)
    refine Kept.trans ?_ (State.addUncertainty_kept ..)
    refine Kept.trans ?_ Kept.rest
    exact Kept.refl _
  · refine Kept.trans ?_ Kept.rest
    exact Kept.refl _

theorem State.latchIndex_kept (s : State) (d : DecId) : Kept s (State.latchIndex s d) := by
  unfold State.latchIndex
  dsimp only
  split
  · split
    · refine Kept.trans ?_ (State.checkSlip_kept ..)
      refine Kept.trans ?_ (State.faultRecord_kept ..)
      refine Kept.trans ?_ (State.addUncertainty_kept ..)
      refine Kept.trans ?_ (Kept.mk rfl (upd_counts _ fun _ => rfl) (fun h => h) (fun h => h) (fun h => h) (fun h => h) (fun h => h) (fun h => h) (fun h => h))
      exact Kept.refl _
    · refine Kept.trans ?_ (State.faultRecord_kept ..)
      refine Kept.trans ?_ (State.addUncertainty_kept ..)
      refine Kept.trans ?_ (Kept.mk rfl (upd_counts _ fun _ => rfl) (fun h => h) (fun h => h) (fun h => h) (fun h => h) (fun h => h) (fun h => h) (fun h => h))
      exact Kept.refl _
  · refine Kept.trans ?_ (Kept.mk rfl (upd_counts _ fun _ => rfl) (fun h => h) (fun h => h) (fun h => h) (fun h => h) (fun h => h) (fun h => h) (fun h => h))
    exact Kept.refl _

theorem execIndexPulse_kept (d : DecId) (widthNs : Nat) (s : State) : KeptBy s (execIndexPulse d widthNs s) := by
  unfold execIndexPulse
  split
  · refine KeptBy.next ?_
    exact Kept.refl _
  · split
    · split
      refine KeptBy.next ?_
      split
      · refine Kept.trans ?_ (State.settle_kept ..)
        refine Kept.trans ?_ (State.latchIndex_kept ..)
        refine Kept.trans ?_ (State.takeFree_kept_eq (by assumption))
        exact Kept.refl _
      · refine Kept.trans ?_ (State.takeFree_kept_eq (by assumption))
        exact Kept.refl _
    · refine KeptBy.next ?_
      refine Kept.trans ?_ (State.settle_kept ..)
      refine Kept.trans ?_ (State.latchIndex_kept ..)
      exact Kept.refl _

theorem State.overRate_kept (s : State) (counts lines : Nat) (overC overL : Bool) :
    Kept s (State.overRate s counts lines overC overL) := by
  unfold State.overRate
  dsimp only
  split
  · refine Kept.trans ?_ (State.status_kept ..)
    split
    · refine Kept.trans ?_ (State.status_kept ..)
      refine Kept.trans ?_ Kept.rest
      exact Kept.refl _
    · refine Kept.trans ?_ Kept.rest
      exact Kept.refl _
  · split
    · refine Kept.trans ?_ (State.status_kept ..)
      refine Kept.trans ?_ Kept.rest
      exact Kept.refl _
    · refine Kept.trans ?_ Kept.rest
      exact Kept.refl _

theorem execRateWindow_kept (s : State) : KeptBy s (execRateWindow s) := by
  unfold execRateWindow
  refine KeptBy.when ?_
  dsimp only
  refine Kept.trans ?_ (State.settle_kept ..)
  split
  · refine Kept.trans ?_ (State.overRate_kept ..)
    refine Kept.trans ?_ Kept.rest
    exact Kept.refl _
  · split
    · split
      · refine Kept.trans ?_ Kept.rest
        refine Kept.trans ?_ (State.statusPos_kept ..)
        refine Kept.trans ?_ Kept.rest
        exact Kept.refl _
      · refine Kept.trans ?_ Kept.rest
        exact Kept.refl _
    · refine Kept.trans ?_ Kept.rest
      exact Kept.refl _

theorem execWebStopped_kept (s : State) : KeptBy s (execWebStopped s) := by
  unfold execWebStopped
  refine KeptBy.when ?_
  dsimp only
  refine Kept.trans ?_ (State.settle_kept ..)
  refine Kept.trans ?_ (State.raiseEntry_kept ..)
  refine Kept.trans ?_ (State.controlEvent_kept ..)
  refine Kept.trans ?_ (State.statusPos_kept ..)
  refine Kept.trans ?_ Kept.rest
  exact Kept.refl _

theorem State.motionWake_kept (s : State) : Kept s (State.motionWake s) := by
  unfold State.motionWake
  dsimp only
  split
  · refine Kept.trans ?_ (State.restore_kept ..)
    refine Kept.trans ?_ (State.raiseWake_kept ..)
    exact Kept.refl _
  · refine Kept.trans ?_ (State.raiseWake_kept ..)
    exact Kept.refl _

theorem execWebMoving_kept (s : State) : KeptBy s (execWebMoving s) := by
  unfold execWebMoving
  refine KeptBy.when ?_
  dsimp only
  refine Kept.trans ?_ (State.settle_kept ..)
  refine Kept.trans ?_ (State.motionWake_kept ..)
  refine Kept.trans ?_ (State.raiseEntry_kept ..)
  refine Kept.trans ?_ (State.controlEvent_kept ..)
  refine Kept.trans ?_ (State.statusPos_kept ..)
  refine Kept.trans ?_ Kept.rest
  exact Kept.refl _

theorem execHorizonClosure_kept (tag : Tag) (s : State) : KeptBy s (execHorizonClosure tag s) := by
  unfold execHorizonClosure
  split
  · refine KeptBy.when ?_
    refine Kept.trans ?_ (State.settle_kept ..)
    refine Kept.trans ?_ (State.closeWindow_kept ..)
    exact Kept.refl _
  · refine KeptBy.next ?_
    exact Kept.refl _

/-! ### Machine/Lookback.lean -/

theorem State.restartGroup_kept (s : State) (g : Nat) : Kept s (State.restartGroup s g) := by
  unfold State.restartGroup
  refine Kept.trans ?_ (Kept.foldl (fun s x => ?_) _ _)
  · exact Kept.refl _
  · refine Kept.trans ?_ (State.updPanel_kept _ _ fun _ h => h)
    exact Kept.refl _

theorem execSpanStart_kept (g : Nat) (s : State) : KeptBy s (execSpanStart g s) := by
  unfold execSpanStart
  dsimp only
  refine KeptBy.when ?_
  refine Kept.trans ?_ (State.updGroup_kept ..)
  refine Kept.trans ?_ (State.restartGroup_kept ..)
  exact Kept.refl _

theorem State.finishSpan_kept (s : State) (g : Nat) :
    Kept s (State.finishSpan s g) := by
  unfold State.finishSpan
  try dsimp only
  repeat' first
    | with_reducible exact Kept.refl _
    | exact fun _ h => h
    | with_reducible refine Kept.ite ?_ ?_
    | with_reducible apply Kept.after (State.release_kept ..)
    | with_reducible apply Kept.after (State.updPanel_kept _ _ ?_)
    | with_reducible apply Kept.after (State.updGroup_kept ..)
    | with_reducible apply Kept.after (State.dropVotes_kept ..)
    | with_reducible apply Kept.after (State.wakeGroups_kept ..)
    | with_reducible apply Kept.after (Kept.foldl (fun s x => ?_) _ _)
    | dsimp only
    | split
    | refine Kept.trans ?_ Kept.rest

theorem State.endSpan_kept (s : State) (g : Nat) : Kept s (State.endSpan s g) := by
  unfold State.endSpan
  dsimp only
  refine Kept.trans ?_ (State.finishSpan_kept ..)
  refine Kept.trans ?_ (Kept.foldl (fun s x => ?_) _ _)
  · refine Kept.trans ?_ (State.updGroup_kept ..)
    exact Kept.refl _
  · split
    · refine Kept.trans ?_ (State.updPanel_kept _ _ fun _ h => h)
      exact Kept.refl _
    · exact Kept.refl _

theorem execSpanEnd_kept (g : Nat) (s : State) : KeptBy s (execSpanEnd g s) := by
  unfold execSpanEnd
  dsimp only
  refine KeptBy.when ?_
  refine Kept.trans ?_ (State.settle_kept ..)
  refine Kept.trans ?_ (State.endSpan_kept ..)
  exact Kept.refl _

theorem State.takeWindow_kept (s : State) (g id cost : Nat) : Kept s (State.takeWindow s g id cost) := by
  unfold State.takeWindow
  split
  · refine Kept.trans ?_ (State.updGroup_kept ..)
    exact Kept.refl _
  · dsimp only
    refine Kept.trans ?_ (State.updGroup_kept ..)
    refine Kept.trans ?_ Kept.rest
    exact Kept.refl _

theorem State.joinRun_kept (s : State) (p : PanelId) (id len cost t : Nat) :
    Kept s (State.joinRun s p id len cost t) := by
  unfold State.joinRun
  dsimp only
  refine Kept.trans ?_ (State.updPanel_kept _ _ fun _ h => h)
  refine Kept.trans ?_ (State.updRun_kept ..)
  split
  · exact Kept.refl _
  · refine Kept.trans ?_ (State.takeWindow_kept ..)
    exact Kept.refl _

theorem execSlot_kept (p : PanelId) (s : State) : KeptBy s (execSlot p s) := by
  unfold execSlot
  split
  · dsimp only
    split
    · refine KeptBy.next ?_
      refine Kept.trans ?_ (State.settle_kept ..)
      refine Kept.trans ?_ (State.finishSpan_kept ..)
      refine Kept.trans ?_ (State.updPanel_kept _ _ fun _ h => h)
      exact Kept.refl _
    · split
      · refine KeptBy.next ?_
        exact Kept.refl _
      · split
        · refine KeptBy.next ?_
          exact Kept.refl _
        · refine KeptBy.next ?_
          refine Kept.trans ?_ (State.settle_kept ..)
          refine Kept.trans ?_ (State.joinRun_kept ..)
          refine Kept.trans ?_ ((State.issuePanel_kept ..).of_some (by assumption))
          exact Kept.refl _
  · refine KeptBy.next ?_
    exact Kept.refl _

theorem State.endMarked_kept (s : State) (r : SlotRun) (w : Window) (id : BitVec 32) :
    Kept s (State.endMarked s r w id) := by
  unfold State.endMarked
  try dsimp only
  repeat' first
    | with_reducible exact Kept.refl _
    | with_reducible refine Kept.ite ?_ ?_
    | with_reducible apply Kept.after (State.closeWindow_kept ..)
    | with_reducible apply Kept.after (State.wakeGroups_kept ..)
    | dsimp only
    | split
    | refine Kept.trans ?_ Kept.rest

theorem State.countReplay_kept (s : State) (r : SlotRun) (closed lost : Bool) :
    Kept s (State.countReplay s r closed lost) := by
  unfold State.countReplay
  refine Kept.trans ?_ Kept.rest
  exact Kept.refl _

theorem State.closeInstance_kept (s : State) (r : SlotRun) (w : Window) : Kept s (State.closeInstance s r w) := by
  unfold State.closeInstance
  dsimp only
  split
  · refine Kept.trans ?_ Kept.rest
    refine Kept.trans ?_ (State.closeWindow_kept ..)
    exact Kept.refl _
  · split
    · refine Kept.trans ?_ (State.countReplay_kept ..)
      refine Kept.trans ?_ (State.closeWindow_kept ..)
      exact Kept.refl _
    · split
      · refine Kept.trans ?_ (State.countReplay_kept ..)
        refine Kept.trans ?_ (State.closeWindow_kept ..)
        exact Kept.refl _
      · split
        · split
          · refine Kept.trans ?_ (State.contribute_kept ..)
            refine Kept.trans ?_ (State.countReplay_kept ..)
            refine Kept.trans ?_ (State.closeWindow_kept ..)
            exact Kept.refl _
          · refine Kept.trans ?_ (State.countReplay_kept ..)
            refine Kept.trans ?_ (State.closeWindow_kept ..)
            exact Kept.refl _
        · refine Kept.trans ?_ (State.countReplay_kept ..)
          refine Kept.trans ?_ (State.closeWindow_kept ..)
          exact Kept.refl _
        · refine Kept.trans ?_ (State.countReplay_kept ..)
          refine Kept.trans ?_ (State.closeWindow_kept ..)
          exact Kept.refl _

theorem State.endInstance_kept (s : State) (g : Nat) (r : SlotRun) :
    Kept s (State.endInstance s g r) := by
  unfold State.endInstance
  try dsimp only
  repeat' first
    | with_reducible exact Kept.refl _
    | with_reducible refine Kept.ite ?_ ?_
    | with_reducible apply Kept.after (State.updGroup_kept ..)
    | with_reducible apply Kept.after (State.endMarked_kept ..)
    | with_reducible apply Kept.after (State.closeInstance_kept ..)
    | dsimp only
    | split
    | refine Kept.trans ?_ Kept.rest

theorem State.leaveSlot_kept (s : State) (p : PanelId) (b c : Nat) : Kept s (State.leaveSlot s p b c) := by
  unfold State.leaveSlot
  dsimp only
  split
  · split
    · refine Kept.trans ?_ (State.settle_kept ..)
      refine Kept.trans ?_ (State.endInstance_kept ..)
      refine Kept.trans ?_ (State.updRun_kept ..)
      refine Kept.trans ?_ (State.updPanel_kept _ _ fun _ h => h)
      exact Kept.refl _
    · refine Kept.trans ?_ (State.updRun_kept ..)
      refine Kept.trans ?_ (State.updPanel_kept _ _ fun _ h => h)
      exact Kept.refl _
  · refine Kept.trans ?_ (State.updRun_kept ..)
    refine Kept.trans ?_ (State.updPanel_kept _ _ fun _ h => h)
    exact Kept.refl _

theorem execSlotSpanEnd_kept (p : PanelId) (s : State) : KeptBy s (execSlotSpanEnd p s) := by
  unfold execSlotSpanEnd
  dsimp only
  split
  · exact KeptBy.when (State.leaveSlot_kept ..)
  · exact KeptBy.next (Kept.refl _)

theorem State.verdict_kept (s : State) (p : PanelId) (b : List Byte) : Kept s (State.verdict s p b) := by
  unfold State.verdict
  dsimp only
  split
  · split
    · exact Kept.refl _
    · split
      · refine Kept.trans ?_ Kept.rest
        exact Kept.refl _
      · split
        · refine Kept.trans ?_ Kept.rest
          refine Kept.trans ?_ (State.updRun_kept ..)
          exact Kept.refl _
        · refine Kept.trans ?_ (State.updRun_kept ..)
          exact Kept.refl _
  · exact Kept.refl _

theorem State.verdictBytes_kept (s : State) (p : PanelId) (f : Nat) : Kept s (State.verdictBytes s p f).2 := by
  unfold State.verdictBytes
  dsimp only
  refine Kept.trans ?_ (State.readStored_kept ..)
  exact Kept.refl _

theorem State.verdictBytes_kept_eq {a0} {t : State} {s : State} {p : PanelId} {f : Nat}
    (heq : State.verdictBytes s p f = (a0, t)) :
    Kept s t := by
  have := State.verdictBytes_kept s p f
  rw [heq] at this
  exact this

theorem execVerdict_kept (p : PanelId) (u : List Upset) (s : State) : KeptBy s (execVerdict p u s) := by
  unfold execVerdict
  refine panelStep_kept _ _ _ fun i => ?_
  split
  · refine KeptEff.some fun t s => ?_
    split
    refine Kept.trans ?_ (State.verdict_kept ..)
    refine Kept.trans ?_ (State.verdictBytes_kept_eq (by assumption))
    exact Kept.refl _
  · exact KeptEff.none

/-! ### Machine/PanelControl.lean -/

theorem State.updControl_kept (s : State) (f : Sequencer → Sequencer) : Kept s (State.updControl s f) := by
  unfold State.updControl
  refine Kept.trans ?_ Kept.rest
  exact Kept.refl _

theorem controlIssue_kept {effect : Stitch → Option (State → State)} (s : State) (h : ∀ i, KeptFun (effect i)) :
    KeptBy s (controlIssue s effect) := by
  unfold controlIssue
  split
  · exact KeptBy.next (Kept.refl _)
  · split
    · exact KeptBy.next (Kept.refl _)
    · rename_i g hg
      refine KeptBy.next ?_
      refine Kept.trans ?_ (State.settle_kept ..)
      refine Kept.trans ?_ ((h _).of_some hg _)
      refine Kept.trans ?_ (State.updControl_kept ..)
      exact State.noteFirst_kept ..

theorem unitStep_kept {effect : Stitch → Option (State → State)} (q : UnitId) (s : State) (h : ∀ i, KeptFun (effect i)) :
    KeptBy s (unitStep q s effect) := by
  unfold unitStep
  split
  · exact panelStep_kept _ _ _ fun i => (h i).map
  · exact controlIssue_kept _ h

theorem execNop_kept (q : UnitId) (s : State) : KeptBy s (execNop q s) := by
  unfold execNop
  refine unitStep_kept _ _ fun i => ?_
  split
  · refine KeptFun.some fun s => ?_
    exact Kept.refl _
  · exact KeptFun.none

theorem execLoop_kept (q : UnitId) (s : State) : KeptBy s (execLoop q s) := by
  unfold execLoop
  split
  · refine panelStep_kept _ _ _ fun i => ?_
    split
    · refine KeptEff.some fun t s => ?_
      refine Kept.trans ?_ (State.updPanel_kept _ _ fun _ h => h)
      exact Kept.refl _
    · exact KeptEff.none
  · dsimp only
    refine controlIssue_kept _ fun i => ?_
    split
    · refine KeptFun.some fun s => ?_
      refine Kept.trans ?_ (State.updControl_kept ..)
      exact Kept.refl _
    · exact KeptFun.none

theorem State.sendToken_kept (s : State) (cycle target k inc : Nat) :
    Kept s (State.sendToken s cycle target k inc) := by
  unfold State.sendToken
  try dsimp only
  repeat' first
    | with_reducible exact Kept.refl _
    | exact fun _ h => h
    | with_reducible refine Kept.ite ?_ ?_
    | with_reducible apply Kept.after (State.updPanel_kept _ _ ?_)
    | with_reducible apply Kept.after (State.updControl_kept ..)
    | dsimp only
    | split
    | refine Kept.trans ?_ Kept.rest

theorem execSigk_kept (q : UnitId) (s : State) :
    KeptBy s (execSigk q s) := by
  unfold execSigk
  split
  · refine panelStep_kept _ _ _ fun i => ?_
    split
    · exact KeptEff.some fun t s => State.sendToken_kept ..
    · exact KeptEff.none
  · refine controlIssue_kept _ fun i => ?_
    split
    · exact KeptFun.some fun s => State.sendToken_kept ..
    · exact KeptFun.none

theorem execTokenArrival_kept (q : UnitId) (s : State) : KeptBy s (execTokenArrival q s) := by
  unfold execTokenArrival
  split
  · exact KeptBy.when (State.updPanel_kept _ _ fun _ h => h)
  · exact KeptBy.when (State.updControl_kept ..)

theorem execWaitk_kept (q : UnitId) (s : State) : KeptBy s (execWaitk q s) := by
  unfold execWaitk
  split
  · dsimp only
    refine panelStep_kept _ _ _ fun i => ?_
    split
    · split
      · refine KeptEff.some fun t s => ?_
        refine Kept.trans ?_ (State.updPanel_kept _ _ fun _ h => h)
        exact Kept.refl _
      · exact KeptEff.none
    · exact KeptEff.none
  · dsimp only
    refine controlIssue_kept _ fun i => ?_
    split
    · split
      · refine KeptFun.some fun s => ?_
        refine Kept.trans ?_ (State.updControl_kept ..)
        exact Kept.refl _
      · exact KeptFun.none
    · exact KeptFun.none

theorem execVote_kept (q : UnitId) (s : State) : KeptBy s (execVote q s) := by
  unfold execVote
  refine unitStep_kept _ _ fun i => ?_
  split
  · refine KeptFun.some fun s => ?_
    refine Kept.trans ?_ (State.addVote_kept ..)
    exact Kept.refl _
  · exact KeptFun.none

theorem execUnvote_kept (q : UnitId) (s : State) : KeptBy s (execUnvote q s) := by
  unfold execUnvote
  refine unitStep_kept _ _ fun i => ?_
  split
  · refine KeptFun.some fun s => ?_
    refine Kept.trans ?_ (State.dropVote_kept ..)
    exact Kept.refl _
  · exact KeptFun.none

theorem State.groupHalted_kept (s : State) (g : Nat) : Kept s (State.groupHalted s g) := by
  unfold State.groupHalted
  dsimp only
  split
  · refine Kept.trans ?_ (State.finishSpan_kept ..)
    exact Kept.refl _
  · split
    · refine Kept.trans ?_ (State.restartGroup_kept ..)
      exact Kept.refl _
    · exact Kept.refl _

theorem execHaltPanel_kept (p : PanelId) (s : State) : KeptBy s (execHaltPanel p s) := by
  unfold execHaltPanel
  have hr := panelStep_kept p [] s (effect := fun
    | .halt => some fun _ s => s.updPanel p fun x => { x with seq := { x.seq with halted := true } }
    | _ => none) fun i => by
      split
      · exact KeptEff.some fun _ s => State.updPanel_kept _ _ fun _ h => h
      · exact KeptEff.none
  generalize panelStep p [] s _ = r at hr
  split
  · refine KeptBy.next ?_
    split
    · refine Kept.trans ?_ (State.settle_kept ..)
      refine Kept.trans ?_ (State.groupHalted_kept ..)
      exact hr.of_next rfl
    · exact hr.of_next rfl
  · exact hr

theorem execHaltControl_kept (s : State) : KeptBy s (execHaltControl s) := by
  unfold execHaltControl
  refine controlIssue_kept _ fun i => ?_
  split
  · refine KeptFun.some fun s => ?_
    refine Kept.trans ?_ (State.startPending_kept ..)
    refine Kept.trans ?_ (State.dropVote_kept ..)
    refine Kept.trans ?_ (State.updControl_kept ..)
    exact Kept.refl _
  · exact KeptFun.none

theorem execHalt_kept (q : UnitId) (s : State) : KeptBy s (execHalt q s) := by
  unfold execHalt
  split
  · exact execHaltPanel_kept ..
  · exact execHaltControl_kept ..

theorem State.joinPll_kept (s : State) : Kept s (State.joinPll s) := by
  unfold State.joinPll
  exact Kept.rest

theorem execPllsw_kept (s : State) : KeptBy s (execPllsw s) := by
  unfold execPllsw
  refine controlIssue_kept _ fun i => ?_
  split
  · refine KeptFun.some fun s => ?_
    have h : Kept s { s.requestPll with control := { s.requestPll.control with wantPll := true } } :=
      (State.requestPll_kept s).trans Kept.rest
    exact Kept.ite (h.trans (State.joinPll_kept _)) h
  · exact KeptFun.none

theorem execWaite_kept (s : State) : KeptBy s (execWaite s) := by
  unfold execWaite
  refine controlIssue_kept _ fun i => ?_
  split
  · refine KeptFun.some fun s => ?_
    dsimp only
    split
    · refine Kept.trans ?_ (State.dropVote_kept ..)
      refine Kept.trans ?_ Kept.rest
      exact Kept.refl _
    · refine Kept.trans ?_ Kept.rest
      exact Kept.refl _
  · exact KeptFun.none

/-! ### Machine/Cim.lean -/

theorem State.updArray_kept (s : State) (x : ArrayId) (f : CimArray → CimArray) : Kept s (State.updArray s x f) := by
  unfold State.updArray
  refine Kept.trans ?_ Kept.rest
  exact Kept.refl _

theorem State.outOfTrim_kept (s : State) (x : ArrayId) (column : Nat) : Kept s (State.outOfTrim s x column) := by
  unfold State.outOfTrim
  split
  · exact Kept.refl _
  · dsimp only
    refine Kept.trans ?_ (State.assertFault_kept ..)
    refine Kept.trans ?_ (State.faultRecord_kept ..)
    refine Kept.trans ?_ (State.updArray_kept ..)
    exact Kept.refl _

theorem State.sweepArray_kept (s : State) (x : ArrayId) (reps : Nat) (windowed : Bool) :
    Kept s (State.sweepArray s x reps windowed) := by
  unfold State.sweepArray
  dsimp only
  split
  · refine Kept.trans ?_ (State.outOfTrim_kept ..)
    split
    · refine Kept.trans ?_ (State.updArray_kept ..)
      refine Kept.trans ?_ Kept.rest
      exact Kept.refl _
    · refine Kept.trans ?_ Kept.rest
      exact Kept.refl _
  · split
    · refine Kept.trans ?_ (State.updArray_kept ..)
      refine Kept.trans ?_ Kept.rest
      exact Kept.refl _
    · refine Kept.trans ?_ Kept.rest
      exact Kept.refl _

theorem execDriftTrackerBlock_kept (x : ArrayId) (s : State) : KeptBy s (execDriftTrackerBlock x s) := by
  unfold execDriftTrackerBlock
  split
  · refine KeptBy.next ?_
    exact Kept.refl _
  · dsimp only
    refine KeptBy.next ?_
    refine Kept.trans ?_ (State.settle_kept ..)
    split
    · refine Kept.trans ?_ (State.outOfTrim_kept ..)
      split
      · refine Kept.trans ?_ (State.status_kept ..)
        refine Kept.trans ?_ (State.updArray_kept ..)
        refine Kept.trans ?_ (State.updArray_kept ..)
        exact Kept.refl _
      · split
        · refine Kept.trans ?_ (State.updArray_kept ..)
          refine Kept.trans ?_ (State.updArray_kept ..)
          exact Kept.refl _
        · refine Kept.trans ?_ (State.updArray_kept ..)
          exact Kept.refl _
    · split
      · refine Kept.trans ?_ (State.status_kept ..)
        refine Kept.trans ?_ (State.updArray_kept ..)
        refine Kept.trans ?_ (State.updArray_kept ..)
        exact Kept.refl _
      · split
        · refine Kept.trans ?_ (State.updArray_kept ..)
          refine Kept.trans ?_ (State.updArray_kept ..)
          exact Kept.refl _
        · refine Kept.trans ?_ (State.updArray_kept ..)
          exact Kept.refl _

/-! ### Machine/PanelCompute.lean -/

theorem execMm_kept (p : PanelId) (u : List Upset) (s : State) : KeptBy s (execMm p u s) := by
  unfold execMm
  refine panelStep_kept _ _ _ fun i => ?_
  split
  · refine KeptEff.some fun t s => ?_
    dsimp only
    refine Kept.trans ?_ (State.updPanel_kept _ _ fun _ h => h)
    exact Kept.refl _
  · exact KeptEff.none

theorem State.drainBank_kept (s : State) (p : PanelId) (x bank tgt d : Nat) :
    Kept s (State.drainBank s p x bank tgt d) := by
  unfold State.drainBank
  split
  split
  · exact State.updPanel_kept _ _ fun _ h => h
  · dsimp only
    refine Kept.trans ?_ (Kept.foldl (fun s x => ?_) _ _)
    · exact Kept.refl _
    · refine Kept.trans ?_ (State.writeStore_kept ..)
      exact Kept.refl _

theorem execDrain_kept (p : PanelId) (u : List Upset) (s : State) : KeptBy s (execDrain p u s) := by
  unfold execDrain
  refine panelStep_kept _ _ _ fun i => ?_
  split
  · exact KeptEff.some fun t s => State.drainBank_kept ..
  · exact KeptEff.none

theorem State.latticeTile_kept (s : State) (p : PanelId) (lat bits sgn width a d row col : Nat) :
    Kept s (State.latticeTile s p lat bits sgn width a d row col) := by
  unfold State.latticeTile
  dsimp only
  refine Kept.trans ?_ (State.writeStored_kept ..)
  refine Kept.trans ?_ (State.updArray_kept ..)
  refine Kept.trans ?_ Kept.rest
  refine Kept.trans ?_ (State.readTile_kept ..)
  exact Kept.refl _

theorem execCimv_kept (p : PanelId) (u : List Upset) (s : State) : KeptBy s (execCimv p u s) := by
  unfold execCimv
  refine panelStep_kept _ _ _ fun i => ?_
  split
  · exact KeptEff.some fun t s => State.latticeTile_kept ..
  · exact KeptEff.none

/-! ### Machine/PanelVector.lean -/

theorem State.takeVq_kept (s : State) (p : PanelId) (n : Nat) : Kept s (State.takeVq s p n).2 := by
  unfold State.takeVq
  dsimp only
  refine Kept.trans ?_ (State.updPanel_kept _ _ fun _ h => h)
  exact Kept.refl _

theorem State.takeVq_kept_eq {a0} {t : State} {s : State} {p : PanelId} {n : Nat}
    (heq : State.takeVq s p n = (a0, t)) :
    Kept s t := by
  have := State.takeVq_kept s p n
  rw [heq] at this
  exact this

theorem State.readSource_kept (s : State) (p : PanelId) (f dst : Nat) : Kept s (State.readSource s p f dst).2 := by
  unfold State.readSource
  split
  · refine Kept.trans ?_ (State.takeVq_kept ..)
    exact Kept.refl _
  · split
    dsimp only
    refine Kept.trans ?_ (State.readTile_kept_eq (by assumption))
    exact Kept.refl _

theorem State.readSource_kept_eq {a0} {t : State} {s : State} {p : PanelId} {f dst : Nat}
    (heq : State.readSource s p f dst = (a0, t)) :
    Kept s t := by
  have := State.readSource_kept s p f dst
  rw [heq] at this
  exact this

theorem vectorStep_kept {g : Nat → Nat → Nat → Bool → Nat → F32 → State → List Num × State} (op : Nat) (p : PanelId)
    (u : List Upset) (s : State) (h : ∀ d a b r c al s, Kept s (g d a b r c al s).2) :
    KeptBy s (vectorStep op p u s g) := by
  unfold vectorStep
  refine panelStep_kept _ _ _ fun i => ?_
  split
  · split
    · refine KeptEff.some fun t s => ?_
      refine Kept.trans ?_ (State.writeValues_kept ..)
      exact h ..
    · exact KeptEff.none
  · exact KeptEff.none

theorem vector2_kept (op : Nat) (fi : Int → Int → Int) (ff : F32 → F32 → F32) (p : PanelId) (u : List Upset)
    (s : State) :
    KeptBy s (vector2 op fi ff p u s) := by
  unfold vector2
  refine vectorStep_kept _ _ _ _ fun _ _ _ _ _ _ s => ?_
  split
  split
  dsimp only
  refine Kept.trans ?_ (State.readSource_kept_eq (by assumption))
  refine Kept.trans ?_ (State.readSource_kept_eq (by assumption))
  exact Kept.refl _

theorem vector1_kept (op : Nat) (fi : Int → Int) (ff : F32 → F32 → F32) (p : PanelId) (u : List Upset) (s : State) :
    KeptBy s (vector1 op fi ff p u s) := by
  unfold vector1
  refine vectorStep_kept _ _ _ _ fun _ _ _ _ _ _ s => ?_
  split
  dsimp only
  refine Kept.trans ?_ (State.readSource_kept_eq (by assumption))
  exact Kept.refl _

theorem execVadd_kept (p : PanelId) (u : List Upset) (s : State) : KeptBy s (execVadd p u s) := by
  unfold execVadd
  exact vector2_kept ..

theorem execVsub_kept (p : PanelId) (u : List Upset) (s : State) : KeptBy s (execVsub p u s) := by
  unfold execVsub
  exact vector2_kept ..

theorem execVmul_kept (p : PanelId) (u : List Upset) (s : State) : KeptBy s (execVmul p u s) := by
  unfold execVmul
  exact vector2_kept ..

theorem execVmax_kept (p : PanelId) (u : List Upset) (s : State) : KeptBy s (execVmax p u s) := by
  unfold execVmax
  exact vector2_kept ..

theorem execVmin_kept (p : PanelId) (u : List Upset) (s : State) : KeptBy s (execVmin p u s) := by
  unfold execVmin
  exact vector2_kept ..

theorem execVabs_kept (p : PanelId) (u : List Upset) (s : State) : KeptBy s (execVabs p u s) := by
  unfold execVabs
  exact vector1_kept ..

theorem execVneg_kept (p : PanelId) (u : List Upset) (s : State) : KeptBy s (execVneg p u s) := by
  unfold execVneg
  exact vector1_kept ..

theorem execVcvt_kept (p : PanelId) (u : List Upset) (s : State) : KeptBy s (execVcvt p u s) := by
  unfold execVcvt
  refine vectorStep_kept _ _ _ _ fun _ _ _ _ _ _ s => ?_
  refine Kept.trans ?_ (State.readSource_kept ..)
  exact Kept.refl _

theorem State.readBytes_kept (s : State) (p : PanelId) (f : Nat) : Kept s (State.readBytes s p f).2 := by
  unfold State.readBytes
  split
  dsimp only
  refine Kept.trans ?_ (State.readStored_kept_eq (by assumption))
  exact Kept.refl _

theorem State.readBytes_kept_eq {a0} {t : State} {s : State} {p : PanelId} {f : Nat}
    (heq : State.readBytes s p f = (a0, t)) :
    Kept s t := by
  have := State.readBytes_kept s p f
  rw [heq] at this
  exact this

theorem execVreq_kept (p : PanelId) (u : List Upset) (s : State) : KeptBy s (execVreq p u s) := by
  unfold execVreq
  refine vectorStep_kept _ _ _ _ fun _ _ _ _ _ _ s => ?_
  split
  split
  dsimp only
  refine Kept.trans ?_ (State.readSource_kept_eq (by assumption))
  refine Kept.trans ?_ (State.readBytes_kept_eq (by assumption))
  exact Kept.refl _

theorem execVlut_kept (p : PanelId) (u : List Upset) (s : State) : KeptBy s (execVlut p u s) := by
  unfold execVlut
  refine vectorStep_kept _ _ _ _ fun _ _ _ _ _ _ s => ?_
  split
  split
  dsimp only
  refine Kept.trans ?_ (State.readSource_kept_eq (by assumption))
  refine Kept.trans ?_ (State.readSource_kept_eq (by assumption))
  exact Kept.refl _

theorem float1_kept (op : Nat) (f : F32 → F32) (p : PanelId) (u : List Upset) (s : State) :
    KeptBy s (float1 op f p u s) := by
  unfold float1
  refine vectorStep_kept _ _ _ _ fun _ _ _ _ _ _ s => ?_
  split
  dsimp only
  refine Kept.trans ?_ (State.readSource_kept_eq (by assumption))
  exact Kept.refl _

theorem execVexp2_kept (p : PanelId) (u : List Upset) (s : State) : KeptBy s (execVexp2 p u s) := by
  unfold execVexp2
  exact float1_kept ..

theorem execVlog2_kept (p : PanelId) (u : List Upset) (s : State) : KeptBy s (execVlog2 p u s) := by
  unfold execVlog2
  exact float1_kept ..

theorem execVrcp_kept (p : PanelId) (u : List Upset) (s : State) : KeptBy s (execVrcp p u s) := by
  unfold execVrcp
  exact float1_kept ..

theorem execVsqrt_kept (p : PanelId) (u : List Upset) (s : State) : KeptBy s (execVsqrt p u s) := by
  unfold execVsqrt
  exact float1_kept ..

theorem execVrsqrt_kept (p : PanelId) (u : List Upset) (s : State) : KeptBy s (execVrsqrt p u s) := by
  unfold execVrsqrt
  exact float1_kept ..

theorem execVdiv_kept (p : PanelId) (u : List Upset) (s : State) : KeptBy s (execVdiv p u s) := by
  unfold execVdiv
  refine vectorStep_kept _ _ _ _ fun _ _ _ _ _ _ s => ?_
  split
  split
  dsimp only
  refine Kept.trans ?_ (State.readSource_kept_eq (by assumption))
  refine Kept.trans ?_ (State.readSource_kept_eq (by assumption))
  exact Kept.refl _

theorem execVexp_kept (p : PanelId) (u : List Upset) (s : State) : KeptBy s (execVexp p u s) := by
  unfold execVexp
  exact float1_kept ..

theorem execVsig_kept (p : PanelId) (u : List Upset) (s : State) : KeptBy s (execVsig p u s) := by
  unfold execVsig
  exact float1_kept ..

theorem execVtanh_kept (p : PanelId) (u : List Upset) (s : State) : KeptBy s (execVtanh p u s) := by
  unfold execVtanh
  exact float1_kept ..

theorem execVgelu_kept (p : PanelId) (u : List Upset) (s : State) : KeptBy s (execVgelu p u s) := by
  unfold execVgelu
  exact float1_kept ..

theorem execVsilu_kept (p : PanelId) (u : List Upset) (s : State) : KeptBy s (execVsilu p u s) := by
  unfold execVsilu
  exact float1_kept ..

theorem execVrelu_kept (p : PanelId) (u : List Upset) (s : State) : KeptBy s (execVrelu p u s) := by
  unfold execVrelu
  exact float1_kept ..

theorem execVleaky_kept (p : PanelId) (u : List Upset) (s : State) : KeptBy s (execVleaky p u s) := by
  unfold execVleaky
  refine vectorStep_kept _ _ _ _ fun _ _ _ _ _ _ s => ?_
  split
  dsimp only
  refine Kept.trans ?_ (State.readSource_kept_eq (by assumption))
  exact Kept.refl _

theorem execVsumr_kept (p : PanelId) (u : List Upset) (s : State) : KeptBy s (execVsumr p u s) := by
  unfold execVsumr
  refine vectorStep_kept _ _ _ _ fun _ _ _ _ _ _ s => ?_
  split
  dsimp only
  refine Kept.trans ?_ (State.readSource_kept_eq (by assumption))
  exact Kept.refl _

theorem execVmaxr_kept (p : PanelId) (u : List Upset) (s : State) : KeptBy s (execVmaxr p u s) := by
  unfold execVmaxr
  refine vectorStep_kept _ _ _ _ fun _ _ _ _ _ _ s => ?_
  split
  dsimp only
  refine Kept.trans ?_ (State.readSource_kept_eq (by assumption))
  exact Kept.refl _

theorem execVsmax_kept (p : PanelId) (u : List Upset) (s : State) : KeptBy s (execVsmax p u s) := by
  unfold execVsmax
  refine vectorStep_kept _ _ _ _ fun _ _ _ _ _ _ s => ?_
  split
  dsimp only
  refine Kept.trans ?_ (State.readSource_kept_eq (by assumption))
  exact Kept.refl _

theorem execVnorm_kept (p : PanelId) (u : List Upset) (s : State) : KeptBy s (execVnorm p u s) := by
  unfold execVnorm
  refine vectorStep_kept _ _ _ _ fun _ _ _ _ _ _ s => ?_
  split
  split
  dsimp only
  refine Kept.trans ?_ (State.readSource_kept_eq (by assumption))
  refine Kept.trans ?_ (State.readSource_kept_eq (by assumption))
  exact Kept.refl _


end Sys2Proof.Machine
end

