-- ==== Sys2Proof/Laws/Counted.lean ====
section
/-! SUPPORT. What an encoder edge keeps: all that Laws/Kept.lean lists but the position counters. -/

namespace Sys2Proof.Machine

set_option Elab.async false

/-- As `Kept`, the counters aside. -/
def Counted (s t : State) : Prop := ({ s.held with counts := t.web.counts } : Held).Kept t.held

theorem Kept.counted {s t : State} (h : Kept s t) : Counted s t := { h with counts := rfl }

theorem Counted.trans {s t u : State} (h : Counted s t) (k : Counted t u) : Counted s u :=
  ⟨k.pending.trans h.pending, k.clock.trans h.clock, k.wall.trans h.wall, k.fuses.trans h.fuses, k.levels.trans h.levels,
    k.pat.trans h.pat, rfl, fun x => k.fault (h.fault x), fun x => k.trip (h.trip x),
    fun x => k.inhibited (h.inhibited x), fun x => k.flash (h.flash x), fun x => k.hbm (h.hbm x),
    fun x => k.commons (h.commons x), fun x => k.panels (h.panels x)⟩

theorem Counted.ite {c : Prop} [Decidable c] {s a b : State} (h : Counted s a) (k : Counted s b) :
    Counted s (if c then a else b) := by
  split
  · exact h
  · exact k

/-- A change of the web alone. -/
theorem Counted.web (s : State) (w : Web) : Counted s { s with web := w } :=
  ⟨rfl, rfl, rfl, rfl, rfl, rfl, rfl, id, id, id, id, id, id, id⟩

theorem State.legalEdge_counted (s : State) (d : DecId) (forward : Bool) : Counted s (State.legalEdge s d forward) := by
  unfold State.legalEdge
  dsimp only
  refine Counted.ite ?_ (Counted.ite ?_ ?_)
  · exact ⟨rfl, rfl, rfl, rfl, rfl, rfl, rfl, id, id, id, id, id, id, id⟩
  · refine Counted.trans ?_ (State.countEvent_kept ..).counted
    exact ⟨rfl, rfl, rfl, rfl, rfl, rfl, rfl, id, id, id, id, id, id, id⟩
  · exact Counted.web s _

theorem execEncoderEdge_counted {d : DecId} {a b : PinLevel} {s t : State}
    (h : execEncoderEdge d a b s = .next t) :
    Counted s t := by
  unfold execEncoderEdge at h
  dsimp only at h
  split at h
  · cases h
    exact (Kept.refl s).counted
  split at h
  · cases h
    exact Counted.web s _
  · split at h <;> cases h
    · exact Counted.web s _
    · exact ((Counted.web s _).trans (State.legalEdge_counted ..)).trans (State.settle_kept ..).counted
    · exact (Counted.web s _).trans ((State.illegalEdge_kept ..).trans (State.settle_kept ..)).counted

end Sys2Proof.Machine
end

