-- ==== Sys2Proof/Laws/KeptAdmission.lean ====
section
/-! SUPPORT. The seams, the bolt, resets and admission:
what each operation and command keeps, as Laws/Kept.lean lists it. -/

namespace Sys2Proof.Machine

set_option Elab.async false

/-! ### Machine/Ready.lean -/

theorem State.admittedRecord_kept (s : State) : Kept s (State.admittedRecord s) := by
  unfold State.admittedRecord
  dsimp only
  refine Kept.trans ?_ (State.status_kept ..)
  exact Kept.refl _

theorem State.startWeb_kept (s : State) : Kept s (State.startWeb s) := by
  unfold State.startWeb
  dsimp only
  refine Kept.trans ?_ (Kept.mk rfl (upd_counts _ fun _ => rfl) (fun h => h) (fun h => h) (fun h => h) (fun h => h) (fun h => h) (fun h => h) (fun h => h))
  exact Kept.refl _

theorem State.startVotes_kept (s : State) : Kept s (State.startVotes s) := by
  unfold State.startVotes
  dsimp only
  refine Kept.trans ?_ (Kept.foldl (fun s x => ?_) _ _)
  · split
    · refine Kept.trans ?_ (State.startControl_kept ..)
      refine Kept.trans ?_ Kept.rest
      refine Kept.trans ?_ (State.addVotes_kept ..)
      refine Kept.trans ?_ Kept.rest
      exact Kept.refl _
    · refine Kept.trans ?_ Kept.rest
      refine Kept.trans ?_ (State.addVotes_kept ..)
      refine Kept.trans ?_ Kept.rest
      exact Kept.refl _
  · refine Kept.trans ?_ (State.startHysteresis_kept ..)
    exact Kept.refl _

theorem State.startLevel_kept (s : State) : Kept s (State.startLevel s) := by
  unfold State.startLevel
  dsimp only
  refine Kept.trans ?_ Kept.rest
  exact Kept.refl _

theorem State.startCounting_kept (s : State) : Kept s (State.startCounting s) := by
  unfold State.startCounting
  exact Kept.rest

theorem State.raiseReady_kept (s : State) : Kept s (State.raiseReady s) := by
  unfold State.raiseReady
  refine Kept.trans ?_ (Kept.foldl (fun _ _ => State.startSpan_kept ..) _ _)
  refine Kept.trans ?_ (State.startVotes_kept ..)
  refine Kept.trans ?_ (State.admittedRecord_kept ..)
  refine Kept.trans ?_ (State.startLevel_kept ..)
  refine Kept.trans ?_ (State.bump_kept ..)
  refine Kept.trans ?_ (State.bump_kept ..)
  refine Kept.trans ?_ (State.startCounting_kept ..)
  refine Kept.trans ?_ (State.startWeb_kept ..)
  exact Kept.rest

/-! ### Machine/Seam.lean -/

theorem State.sendHello_kept (s : State) (q : SeamId) : Kept s (State.sendHello s q) := by
  unfold State.sendHello
  dsimp only
  refine Kept.trans ?_ (State.updLink_kept ..)
  refine Kept.trans ?_ (State.queueOn_kept ..)
  exact Kept.refl _

theorem State.helloAll_kept (s : State) : Kept s (State.helloAll s) := by
  unfold State.helloAll
  refine Kept.trans ?_ (Kept.foldl (fun s x => ?_) _ _)
  · exact Kept.refl _
  · split
    · refine Kept.trans ?_ (State.sendHello_kept ..)
      exact Kept.refl _
    · exact Kept.refl _

theorem State.failLink_kept (s : State) (q : SeamId) (cause : Nat) : Kept s (State.failLink s q cause) := by
  unfold State.failLink
  dsimp only
  split
  · refine Kept.trans ?_ (State.boltRecord_kept ..)
    refine Kept.trans ?_ (State.updLink_kept ..)
    refine Kept.trans ?_ (State.updSeam_kept ..)
    refine Kept.trans ?_ Kept.rest
    refine Kept.trans ?_ (State.detect_kept ..)
    exact Kept.refl _
  · refine Kept.trans ?_ (State.updLink_kept ..)
    refine Kept.trans ?_ (State.updSeam_kept ..)
    refine Kept.trans ?_ Kept.rest
    refine Kept.trans ?_ (State.detect_kept ..)
    exact Kept.refl _

theorem State.trainWhileUp_kept (s : State) (q : SeamId) : Kept s (State.trainWhileUp s q) := by
  unfold State.trainWhileUp
  refine Kept.trans ?_ (State.settle_kept ..)
  refine Kept.trans ?_ (State.failLink_kept ..)
  exact Kept.refl _

theorem execLinkSignalDetect_kept (q : SeamId) (s : State) : KeptBy s (execLinkSignalDetect q s) := by
  unfold execLinkSignalDetect
  dsimp only
  split
  · refine KeptBy.when ?_
    refine Kept.trans ?_ (State.updSeam_kept ..)
    exact Kept.refl _
  · refine KeptBy.next ?_
    refine Kept.trans ?_ (State.settle_kept ..)
    refine Kept.trans ?_ (State.raiseWake_kept ..)
    exact Kept.refl _
  · refine KeptBy.next ?_
    refine Kept.trans ?_ (State.settle_kept ..)
    refine Kept.trans ?_ (State.raiseWake_kept ..)
    exact Kept.refl _
  · refine KeptBy.next ?_
    exact Kept.refl _

theorem execLaneLock_kept (q : SeamId) (inverted : BitVec 4) (s : State) : KeptBy s (execLaneLock q inverted s) := by
  unfold execLaneLock
  split
  · refine KeptBy.next ?_
    refine Kept.trans ?_ (State.updSeam_kept ..)
    exact Kept.refl _
  · refine KeptBy.next ?_
    refine Kept.trans ?_ (State.trainWhileUp_kept ..)
    exact Kept.refl _
  · refine KeptBy.next ?_
    exact Kept.refl _

theorem execLaneIdentify_kept (q : SeamId) (lanes : List Nat) (partner : Fin 4) (s : State) :
    KeptBy s (execLaneIdentify q lanes partner s) := by
  unfold execLaneIdentify
  split
  · split
    · split
      · refine KeptBy.next ?_
        refine Kept.trans ?_ (State.updSeam_kept ..)
        exact Kept.refl _
      · refine KeptBy.next ?_
        refine Kept.trans ?_ (State.settle_kept ..)
        refine Kept.trans ?_ (State.failLink_kept ..)
        exact Kept.refl _
    · refine KeptBy.next ?_
      refine Kept.trans ?_ (State.settle_kept ..)
      refine Kept.trans ?_ (State.failLink_kept ..)
      exact Kept.refl _
  · refine KeptBy.next ?_
    refine Kept.trans ?_ (State.trainWhileUp_kept ..)
    exact Kept.refl _
  · refine KeptBy.next ?_
    exact Kept.refl _

theorem execLaneDeskew_kept (q : SeamId) (skewPs : Nat) (s : State) : KeptBy s (execLaneDeskew q skewPs s) := by
  unfold execLaneDeskew
  split
  · refine KeptBy.when ?_
    refine Kept.trans ?_ (State.updSeam_kept ..)
    exact Kept.refl _
  · refine KeptBy.next ?_
    refine Kept.trans ?_ (State.trainWhileUp_kept ..)
    exact Kept.refl _
  · refine KeptBy.next ?_
    exact Kept.refl _

theorem execRoundTripMeasure_kept (q : SeamId) (trips : List Nat) (s : State) :
    KeptBy s (execRoundTripMeasure q trips s) := by
  unfold execRoundTripMeasure
  split
  · split
    · refine KeptBy.next ?_
      exact Kept.refl _
    · dsimp only
      split
      · refine KeptBy.next ?_
        refine Kept.trans ?_ (State.settle_kept ..)
        refine Kept.trans ?_ (State.failLink_kept ..)
        exact Kept.refl _
      · refine KeptBy.next ?_
        refine Kept.trans ?_ (State.updSeam_kept ..)
        exact Kept.refl _
  · refine KeptBy.next ?_
    refine Kept.trans ?_ (State.trainWhileUp_kept ..)
    exact Kept.refl _
  · refine KeptBy.next ?_
    exact Kept.refl _

theorem State.releaseHolds_kept (s : State) (q : SeamId) : Kept s (State.releaseHolds s q) := by
  unfold State.releaseHolds
  exact Kept.rest

theorem execLinkUp_kept (q : SeamId) (s : State) : KeptBy s (execLinkUp q s) := by
  unfold execLinkUp
  split
  · refine KeptBy.next ?_
    refine Kept.trans ?_ (State.sendHello_kept ..)
    refine Kept.trans ?_ (State.updSeam_kept ..)
    exact State.releaseHolds_kept ..
  · exact KeptBy.next (Kept.refl _)

theorem execTrainingTimeout_kept (q : SeamId) (s : State) : KeptBy s (execTrainingTimeout q s) := by
  unfold execTrainingTimeout
  refine KeptBy.when ?_
  refine Kept.trans ?_ (State.settle_kept ..)
  refine Kept.trans ?_ (State.failLink_kept ..)
  exact Kept.refl _

theorem State.abortSleep_kept (s : State) (q : SeamId) : Kept s (State.abortSleep s q) := by
  unfold State.abortSleep
  refine Kept.trans ?_ (State.updDom_kept ..)
  refine Kept.trans ?_ (State.updSeam_kept ..)
  exact Kept.refl _

theorem State.freeSlots_kept (s : State) (q : SeamId) : Kept s (State.freeSlots s q) := by
  unfold State.freeSlots
  exact State.updSeam_kept ..

theorem execFlitSlot_kept (q : SeamId) (s : State) : KeptBy s (execFlitSlot q s) := by
  unfold execFlitSlot
  split
  · refine KeptBy.next ?_
    have h : Kept s ((s.freeSlots q).updSeam q fun p => (p.slot s.clock).noteStalls s.clock) :=
      (State.freeSlots_kept ..).trans (State.updSeam_kept ..)
    exact Kept.ite (h.trans (State.abortSleep_kept ..)) h
  · exact KeptBy.next (Kept.refl _)

theorem State.goBack_kept (s : State) (q : SeamId) : Kept s (State.goBack s q) := by
  unfold State.goBack
  dsimp only
  split
  · exact Kept.refl _
  · split
    · split
      · split
        · refine Kept.trans ?_ (State.failLink_kept ..)
          exact Kept.refl _
        · refine Kept.trans ?_ (State.updSeam_kept ..)
          exact Kept.refl _
      · split
        · refine Kept.trans ?_ (State.failLink_kept ..)
          exact Kept.refl _
        · refine Kept.trans ?_ (State.updSeam_kept ..)
          exact Kept.refl _
    · split
      · refine Kept.trans ?_ (State.failLink_kept ..)
        exact Kept.refl _
      · refine Kept.trans ?_ (State.updSeam_kept ..)
        exact Kept.refl _

theorem State.applyFields_kept (s : State) (q : SeamId) (f : Flit) : Kept s (State.applyFields s q f) := by
  unfold State.applyFields
  dsimp only
  split
  · split
    · refine Kept.trans ?_ (State.goBack_kept ..)
      refine Kept.trans ?_ (State.updSeam_kept ..)
      exact Kept.refl _
    · refine Kept.trans ?_ (State.updSeam_kept ..)
      exact Kept.refl _
  · split
    · refine Kept.trans ?_ (State.goBack_kept ..)
      refine Kept.trans ?_ (State.updSeam_kept ..)
      exact Kept.refl _
    · refine Kept.trans ?_ (State.updSeam_kept ..)
      exact Kept.refl _

theorem State.forward_kept (s : State) (m : Message) (p q : SeamId) : Kept s (State.forward s m p q) := by
  unfold State.forward
  split
  · refine Kept.trans ?_ (State.updSeam_kept ..)
    split
    · exact State.queueEvent_kept ..
    · exact State.queueOn_kept ..
  · exact State.countUnroutable_kept ..

theorem State.deliver_kept (s : State) (q : SeamId) (m : Message) : Kept s (State.deliver s q m) := by
  unfold State.deliver
  dsimp only
  split
  · exact Kept.refl _
  · split
    · refine Kept.trans ?_ (State.updSeam_kept ..)
      exact Kept.refl _
    · split
      · split
        · refine Kept.trans ?_ (State.updSeam_kept ..)
          exact Kept.refl _
        · split
          · refine Kept.trans ?_ (Kept.foldl (fun s x => ?_) _ _)
            · refine Kept.trans ?_ (State.updSeam_kept ..)
              exact Kept.refl _
            · split
              · refine Kept.trans ?_ (State.queueOn_kept ..)
                exact Kept.refl _
              · exact Kept.refl _
          · refine Kept.trans ?_ (State.updSeam_kept ..)
            exact Kept.refl _
      · split
        · refine Kept.trans ?_ (State.updSeam_kept ..)
          exact Kept.refl _
        · refine Kept.trans ?_ (State.forward_kept ..)
          exact Kept.refl _

theorem State.assemble_kept (s : State) (q : SeamId) (f : Flit) : Kept s (State.assemble s q f) := by
  unfold State.assemble
  dsimp only
  split
  · refine Kept.trans ?_ (State.updSeam_kept ..)
    refine Kept.trans ?_ (State.updSeam_kept ..)
    refine Kept.trans ?_ (State.updSeam_kept ..)
    exact Kept.refl _
  · split
    · refine Kept.trans ?_ (State.deliver_kept ..)
      refine Kept.trans ?_ (State.updSeam_kept ..)
      refine Kept.trans ?_ (State.updSeam_kept ..)
      exact Kept.refl _
    · refine Kept.trans ?_ (State.updSeam_kept ..)
      refine Kept.trans ?_ (State.updSeam_kept ..)
      exact Kept.refl _

theorem State.sequence_kept (s : State) (q : SeamId) (f : Flit) : Kept s (State.sequence s q f).2 := by
  unfold State.sequence
  split
  · dsimp only
    refine Kept.trans ?_ (State.updSeam_kept ..)
    exact Kept.refl _
  · dsimp only
    refine Kept.trans ?_ (State.updSeam_kept ..)
    exact Kept.refl _

theorem State.sequence_kept_eq {a0} {t : State} {s : State} {q : SeamId} {f : Flit}
    (heq : State.sequence s q f = (a0, t)) :
    Kept s t := by
  have := State.sequence_kept s q f
  rw [heq] at this
  exact this

theorem execDataFlit_kept (q : SeamId) (f : Flit) (s : State) : KeptBy s (execDataFlit q f s) := by
  unfold execDataFlit
  split
  · split
    · refine KeptBy.next ?_
      refine Kept.trans ?_ (State.trainWhileUp_kept ..)
      exact Kept.refl _
    · split
      · refine KeptBy.next ?_
        refine Kept.trans ?_ (State.updSeam_kept ..)
        exact Kept.refl _
      · split
        · refine KeptBy.next ?_
          exact Kept.refl _
        · split
          refine KeptBy.next ?_
          refine Kept.trans ?_ (State.settle_kept ..)
          split
          · refine Kept.trans ?_ (State.assemble_kept ..)
            refine Kept.trans ?_ (State.sequence_kept_eq (by assumption))
            refine Kept.trans ?_ (State.applyFields_kept ..)
            exact Kept.refl _
          · refine Kept.trans ?_ (State.sequence_kept_eq (by assumption))
            refine Kept.trans ?_ (State.applyFields_kept ..)
            exact Kept.refl _
  · refine KeptBy.next ?_
    exact Kept.refl _

theorem execNullFlit_kept (q : SeamId) (f : Flit) (s : State) : KeptBy s (execNullFlit q f s) := by
  unfold execNullFlit
  split
  · refine KeptBy.when ?_
    refine Kept.trans ?_ (State.settle_kept ..)
    refine Kept.trans ?_ (State.applyFields_kept ..)
    exact Kept.refl _
  · refine KeptBy.next ?_
    exact Kept.refl _

theorem execRetryTimeout_kept (q : SeamId) (s : State) : KeptBy s (execRetryTimeout q s) := by
  unfold execRetryTimeout
  refine KeptBy.when ?_
  refine Kept.trans ?_ (State.settle_kept ..)
  exact State.goBack_kept ..

theorem execRetryBudgetExpiry_kept (q : SeamId) (s : State) : KeptBy s (execRetryBudgetExpiry q s) := by
  unfold execRetryBudgetExpiry
  dsimp only
  refine KeptBy.when ?_
  refine Kept.trans ?_ (State.settle_kept ..)
  refine Kept.trans ?_ (State.failLink_kept ..)
  exact Kept.refl _

theorem State.takeControl_kept (s : State) (q : SeamId) (f : Flit) (code : Nat) :
    KeptOpt s (State.takeControl s q f code) := by
  unfold State.takeControl
  split
  · exact KeptOpt.none _
  · split
    · exact KeptOpt.some (State.updSeam_kept ..)
    · split
      · exact KeptOpt.some ((State.applyFields_kept ..).trans (State.sequence_kept ..))
      · exact KeptOpt.none _

theorem State.answerSleep_kept (s : State) (q : SeamId) (target : Nat) : Kept s (State.answerSleep s q target) := by
  unfold State.answerSleep
  refine Kept.ite (State.abortSleep_kept ..) ?_
  split
  · refine Kept.trans ?_ (State.updSeam_kept ..)
    exact Kept.refl _
  · split
    · refine Kept.trans ?_ (State.abortSleep_kept ..)
      exact Kept.refl _
    · dsimp only
      refine Kept.trans ?_ (State.updDom_kept ..)
      refine Kept.trans ?_ (State.updSeam_kept ..)
      exact Kept.refl _

theorem controlStep_kept {g : State → State} (s : State) (q : SeamId) (f : Flit) (code : Nat) (h : ∀ s, Kept s (g s)) :
    KeptBy s (controlStep s q f code g) := by
  unfold controlStep
  split
  · refine KeptBy.next ?_
    refine Kept.trans ?_ (State.settle_kept ..)
    split
    · refine Kept.trans ?_ (h _)
      exact (State.takeControl_kept ..).of_some (by assumption)
    · exact (State.takeControl_kept ..).of_some (by assumption)
  · exact KeptBy.next (Kept.refl _)

theorem execSleep_kept (q : SeamId) (f : Flit) (s : State) : KeptBy s (execSleep q f s) := by
  unfold execSleep
  refine controlStep_kept _ _ _ _ fun s => ?_
  refine Kept.trans ?_ (State.answerSleep_kept ..)
  exact Kept.refl _

theorem execSleepAck_kept (q : SeamId) (f : Flit) (s : State) : KeptBy s (execSleepAck q f s) := by
  unfold execSleepAck
  refine controlStep_kept _ _ _ _ fun s => ?_
  split
  · split
    · refine Kept.trans ?_ (State.abortSleep_kept ..)
      exact Kept.refl _
    · dsimp only
      refine Kept.trans ?_ (State.updDom_kept ..)
      refine Kept.trans ?_ (State.updSeam_kept ..)
      exact Kept.refl _
  · exact Kept.refl _

theorem execStay_kept (q : SeamId) (f : Flit) (s : State) : KeptBy s (execStay q f s) := by
  unfold execStay
  refine controlStep_kept _ _ _ _ fun s => ?_
  refine Kept.trans ?_ (State.updDom_kept ..)
  refine Kept.trans ?_ (State.updSeam_kept ..)
  exact Kept.refl _

theorem execWake_kept (q : SeamId) (f : Flit) (s : State) : KeptBy s (execWake q f s) := by
  unfold execWake
  refine controlStep_kept _ _ _ _ fun s => ?_
  refine Kept.trans ?_ (State.updDom_kept ..)
  refine Kept.trans ?_ (State.updSeam_kept ..)
  exact Kept.refl _

theorem execElectricalIdleEntry_kept (q : SeamId) (s : State) : KeptBy s (execElectricalIdleEntry q s) := by
  unfold execElectricalIdleEntry
  dsimp only
  split
  · split
    · refine KeptBy.next ?_
      exact Kept.refl _
    · split
      · refine KeptBy.next ?_
        refine Kept.trans ?_ (State.abortSleep_kept ..)
        exact Kept.refl _
      · refine KeptBy.next ?_
        refine Kept.trans ?_ (State.settle_kept ..)
        refine Kept.trans ?_ (State.updDom_kept ..)
        refine Kept.trans ?_ (State.updLink_kept ..)
        refine Kept.trans ?_ (State.updSeam_kept ..)
        exact Kept.refl _
  · refine KeptBy.next ?_
    exact Kept.refl _

theorem failWhileUp_kept (q : SeamId) (cause : Nat) (s : State) : KeptBy s (failWhileUp q cause s) := by
  unfold failWhileUp
  refine KeptBy.when ?_
  refine Kept.trans ?_ (State.settle_kept ..)
  refine Kept.trans ?_ (State.failLink_kept ..)
  exact Kept.refl _

theorem execLaneLockLost_kept (q : SeamId) (s : State) : KeptBy s (execLaneLockLost q s) := by
  unfold execLaneLockLost
  exact failWhileUp_kept ..

theorem execSignalLost_kept (q : SeamId) (s : State) : KeptBy s (execSignalLost q s) := by
  unfold execSignalLost
  exact failWhileUp_kept ..

theorem execCreditStall_kept (q : SeamId) (vc : Fin 4) (s : State) : KeptBy s (execCreditStall q vc s) := by
  unfold execCreditStall
  dsimp only
  refine KeptBy.when ?_
  refine Kept.trans ?_ (State.settle_kept ..)
  refine Kept.trans ?_ (State.failLink_kept ..)
  exact Kept.refl _

theorem execFailureIdleEnd_kept (q : SeamId) (s : State) : KeptBy s (execFailureIdleEnd q s) := by
  unfold execFailureIdleEnd
  refine KeptBy.when ?_
  refine Kept.trans ?_ (State.updSeam_kept ..)
  exact Kept.refl _

theorem execSeamclkLoss_kept (s : State) : KeptBy s (execSeamclkLoss s) := by
  unfold execSeamclkLoss
  refine KeptBy.when ?_
  dsimp only
  refine Kept.trans ?_ (State.settle_kept ..)
  refine Kept.trans ?_ (Kept.foldl (fun s x => ?_) _ _)
  · refine Kept.trans ?_ Kept.rest
    exact Kept.refl _
  · split
    · refine Kept.trans ?_ (State.failLink_kept ..)
      exact Kept.refl _
    · exact Kept.refl _

theorem execSeamclkReturn_kept (s : State) : KeptBy s (execSeamclkReturn s) := by
  unfold execSeamclkReturn
  refine KeptBy.when ?_
  dsimp only
  refine Kept.trans ?_ (Kept.foldl (fun s x => ?_) _ _)
  · refine Kept.trans ?_ Kept.rest
    exact Kept.refl _
  · split
    · refine Kept.trans ?_ (State.updSeam_kept ..)
      exact Kept.refl _
    · exact Kept.refl _

/-! ### Machine/Bolt.lean -/

theorem State.leaveBolt_kept (s : State) (reason addr detail : Nat) :
    Kept s (State.leaveBolt s reason addr detail) := by
  unfold State.leaveBolt
  dsimp only
  refine Kept.trans ?_ (State.helloAll_kept ..)
  refine Kept.trans ?_ (State.boltRecord_kept ..)
  refine Kept.trans ?_ Kept.rest
  exact Kept.refl _

theorem State.excludeLink_kept (s : State) (q : SeamId) (reason : Nat) (p : List Byte) :
    Kept s (State.excludeLink s q reason p) := by
  unfold State.excludeLink
  dsimp only
  split
  · refine Kept.trans ?_ (State.updLink_kept ..)
    exact Kept.refl _
  · refine Kept.trans ?_ (State.boltRecord_kept ..)
    refine Kept.trans ?_ (State.updLink_kept ..)
    exact Kept.refl _

theorem State.resendEvents_kept (s : State) (q : SeamId) : Kept s (State.resendEvents s q) := by
  unfold State.resendEvents
  dsimp only
  refine Kept.trans ?_ Kept.rest
  refine Kept.trans ?_ (State.updSeam_kept ..)
  refine Kept.trans ?_ (Kept.foldl (fun s x => ?_) _ _)
  · exact Kept.refl _
  · refine Kept.trans ?_ (State.queueOn_kept ..)
    exact Kept.refl _

theorem State.requestCalibration_kept (s : State) :
    Kept s (State.requestCalibration s) := by
  unfold State.requestCalibration
  try dsimp only
  repeat' first
    | with_reducible exact Kept.refl _
    | with_reducible refine Kept.ite ?_ ?_
    | with_reducible apply Kept.after (State.sendTo_kept ..)
    | dsimp only
    | split
    | refine Kept.trans ?_ Kept.rest

theorem State.recover_kept (s : State) (q : SeamId) :
    Kept s (State.recover s q) := by
  unfold State.recover
  try dsimp only
  repeat' first
    | with_reducible exact Kept.refl _
    | with_reducible refine Kept.ite ?_ ?_
    | with_reducible apply Kept.after (State.sendReplays_kept ..)
    | with_reducible apply Kept.after (State.resendEvents_kept ..)
    | with_reducible apply Kept.after (State.requestLatency_kept ..)
    | with_reducible apply Kept.after (State.requestCalibration_kept ..)
    | dsimp only
    | split

theorem State.linkReturns_kept (s : State) (q : SeamId) :
    Kept s (State.linkReturns s q) := by
  unfold State.linkReturns
  try dsimp only
  repeat' first
    | with_reducible exact Kept.refl _
    | with_reducible refine Kept.ite ?_ ?_
    | with_reducible apply Kept.after (State.updSeam_kept ..)
    | with_reducible apply Kept.after (State.updLink_kept ..)
    | with_reducible apply Kept.after (State.recover_kept ..)
    | with_reducible apply Kept.after (State.boltRecord_kept ..)
    | with_reducible apply Kept.after (State.readHistory_kept ..)
    | dsimp only
    | split

theorem State.anchorLink_kept (s : State) (q : SeamId) (p : List Byte) : Kept s (State.anchorLink s q p) := by
  unfold State.anchorLink
  dsimp only
  split
  · split
    · exact Kept.refl _
    · refine Kept.trans ?_ (State.boltRecord_kept ..)
      refine Kept.trans ?_ (State.updLink_kept ..)
      exact Kept.refl _
  · exact Kept.refl _

theorem execHello_kept (q : SeamId) (s : State) :
    KeptBy s (execHello q s) := by
  unfold execHello
  try dsimp only
  repeat' first
    | with_reducible exact Kept.refl _
    | with_reducible refine Kept.ite ?_ ?_
    | with_reducible refine KeptBy.ite ?_ ?_
    | with_reducible refine KeptBy.next ?_
    | with_reducible refine KeptBy.when ?_
    | with_reducible apply Kept.after (State.updLink_kept ..)
    | with_reducible apply Kept.after (State.leaveBolt_kept ..)
    | with_reducible apply Kept.after (State.settle_kept ..)
    | with_reducible apply Kept.after (State.excludeLink_kept ..)
    | with_reducible apply Kept.after (State.linkReturns_kept ..)
    | with_reducible apply Kept.after (State.updSeam_kept ..)
    | with_reducible apply Kept.after (State.anchorLink_kept ..)
    | dsimp only
    | split
    | exact (State.takeMessage_kept ..).of_some (by assumption)

theorem execHelloPeriodic_kept (q : SeamId) (s : State) : KeptBy s (execHelloPeriodic q s) := by
  unfold execHelloPeriodic
  dsimp only
  refine KeptBy.when ?_
  refine Kept.trans ?_ (State.sendHello_kept ..)
  exact Kept.refl _

theorem execTickSend_kept (s : State) : KeptBy s (execTickSend s) := by
  unfold execTickSend
  refine KeptBy.when ?_
  dsimp only
  refine Kept.trans ?_ Kept.rest
  refine Kept.trans ?_ (State.broadcast_kept ..)
  exact Kept.refl _

theorem State.forwardTick_kept (s : State) (q : SeamId) (m : Message) : Kept s (State.forwardTick s q m) := by
  unfold State.forwardTick
  split
  · dsimp only
    refine Kept.trans ?_ (Kept.foldl (fun s x => ?_) _ _)
    · exact Kept.refl _
    · split
      · refine Kept.trans ?_ (State.queueOn_kept ..)
        exact Kept.refl _
      · exact Kept.refl _
  · exact Kept.refl _

theorem State.alignLocal_kept (s : State) (target : Pos) : Kept s (State.alignLocal s target) := by
  unfold State.alignLocal
  dsimp only
  split
  · split
    · refine Kept.trans ?_ (State.leaveBolt_kept ..)
      refine Kept.trans ?_ Kept.rest
      exact Kept.refl _
    · refine Kept.trans ?_ Kept.rest
      exact Kept.refl _
  · split
    · refine Kept.trans ?_ (State.leaveBolt_kept ..)
      refine Kept.trans ?_ Kept.rest
      exact Kept.refl _
    · refine Kept.trans ?_ Kept.rest
      exact Kept.refl _

theorem State.rebase_kept (s : State) (db : Pos) : Kept s (State.rebase s db) := by
  unfold State.rebase
  dsimp only
  refine Kept.trans ?_ (State.boltRecord_kept ..)
  refine Kept.trans ?_ Kept.rest
  exact Kept.refl _

theorem State.join_kept (s : State) : Kept s (State.join s) := by
  unfold State.join
  refine Kept.trans ?_ (State.helloAll_kept ..)
  refine Kept.trans ?_ (State.boltRecord_kept ..)
  refine Kept.trans ?_ (Kept.foldl (fun _ _ => Kept.ite (State.resendEvents_kept ..) (Kept.refl _)) _ _)
  refine Kept.ite (Kept.trans ?_ (State.raiseReady_kept ..)) (Kept.ite (Kept.trans ?_ (State.rebase_kept ..)) ?_)
  all_goals exact Kept.rest

theorem State.loadFollower_kept (s : State) (target : Pos) : Kept s (State.loadFollower s target) := by
  unfold State.loadFollower
  exact Kept.ite (Kept.trans (t := { s with bolt := _ }) Kept.rest Kept.rest) Kept.rest

theorem State.countTick_kept (s : State) (target : Pos) : Kept s (State.countTick s target) := by
  unfold State.countTick
  refine Kept.ite ?_ ?_
  · refine Kept.trans (Kept.trans ?_ (State.join_kept ..)) (Kept.foldl (fun _ _ => State.readHistory_kept ..) _ _)
    refine Kept.ite (Kept.ite (State.loadFollower_kept ..) Kept.rest)
      (Kept.ite Kept.rest (Kept.ite Kept.rest (Kept.ite (State.loadFollower_kept ..) Kept.rest)))
  · refine Kept.ite (Kept.ite (State.loadFollower_kept ..) Kept.rest)
      (Kept.ite Kept.rest (Kept.ite Kept.rest (Kept.ite (State.loadFollower_kept ..) Kept.rest)))

theorem execTick_kept (q : SeamId) (s : State) : KeptBy s (execTick q s) := by
  unfold execTick
  split
  · refine KeptBy.next ?_
    exact Kept.refl _
  · dsimp only
    split
    · refine KeptBy.next ?_
      refine Kept.trans ?_ (State.forwardTick_kept ..)
      refine Kept.trans ?_ ((State.takeMessage_kept ..).of_some (by assumption))
      exact Kept.refl _
    · split
      · refine KeptBy.next ?_
        refine Kept.trans ?_ (State.settle_kept ..)
        split
        · split
          · refine Kept.trans ?_ Kept.rest
            refine Kept.trans ?_ (State.forwardTick_kept ..)
            refine Kept.trans ?_ ((State.takeMessage_kept ..).of_some (by assumption))
            exact Kept.refl _
          · refine Kept.trans ?_ (State.alignLocal_kept ..)
            refine Kept.trans ?_ Kept.rest
            refine Kept.trans ?_ (State.forwardTick_kept ..)
            refine Kept.trans ?_ ((State.takeMessage_kept ..).of_some (by assumption))
            exact Kept.refl _
        · split
          · refine Kept.trans ?_ (State.countTick_kept ..)
            refine Kept.trans ?_ Kept.rest
            refine Kept.trans ?_ (State.forwardTick_kept ..)
            refine Kept.trans ?_ ((State.takeMessage_kept ..).of_some (by assumption))
            exact Kept.refl _
          · refine Kept.trans ?_ Kept.rest
            refine Kept.trans ?_ (State.forwardTick_kept ..)
            refine Kept.trans ?_ ((State.takeMessage_kept ..).of_some (by assumption))
            exact Kept.refl _
      · refine KeptBy.next ?_
        refine Kept.trans ?_ Kept.rest
        refine Kept.trans ?_ (State.forwardTick_kept ..)
        refine Kept.trans ?_ ((State.takeMessage_kept ..).of_some (by assumption))
        exact Kept.refl _

theorem execCorrectionStep_kept (s : State) : KeptBy s (execCorrectionStep s) := by
  unfold execCorrectionStep
  dsimp only
  split
  · split
    · refine KeptBy.next ?_
      refine Kept.trans ?_ (State.settle_kept ..)
      refine Kept.trans ?_ (State.countEvent_kept ..)
      refine Kept.trans ?_ (Kept.mk rfl (upd_counts _ fun _ => rfl) (fun h => h) (fun h => h) (fun h => h) (fun h => h) (fun h => h) (fun h => h) (fun h => h))
      exact Kept.refl _
    · split
      · refine KeptBy.next ?_
        refine Kept.trans ?_ Kept.rest
        exact Kept.refl _
      · refine KeptBy.next ?_
        exact Kept.refl _
  · refine KeptBy.next ?_
    exact Kept.refl _

theorem execFollowerMove_kept (s : State) : KeptBy s (execFollowerMove s) := by
  unfold execFollowerMove
  dsimp only
  refine KeptBy.when ?_
  refine Kept.trans ?_ (State.settle_kept ..)
  refine Kept.trans ?_ (State.countEvent_kept ..)
  refine Kept.trans ?_ Kept.rest
  exact Kept.refl _

theorem execTickLoss_kept (s : State) : KeptBy s (execTickLoss s) := by
  unfold execTickLoss
  refine KeptBy.when ?_
  dsimp only
  refine Kept.trans ?_ (State.settle_kept ..)
  split
  · refine Kept.trans ?_ (State.losePosition_kept ..)
    refine Kept.trans ?_ (State.leaveBolt_kept ..)
    exact Kept.refl _
  · refine Kept.trans ?_ (State.leaveBolt_kept ..)
    exact Kept.refl _

theorem execFormationTimeout_kept (s : State) : KeptBy s (execFormationTimeout s) := by
  unfold execFormationTimeout
  refine KeptBy.when ?_
  dsimp only
  refine Kept.trans ?_ (State.settle_kept ..)
  refine Kept.trans ?_ (State.helloAll_kept ..)
  refine Kept.trans ?_ (State.boltRecord_kept ..)
  refine Kept.trans ?_ (State.raiseReady_kept ..)
  refine Kept.trans ?_ Kept.rest
  exact Kept.refl _

/-! ### Machine/Image.lean -/

theorem State.loadTensor_kept (s : State) (slot : Nat) (e : WghtEntry) : Kept s (State.loadTensor s slot e) := by
  unfold State.loadTensor
  split
  · exact Kept.refl _
  · split
    · dsimp only
      refine Kept.trans ?_ (State.writeHbm_kept ..)
      exact Kept.refl _
    · refine Kept.trans ?_ (State.writeHbm_kept ..)
      exact Kept.refl _

theorem State.loadHbm_kept (s : State) (slot : Nat) : Kept s (State.loadHbm s slot) := by
  unfold State.loadHbm
  dsimp only
  split
  · refine Kept.trans ?_ (State.writeHbm_kept ..)
    split
    · refine Kept.trans ?_ (State.writeHbm_kept ..)
      refine Kept.trans ?_ (Kept.foldl (fun s x => ?_) _ _)
      · refine Kept.trans ?_ (Kept.mk rfl rfl (fun h => h) (fun h => h) (fun h => h) (fun h => h) (fun _ => rfl) (fun h => h) (fun h => h))
        exact Kept.refl _
      · refine Kept.trans ?_ (State.loadTensor_kept ..)
        exact Kept.refl _
    · refine Kept.trans ?_ (Kept.foldl (fun s x => ?_) _ _)
      · refine Kept.trans ?_ (Kept.mk rfl rfl (fun h => h) (fun h => h) (fun h => h) (fun h => h) (fun _ => rfl) (fun h => h) (fun h => h))
        exact Kept.refl _
      · refine Kept.trans ?_ (State.loadTensor_kept ..)
        exact Kept.refl _
  · split
    · refine Kept.trans ?_ (State.writeHbm_kept ..)
      refine Kept.trans ?_ (Kept.foldl (fun s x => ?_) _ _)
      · refine Kept.trans ?_ (Kept.mk rfl rfl (fun h => h) (fun h => h) (fun h => h) (fun h => h) (fun _ => rfl) (fun h => h) (fun h => h))
        exact Kept.refl _
      · refine Kept.trans ?_ (State.loadTensor_kept ..)
        exact Kept.refl _
    · refine Kept.trans ?_ (Kept.foldl (fun s x => ?_) _ _)
      · refine Kept.trans ?_ (Kept.mk rfl rfl (fun h => h) (fun h => h) (fun h => h) (fun h => h) (fun _ => rfl) (fun h => h) (fun h => h))
        exact Kept.refl _
      · refine Kept.trans ?_ (State.loadTensor_kept ..)
        exact Kept.refl _

theorem State.buildWeights_kept (s : State) (slot : Nat) : Kept s (State.buildWeights s slot) := by
  unfold State.buildWeights
  dsimp only
  refine Kept.trans ?_ (Kept.foldl (fun s x => ?_) _ _)
  · refine Kept.trans ?_ Kept.rest
    exact Kept.refl _
  · refine Kept.trans ?_ (State.loadTensor_kept ..)
    exact Kept.refl _

/-! ### Machine/Reset.lean -/

/-- The panels of a reset hold nothing. -/
theorem reset_panels_memWf (p : PanelId) : (Vector.replicate 16 ({} : Panel))[p].memWf = true := by
  simp [Panel.memWf, Memory.wf, Memory.wfFrom]

theorem FlashOp.apply_wf (o : FlashOp) {m : List Host.Cell} (h : Memory.wf 0xFF m = true) :
    Memory.wf 0xFF (o.apply m) = true := by
  unfold FlashOp.apply
  repeat' split
  all_goals first
    | exact h
    | exact Memory.writeN_wf _ _ h
    | exact Memory.clear_wf _ _ h

theorem State.applyOp_kept (s : State) (o : FlashOp) : Kept s (State.applyOp s o) :=
  Kept.mk rfl rfl (fun h => h) (fun h => h) (fun h => h) (fun h => o.apply_wf h) (fun h => h) (fun h => h) (fun h => h)

theorem State.mayApply_kept (s : State) (o : FlashOp) : Kept s (State.mayApply s o) := by
  unfold State.mayApply
  split
  split
  · refine Kept.trans ?_ (State.applyOp_kept ..)
    refine Kept.trans ?_ (State.takeFree_kept_eq (by assumption))
    exact Kept.refl _
  · refine Kept.trans ?_ (State.takeFree_kept_eq (by assumption))
    exact Kept.refl _

theorem State.cutOp_kept (s : State) : Kept s (State.cutOp s) := by
  unfold State.cutOp
  cases s.flash.late <;> dsimp only <;> split
  · split
    · exact State.mayApply_kept ..
    · exact Kept.refl _
  · exact Kept.refl _
  · split
    · exact (State.mayApply_kept ..).trans (State.mayApply_kept ..)
    · exact State.mayApply_kept ..
  · exact State.mayApply_kept ..

theorem State.cutBurn_based (s : State) : Based s (State.cutBurn s) := by
  unfold State.cutBurn
  split
  · exact Based.mk (fun h => h) (fun i h => by simp [h]) (fun h => h) (fun h => h) (fun h => h) (fun h => h)
  · exact Based.refl _

theorem State.breakOff_based (s : State) : Based s (State.breakOff s) :=
  (State.cutBurn_based s).trans (State.cutOp_kept _).based

theorem State.resetOutside_based (s : State) (cause detail : Nat) : Based s (State.resetOutside s cause detail) :=
  (State.breakOff_based s).trans
    ⟨rfl, rfl, fun h => h, fun _ h => h, fun h => h, fun _ => rfl, fun _ => rfl, fun _ => reset_panels_memWf⟩

theorem State.resetAll_based (s : State) : Based s (State.resetAll s) :=
  (State.breakOff_based s).trans
    ⟨rfl, rfl, fun h => h, fun _ h => h, fun h => h, fun _ => rfl, fun _ => rfl, fun _ => reset_panels_memWf⟩

theorem execPorstAssert_based (s : State) : BasedBy s (execPorstAssert s) := by
  unfold execPorstAssert
  refine BasedBy.next ?_
  refine Based.trans ?_ (State.resetAll_based ..)
  exact Based.refl _

theorem execVaonInPowerUp_based (s : State) : BasedBy s (execVaonInPowerUp s) := by
  unfold execVaonInPowerUp
  refine BasedBy.next ?_
  refine Based.trans ?_ (State.resetAll_based ..)
  refine Based.trans ?_ (Based.mk (fun h => h) (fun _ h => h) (fun h => h) (fun h => h) (fun h => h) (fun h => h))
  exact Based.refl _

theorem execBrownOut_based (s : State) : BasedBy s (execBrownOut s) := by
  unfold execBrownOut
  dsimp only
  refine BasedBy.next ?_
  refine Based.trans ?_ (State.resetAll_based ..)
  refine Based.trans ?_ (Based.mk (fun h => h) (fun _ h => h) (fun h => h) (fun h => h) (fun h => h) (fun h => h))
  exact Based.refl _

theorem execRstAssert_based (s : State) : BasedBy s (execRstAssert s) := by
  unfold execRstAssert
  dsimp only
  refine BasedBy.next ?_
  split
  · refine Based.trans ?_ (State.resetOutside_based ..)
    refine Based.trans ?_ (Based.mk (fun h => h) (fun _ h => h) (fun h => h) (fun h => h) (fun h => h) (fun h => h))
    exact Based.refl _
  · refine Based.trans ?_ (Based.mk (fun h => h) (fun _ h => h) (fun h => h) (fun h => h) (fun h => h) (fun h => h))
    exact Based.refl _

theorem State.supplyReset_based (s : State) (detail : Nat) : Based s (State.supplyReset s detail) := by
  unfold State.supplyReset
  refine Based.trans ?_ (State.resetOutside_based ..)
  exact Based.refl _

theorem State.holdSupply_kept (s : State) : Kept s (State.holdSupply s) := by
  unfold State.holdSupply
  exact Kept.rest

theorem execSupplyFault_based (supply : Fin 4) (s : State) : BasedBy s (execSupplyFault supply s) := by
  unfold execSupplyFault
  refine BasedBy.when ?_
  refine Based.ite ?_ (State.holdSupply_kept ..).based
  exact (State.holdSupply_kept ..).based.trans (State.supplyReset_based ..)

theorem execRefclkLoss_based (s : State) : BasedBy s (execRefclkLoss s) := by
  unfold execRefclkLoss
  refine BasedBy.when ?_
  refine Based.trans ?_ (State.supplyReset_based ..)
  exact Based.refl _

theorem execHbmPllLoss_based (s : State) : BasedBy s (execHbmPllLoss s) := by
  unfold execHbmPllLoss
  refine BasedBy.when ?_
  refine Based.trans ?_ (State.supplyReset_based ..)
  exact Based.refl _

theorem State.releaseTrip_based (s : State) (junction : Int) : Based s (State.releaseTrip s junction) := by
  unfold State.releaseTrip
  split
  · refine Based.trans ?_ (Based.mk (fun h => h) (fun _ h => h) (fun h => h) (fun h => h) (fun h => h) (fun h => h))
    exact Based.refl _
  · exact Based.refl _

theorem State.exitRecord_kept (s : State) : Kept s (State.exitRecord s) := by
  unfold State.exitRecord
  refine Kept.trans ?_ Kept.rest
  exact Kept.refl _

theorem State.stopAgain_kept (s : State) : Kept s (State.stopAgain s) := by
  unfold State.stopAgain
  dsimp only
  refine Kept.trans ?_ (State.settleClocks_kept ..)
  refine Kept.trans ?_ (State.addVote_kept ..)
  refine Kept.trans ?_ (Kept.mk rfl rfl (fun _ => rfl) (fun h => h) (fun _ => rfl) (fun h => h) (fun h => h) (fun h => h) (fun h => h))
  exact Kept.refl _

theorem State.startAdmission_kept (s : State) : Kept s (State.startAdmission s) := by
  unfold State.startAdmission
  refine Kept.trans ?_ Kept.rest
  exact Kept.refl _

theorem execResetExit_based (testN : Bool) (junction : Int) (s : State) :
    BasedBy s (execResetExit testN junction s) := by
  unfold execResetExit
  refine BasedBy.when ?_
  dsimp only
  split
  · refine Based.trans ?_ (State.stopAgain_kept ..).based
    refine Based.trans ?_ (State.exitRecord_kept ..).based
    refine Based.trans ?_ (State.releaseTrip_based ..)
    refine Based.trans ?_ (Based.mk (fun h => h) (fun _ h => h) (fun h => h) (fun h => h) (fun h => h) (fun h => h))
    exact Based.refl _
  · refine Based.trans ?_ (State.startAdmission_kept ..).based
    refine Based.trans ?_ (State.exitRecord_kept ..).based
    refine Based.trans ?_ (State.releaseTrip_based ..)
    refine Based.trans ?_ (Based.mk (fun h => h) (fun _ h => h) (fun h => h) (fun h => h) (fun h => h) (fun h => h))
    exact Based.refl _

/-! ### Machine/Verify.lean -/

theorem State.readLevels_steady (s : State) (x : StepInput) : Steady s (State.readLevels s x) := by
  unfold State.readLevels
  dsimp only
  split
  · split
    · split
      · refine Steady.trans ?_ (Steady.mk rfl rfl (fun h => h) (fun _ h => h) (fun h => h) (fun h => h) (fun h => h) (fun h => h) (fun h => h) (fun h => h) (fun h => h))
        refine Steady.trans ?_ (Steady.mk rfl rfl (fun h => h) (fun _ h => h) (fun h => h) (fun h => h) (fun h => h) (fun h => h) (fun h => h) (fun h => h) (fun h => h))
        exact Steady.refl _
      · refine Steady.trans ?_ (Steady.mk rfl rfl (fun h => h) (fun _ h => h) (fun h => h) (fun h => h) (fun h => h) (fun h => h) (fun h => h) (fun h => h) (fun h => h))
        exact Steady.refl _
    · split
      · refine Steady.trans ?_ (Steady.mk rfl rfl (fun h => h) (fun _ h => h) (fun h => h) (fun h => h) (fun h => h) (fun h => h) (fun h => h) (fun h => h) (fun h => h))
        refine Steady.trans ?_ (Steady.mk rfl rfl (fun h => h) (fun _ h => h) (fun h => h) (fun h => h) (fun h => h) (fun h => h) (fun h => h) (fun h => h) (fun h => h))
        exact Steady.refl _
      · refine Steady.trans ?_ (Steady.mk rfl rfl (fun h => h) (fun _ h => h) (fun h => h) (fun h => h) (fun h => h) (fun h => h) (fun h => h) (fun h => h) (fun h => h))
        exact Steady.refl _
  · split
    · split
      · refine Steady.trans ?_ (Steady.mk rfl rfl (fun h => h) (fun _ h => h) (fun h => h) (fun h => h) (fun h => h) (fun h => h) (fun h => h) (fun h => h) (fun h => h))
        refine Steady.trans ?_ (Steady.mk rfl rfl (fun h => h) (fun _ h => h) (fun h => h) (fun h => h) (fun h => h) (fun h => h) (fun h => h) (fun h => h) (fun h => h))
        exact Steady.refl _
      · refine Steady.trans ?_ (Steady.mk rfl rfl (fun h => h) (fun _ h => h) (fun h => h) (fun h => h) (fun h => h) (fun h => h) (fun h => h) (fun h => h) (fun h => h))
        exact Steady.refl _
    · split
      · refine Steady.trans ?_ (Steady.mk rfl rfl (fun h => h) (fun _ h => h) (fun h => h) (fun h => h) (fun h => h) (fun h => h) (fun h => h) (fun h => h) (fun h => h))
        refine Steady.trans ?_ (Steady.mk rfl rfl (fun h => h) (fun _ h => h) (fun h => h) (fun h => h) (fun h => h) (fun h => h) (fun h => h) (fun h => h) (fun h => h))
        exact Steady.refl _
      · refine Steady.trans ?_ (Steady.mk rfl rfl (fun h => h) (fun _ h => h) (fun h => h) (fun h => h) (fun h => h) (fun h => h) (fun h => h) (fun h => h) (fun h => h))
        exact Steady.refl _

/-! ### Machine/Admission.lean -/

theorem State.noteCode_kept (s : State) (code step : Nat) : Kept s (State.noteCode s code step) := by
  unfold State.noteCode
  dsimp only
  refine Kept.trans ?_ Kept.rest
  exact Kept.refl _

theorem State.discardAttempt_steady (s : State) : Steady s (State.discardAttempt s) := by
  unfold State.discardAttempt
  dsimp only
  refine Steady.trans ?_ (State.dropVote_kept ..).steady
  refine Steady.trans ?_ (Steady.mk rfl rfl (fun h => h) (fun _ h => h) (fun h => h) (fun h => h) (fun h => h) (fun h => h) (fun _ => rfl) (fun h => h) (fun h => h))
  exact Steady.refl _

theorem State.refusedState_kept (s : State) : Kept s (State.refusedState s) := by
  unfold State.refusedState
  dsimp only
  refine Kept.trans ?_ (Kept.mk rfl rfl (fun _ => rfl) (fun h => h) (fun h => h) (fun h => h) (fun h => h) (fun h => h) (fun h => h))
  refine Kept.trans ?_ (State.dropVote_kept ..)
  exact Kept.refl _

theorem State.refuse_steady (s : State) (code : Nat) : Steady s (State.refuse s code) := by
  unfold State.refuse
  dsimp only
  split
  · refine Steady.trans ?_ (State.refusedState_kept ..).steady
    refine Steady.trans ?_ (State.noteCode_kept ..).steady
    exact Steady.refl _
  · split
    · refine Steady.trans ?_ (Steady.mk rfl rfl (fun h => h) (fun _ h => h) (fun h => h) (fun h => h) (fun h => h) (fun h => h) (fun h => h) (fun h => h) (fun h => h))
      refine Steady.trans ?_ (State.discardAttempt_steady ..)
      refine Steady.trans ?_ (State.noteCode_kept ..).steady
      exact Steady.refl _
    · refine Steady.trans ?_ (State.refusedState_kept ..).steady
      refine Steady.trans ?_ (State.discardAttempt_steady ..)
      refine Steady.trans ?_ (State.noteCode_kept ..).steady
      exact Steady.refl _

theorem State.refusePlatform_steady (s : State) (subcause array : Nat) :
    Steady s (State.refusePlatform s subcause array) := by
  unfold State.refusePlatform
  refine Steady.trans ?_ (State.refuse_steady ..)
  refine Steady.trans ?_ (Steady.mk rfl rfl (fun h => h) (fun _ h => h) (fun h => h) (fun h => h) (fun h => h) (fun h => h) (fun h => h) (fun h => h) (fun h => h))
  exact Steady.refl _

theorem State.orRefuse_steady {f : State → State} (s : State) (code : Option Nat) (h : ∀ s, Steady s (f s)) :
    Steady s (State.orRefuse s code f) := by
  unfold State.orRefuse
  split
  · exact State.refuse_steady ..
  · exact h _

theorem State.toStep_kept (s : State) (n : Nat) : Kept s (State.toStep s n) := by
  unfold State.toStep
  refine Kept.trans ?_ Kept.rest
  exact Kept.refl _

theorem State.startFlash_kept (s : State) : Kept s (State.startFlash s) := by
  unfold State.startFlash
  dsimp only
  refine Kept.trans ?_ (State.addVote_kept ..)
  refine Kept.trans ?_ Kept.rest
  exact Kept.refl _

theorem State.endStep1_steady (s : State) (x : StepInput) : Steady s (State.endStep1 s x) := by
  unfold State.endStep1
  dsimp only
  refine Steady.trans ?_ (State.orRefuse_steady _ _ fun s => ?_)
  · refine Steady.trans ?_ (State.readLevels_steady ..)
    exact Steady.refl _
  · split
    · refine Steady.trans ?_ (State.startFlash_kept ..).steady
      exact Steady.refl _
    · refine Steady.trans ?_ (Steady.mk rfl rfl (fun h => h) (fun _ h => h) (fun h => h) (fun h => h) (fun h => h) (fun h => h) (fun h => h) (fun h => h) (fun h => h))
      exact Steady.refl _

theorem State.endStep2_steady (s : State) (x : StepInput) : Steady s (State.endStep2 s x) := by
  unfold State.endStep2
  dsimp only
  refine Steady.trans ?_ (State.orRefuse_steady _ _ fun s => ?_)
  · refine Steady.trans ?_ (Steady.mk rfl rfl (fun h => h) (fun _ h => h) (fun h => h) (fun h => h) (fun h => h) (fun h => h) (fun h => h) (fun h => h) (fun h => h))
    exact Steady.refl _
  · refine Steady.trans ?_ (Steady.mk rfl rfl (fun h => h) (fun _ h => h) (fun h => h) (fun h => h) (fun h => h) (fun h => h) (fun h => h) (fun h => h) (fun h => h))
    exact Steady.refl _

theorem State.endStep3_steady (s : State) (slot : Nat) (x : StepInput) : Steady s (State.endStep3 s slot x) := by
  unfold State.endStep3
  refine Steady.trans ?_ (State.orRefuse_steady _ _ fun s => ?_)
  · exact Steady.refl _
  · dsimp only
    refine Steady.trans ?_ (State.toStep_kept ..).steady
    refine Steady.trans ?_ (Steady.mk rfl rfl (fun h => h) (fun _ h => h) (fun h => h) (fun h => h) (fun h => h) (fun h => h) (fun h => h) (fun h => h) (fun h => h))
    exact Steady.refl _

theorem State.startBurn_kept (s : State) : Kept s (State.startBurn s) := by
  unfold State.startBurn
  exact Kept.rest

theorem State.burn_steady (s : State) : Steady s (State.burn s) :=
  ⟨rfl, rfl, rfl, rfl, fun _ => rfl, fun i h => by simp [State.burn] at h ⊢; exact .inl h, fun h => h, fun h => h,
    fun h => h, fun h => h, fun h => h, fun h => h, fun h => h⟩

theorem State.endStep4_steady (s : State) : Steady s (State.endStep4 s) := by
  unfold State.endStep4
  refine Steady.ite (State.burn_steady ..) ?_
  refine Steady.trans (Steady.refl _) (State.orRefuse_steady _ _ fun s => ?_)
  exact Steady.ite (State.startBurn_kept ..).steady (State.toStep_kept ..).steady

theorem State.endStep8_steady (s : State) (slot : Nat) (x : StepInput) : Steady s (State.endStep8 s slot x) := by
  unfold State.endStep8
  refine Steady.ite (State.refusePlatform_steady ..) (Steady.ite (State.refuse_steady ..) (Steady.ite
    (State.refuse_steady ..) (Steady.ite (State.refusePlatform_steady ..) ?_)))
  exact ((State.loadHbm_kept ..).trans (State.toStep_kept ..)).steady

theorem State.referenceSweep_kept (s : State) (bad : Option ArrayId) (x : ArrayId) :
    Kept s (State.referenceSweep s bad x).2 := by
  unfold State.referenceSweep
  split
  dsimp only
  refine Kept.trans ?_ Kept.rest
  refine Kept.trans ?_ (State.updArray_kept ..)
  refine Kept.trans ?_ Kept.rest
  exact Kept.refl _

theorem State.referenceSweep_kept_eq {a0} {t : State} {s : State} {bad : Option ArrayId} {x : ArrayId}
    (heq : State.referenceSweep s bad x = (a0, t)) :
    Kept s t := by
  have := State.referenceSweep_kept s bad x
  rw [heq] at this
  exact this

theorem State.endStep10_steady (s : State) (slot : Nat) : Steady s (State.endStep10 s slot) := by
  unfold State.endStep10
  dsimp only
  split
  · refine Steady.trans ?_ (State.refusePlatform_steady ..)
    refine Steady.trans ?_ (Steady.foldl_on (fun b => Prod.snd (b)) (fun b x => ?_) _ _)
    · dsimp only
      refine Steady.trans ?_ (Steady.foldl (fun s x => ?_) _ _)
      · exact Steady.refl _
      · refine Steady.trans ?_ (State.updArray_kept ..).steady
        exact Steady.refl _
    · refine Steady.trans ?_ (State.referenceSweep_kept ..).steady
      exact Steady.refl _
  · refine Steady.trans ?_ (State.toStep_kept ..).steady
    refine Steady.trans ?_ (Steady.mk rfl rfl (fun h => h) (fun _ h => h) (fun h => h) (fun h => h) (fun h => h) (fun h => h) (fun h => h) (fun h => h) (fun h => h))
    refine Steady.trans ?_ (Steady.foldl_on (fun b => Prod.snd (b)) (fun b x => ?_) _ _)
    · dsimp only
      refine Steady.trans ?_ (Steady.foldl (fun s x => ?_) _ _)
      · exact Steady.refl _
      · refine Steady.trans ?_ (State.updArray_kept ..).steady
        exact Steady.refl _
    · refine Steady.trans ?_ (State.referenceSweep_kept ..).steady
      exact Steady.refl _

theorem State.loadTrims_kept (s : State) (i n c : Nat) (ws : List Nat) : Kept s (State.loadTrims s i n c ws) := by
  unfold State.loadTrims
  refine Kept.trans ?_ (Kept.foldl (fun s x => ?_) _ _)
  · exact Kept.refl _
  · split
    · refine Kept.trans ?_ (State.updArray_kept ..)
      exact Kept.refl _
    · exact Kept.refl _

theorem State.loadLatency_kept (s : State) (ws : List Nat) : Kept s (State.loadLatency s ws) := by
  unfold State.loadLatency
  dsimp only
  refine Kept.trans ?_ Kept.rest
  exact Kept.refl _

theorem State.loadField_kept (s : State) (id : Nat) (v : List Nat) : Kept s (State.loadField s id v) := by
  unfold State.loadField
  dsimp only
  split
  · refine Kept.trans ?_ Kept.rest
    exact Kept.refl _
  · split
    · refine Kept.trans ?_ Kept.rest
      exact Kept.refl _
    · split
      · refine Kept.trans ?_ (State.loadTrims_kept ..)
        exact Kept.refl _
      · split
        · refine Kept.trans ?_ (State.loadTrims_kept ..)
          exact Kept.refl _
        · split
          · refine Kept.trans ?_ Kept.rest
            exact Kept.refl _
          · split
            · refine Kept.trans ?_ (State.loadLatency_kept ..)
              exact Kept.refl _
            · split
              · refine Kept.trans ?_ Kept.rest
                exact Kept.refl _
              · exact Kept.refl _

theorem State.warmStart_kept (s : State) (e : RecEntry) (c : RecClass) : Kept s (State.warmStart s e c) := by
  unfold State.warmStart
  dsimp only
  refine Kept.trans ?_ (Kept.foldl (fun s x => ?_) _ _)
  · refine Kept.trans ?_ Kept.rest
    exact Kept.refl _
  · split
    · refine Kept.trans ?_ (State.loadField_kept ..)
      exact Kept.refl _
    · exact Kept.refl _

theorem State.loadJournal_kept (s : State) (read : Option (RecEntry × RecClass)) :
    Kept s (State.loadJournal s read) := by
  unfold State.loadJournal
  split
  · dsimp only
    refine Kept.trans ?_ Kept.rest
    exact Kept.refl _
  · exact Kept.refl _

theorem State.loadCharge_kept (s : State) : Kept s (State.loadCharge s) := by
  unfold State.loadCharge
  dsimp only
  split
  · refine Kept.trans ?_ Kept.rest
    exact Kept.refl _
  · exact Kept.refl _

theorem State.startBolt_kept (s : State) : Kept s (State.startBolt s) := by
  unfold State.startBolt
  dsimp only
  split
  · refine Kept.trans ?_ (State.raiseReady_kept ..)
    refine Kept.trans ?_ (State.toStep_kept ..)
    exact Kept.refl _
  · split
    · refine Kept.trans ?_ (State.helloAll_kept ..)
      refine Kept.trans ?_ (State.raiseReady_kept ..)
      refine Kept.trans ?_ Kept.rest
      refine Kept.trans ?_ (State.addVotes_kept ..)
      refine Kept.trans ?_ (State.toStep_kept ..)
      exact Kept.refl _
    · refine Kept.trans ?_ Kept.rest
      refine Kept.trans ?_ (State.addVotes_kept ..)
      refine Kept.trans ?_ (State.toStep_kept ..)
      exact Kept.refl _

theorem State.startPeak_kept (s : State) : Kept s (State.startPeak s) := by
  unfold State.startPeak
  exact Kept.rest

theorem State.joinPeak_kept (s : State) : Kept s (State.joinPeak s) := by
  unfold State.joinPeak
  exact Kept.rest

theorem State.endStep11_steady (s : State) (slot : Nat) (x : StepInput) : Steady s (State.endStep11 s slot x) := by
  unfold State.endStep11
  split
  · refine Steady.trans ?_ (State.refuse_steady ..)
    exact Steady.refl _
  · dsimp only
    split
    · refine Steady.trans ?_ (State.refuse_steady ..)
      refine Steady.trans ?_ (Steady.mk rfl rfl (fun h => h) (fun _ h => h) (fun h => h) (fun h => h) (fun h => h) (fun h => h) (fun h => h) (fun h => h) (fun h => h))
      exact Steady.refl _
    · refine Steady.trans ?_ (State.startBolt_kept ..).steady
      refine Steady.trans ?_ (State.loadCharge_kept ..).steady
      refine Steady.trans ?_ (State.joinPeak_kept ..).steady
      refine Steady.trans ?_ (State.loadJournal_kept ..).steady
      split
      · refine Steady.trans ?_ (State.warmStart_kept ..).steady
        refine Steady.trans ?_ (State.startPeak_kept ..).steady
        refine Steady.trans ?_ (Steady.mk rfl rfl (fun h => h) (fun _ h => h) (fun h => h) (fun h => h) (fun h => h) (fun h => h) (fun h => h) (fun h => h) (fun h => h))
        exact Steady.refl _
      · refine Steady.trans ?_ (State.startPeak_kept ..).steady
        refine Steady.trans ?_ (Steady.mk rfl rfl (fun h => h) (fun _ h => h) (fun h => h) (fun h => h) (fun h => h) (fun h => h) (fun h => h) (fun h => h) (fun h => h))
        exact Steady.refl _

theorem State.endStep_steady (s : State) (x : StepInput) : Steady s (State.endStep s x) := by
  unfold State.endStep
  dsimp only
  split
  · refine Steady.trans ?_ (State.endStep1_steady ..)
    exact Steady.refl _
  · refine Steady.trans ?_ (State.endStep2_steady ..)
    exact Steady.refl _
  · refine Steady.trans ?_ (State.endStep3_steady ..)
    exact Steady.refl _
  · refine Steady.trans ?_ (State.endStep4_steady ..)
    exact Steady.refl _
  · refine Steady.trans ?_ (State.orRefuse_steady _ _ fun s => ?_)
    · exact Steady.refl _
    · refine Steady.trans ?_ (State.toStep_kept ..).steady
      exact Steady.refl _
  · refine Steady.trans ?_ (State.orRefuse_steady _ _ fun s => ?_)
    · exact Steady.refl _
    · refine Steady.trans ?_ (State.toStep_kept ..).steady
      refine Steady.trans ?_ (Steady.mk rfl rfl (fun h => h) (fun _ h => h) (fun h => h) (fun h => h) (fun h => h) (fun h => h) (fun h => h) (fun h => h) (fun h => h))
      exact Steady.refl _
  · refine Steady.trans ?_ (State.orRefuse_steady _ _ fun s => ?_)
    · exact Steady.refl _
    · refine Steady.trans ?_ (State.toStep_kept ..).steady
      refine Steady.trans ?_ (State.addVote_kept ..).steady
      exact Steady.refl _
  · refine Steady.trans ?_ (State.endStep8_steady ..)
    exact Steady.refl _
  · refine Steady.trans ?_ (State.toStep_kept ..).steady
    refine Steady.trans ?_ (State.buildWeights_kept ..).steady
    exact Steady.refl _
  · refine Steady.trans ?_ (State.endStep10_steady ..)
    exact Steady.refl _
  · refine Steady.trans ?_ (State.endStep11_steady ..)
    exact Steady.refl _
  · exact Steady.refl _

theorem execAdmissionStepComplete_steady (x : StepInput) (s : State) : SteadyBy s (execAdmissionStepComplete x s) := by
  unfold execAdmissionStepComplete
  refine SteadyBy.ite (SteadyBy.next ?_) (SteadyBy.when ?_)
  · exact (State.readLevels_steady ..).trans (State.settle_kept ..).steady
  · exact (State.endStep_steady ..).trans (State.settle_kept ..).steady

theorem execBootHoldRelease_kept (s : State) : KeptBy s (execBootHoldRelease s) := by
  unfold execBootHoldRelease
  refine KeptBy.when ?_
  refine Kept.trans ?_ (State.settle_kept ..)
  refine Kept.trans ?_ (State.startFlash_kept ..)
  exact Kept.refl _

theorem State.startCore_kept (s : State) : Kept s (State.startCore s) := by
  unfold State.startCore
  dsimp only
  refine Kept.trans ?_ Kept.rest
  exact Kept.refl _

theorem execPllLock_kept (s : State) : KeptBy s (execPllLock s) := by
  unfold execPllLock
  refine KeptBy.when ?_
  dsimp only
  refine Kept.trans ?_ (State.settle_kept ..)
  refine Kept.trans ?_ (State.controlEvent_kept ..)
  have h : Kept s (State.startCore { s with
      power := { s.power with locked := true }
      control := { s.control with wantPll := s.control.wantPll || s.adm.dev == Device.admitting } }) :=
    Kept.trans (t := { s with power := _, control := _ }) Kept.rest (State.startCore_kept ..)
  exact Kept.ite h (h.trans (State.joinPll_kept _))

theorem execPllLockTimeout_based (s : State) : BasedBy s (execPllLockTimeout s) := by
  unfold execPllLockTimeout
  refine BasedBy.when ?_
  split
  · refine Based.trans ?_ (State.settle_kept ..).based
    refine Based.trans ?_ (State.refusePlatform_steady ..).based
    exact Based.refl _
  · split
    · refine Based.trans ?_ (State.supplyReset_based ..)
      exact Based.refl _
    · exact Based.refl _


end Sys2Proof.Machine
end

