-- ==== Sys2Proof/Laws/KeptIntake.lean ====
section
/-! SUPPORT. The pins, the event port, the flash, the hold-up, intake, markers and the sentinel:
what each operation and command keeps, as Laws/Kept.lean lists it. -/

namespace Sys2Proof.Machine

set_option Elab.async false

/-! ### Machine/Status.lean -/

theorem execStatBlinkTimer_kept (s : State) : KeptBy s (execStatBlinkTimer s) := by
  unfold execStatBlinkTimer
  exact KeptBy.when Kept.rest

/-! ### Machine/EventPort.lean -/

theorem State.respond_kept (s : State) (bs : List Byte) : Kept s (State.respond s bs) := by
  unfold State.respond
  refine Kept.trans ?_ Kept.rest
  exact Kept.refl _

theorem State.busy_kept (s : State) : Kept s (State.busy s) := by
  unfold State.busy
  refine Kept.trans ?_ (State.settle_kept ..)
  refine Kept.trans ?_ (State.raiseWake_kept ..)
  refine Kept.trans ?_ (State.respond_kept ..)
  exact Kept.refl _

theorem State.markReturned_kept (s : State) (n : Nat) : Kept s (State.markReturned s n) := by
  unfold State.markReturned
  split
  · refine Kept.trans ?_ Kept.rest
    exact Kept.refl _
  · exact Kept.refl _

theorem execReadEvents_kept (station n : Byte) (s : State) : KeptBy s (execReadEvents station n s) := by
  unfold execReadEvents
  split
  · refine KeptBy.next ?_
    refine Kept.trans ?_ (State.respond_kept ..)
    exact Kept.refl _
  · split
    · refine KeptBy.next ?_
      refine Kept.trans ?_ (State.busy_kept ..)
      exact Kept.refl _
    · refine KeptBy.next ?_
      refine Kept.trans ?_ (State.markReturned_kept ..)
      refine Kept.trans ?_ (State.respond_kept ..)
      exact Kept.refl _

theorem State.drain_kept (s : State) (tEnd : BitVec 16) : Kept s (State.drain s tEnd) := by
  unfold State.drain
  refine Kept.trans ?_ (State.settle_kept ..)
  refine Kept.trans ?_ (State.tryLoss_kept ..)
  refine Kept.trans ?_ Kept.rest
  exact Kept.refl _

theorem execAcknowledgeAndDrain_kept (station : Byte) (tEnd : BitVec 16) (s : State) :
    KeptBy s (execAcknowledgeAndDrain station tEnd s) := by
  unfold execAcknowledgeAndDrain
  split
  · refine KeptBy.next ?_
    refine Kept.trans ?_ (State.respond_kept ..)
    exact Kept.refl _
  · split
    · refine KeptBy.next ?_
      refine Kept.trans ?_ (State.busy_kept ..)
      exact Kept.refl _
    · dsimp only
      refine KeptBy.next ?_
      refine Kept.trans ?_ (State.respond_kept ..)
      refine Kept.trans ?_ (State.drain_kept ..)
      exact Kept.refl _

theorem execReadStatus_kept (station page : Byte) (s : State) : KeptBy s (execReadStatus station page s) := by
  unfold execReadStatus
  split
  · refine KeptBy.next ?_
    refine Kept.trans ?_ (State.respond_kept ..)
    exact Kept.refl _
  · split
    · refine KeptBy.next ?_
      refine Kept.trans ?_ (State.busy_kept ..)
      exact Kept.refl _
    · refine KeptBy.next ?_
      refine Kept.trans ?_ (State.respond_kept ..)
      exact Kept.refl _

theorem execIdentity_kept (station : Byte) (s : State) : KeptBy s (execIdentity station s) := by
  unfold execIdentity
  split
  · refine KeptBy.next ?_
    refine Kept.trans ?_ (State.respond_kept ..)
    exact Kept.refl _
  · refine KeptBy.next ?_
    refine Kept.trans ?_ (State.respond_kept ..)
    exact Kept.refl _

theorem State.loadLatch_kept (s : State) : Kept s (State.loadLatch s) := by
  unfold State.loadLatch
  refine Kept.trans ?_ Kept.rest
  exact Kept.refl _

theorem execLivePositionLowHalf_kept (station : Byte) (s : State) : KeptBy s (execLivePositionLowHalf station s) := by
  unfold execLivePositionLowHalf
  split
  · refine KeptBy.next ?_
    refine Kept.trans ?_ (State.respond_kept ..)
    exact Kept.refl _
  · refine KeptBy.next ?_
    refine Kept.trans ?_ (State.respond_kept ..)
    refine Kept.trans ?_ (State.loadLatch_kept ..)
    exact Kept.refl _

theorem execLivePositionHighHalf_kept (station : Byte) (s : State) : KeptBy s (execLivePositionHighHalf station s) := by
  unfold execLivePositionHighHalf
  split
  · refine KeptBy.next ?_
    refine Kept.trans ?_ (State.respond_kept ..)
    exact Kept.refl _
  · refine KeptBy.next ?_
    refine Kept.trans ?_ (State.respond_kept ..)
    exact Kept.refl _

theorem execAtomicPositionSnapshot_kept (station : Byte) (s : State) :
    KeptBy s (execAtomicPositionSnapshot station s) := by
  unfold execAtomicPositionSnapshot
  split
  · refine KeptBy.next ?_
    refine Kept.trans ?_ (State.respond_kept ..)
    exact Kept.refl _
  · refine KeptBy.next ?_
    refine Kept.trans ?_ (State.respond_kept ..)
    exact Kept.refl _

theorem execTransactionCutShort_kept (sent : List Byte) (_lastBits clocked : Nat) (s : State) :
    KeptBy s (execTransactionCutShort sent _lastBits clocked s) := by
  unfold execTransactionCutShort
  split
  · split
    · refine KeptBy.next ?_
      refine Kept.trans ?_ (State.respond_kept ..)
      exact Kept.refl _
    · split
      · refine KeptBy.next ?_
        refine Kept.trans ?_ (State.respond_kept ..)
        refine Kept.trans ?_ (State.busy_kept ..)
        exact Kept.refl _
      · dsimp only
        split
        · refine KeptBy.next ?_
          refine Kept.trans ?_ (State.respond_kept ..)
          refine Kept.trans ?_ (State.loadLatch_kept ..)
          exact Kept.refl _
        · split
          · split
            · refine KeptBy.next ?_
              refine Kept.trans ?_ (State.markReturned_kept ..)
              refine Kept.trans ?_ (State.respond_kept ..)
              exact Kept.refl _
            · refine KeptBy.next ?_
              refine Kept.trans ?_ (State.respond_kept ..)
              exact Kept.refl _
          · split
            · split
              · refine KeptBy.next ?_
                refine Kept.trans ?_ (State.respond_kept ..)
                refine Kept.trans ?_ (State.drain_kept ..)
                exact Kept.refl _
              · refine KeptBy.next ?_
                refine Kept.trans ?_ (State.respond_kept ..)
                exact Kept.refl _
            · refine KeptBy.next ?_
              refine Kept.trans ?_ (State.respond_kept ..)
              exact Kept.refl _
  · refine KeptBy.next ?_
    refine Kept.trans ?_ (State.respond_kept ..)
    exact Kept.refl _

theorem execHeldRecordEntry_kept (s : State) : KeptBy s (execHeldRecordEntry s) := by
  unfold execHeldRecordEntry
  refine KeptBy.when ?_
  refine Kept.trans ?_ (State.settle_kept ..)
  refine Kept.trans ?_ (State.tryLoss_kept ..)
  refine Kept.trans ?_ (Kept.foldl (fun _ _ => State.enterOne_kept ..) _ _)
  exact Kept.rest

/-! ### Machine/Flash.lean -/

theorem State.withGathered_kept (s : State) (x : Nat × Nat × Nat) : Kept s (State.withGathered s x) := by
  unfold State.withGathered
  exact ((State.bump_kept ..).trans (State.bump_kept ..)).trans (State.bump_kept ..)

theorem State.takeGathered_kept (s : State) (x : Nat × Nat × Nat) : Kept s (State.takeGathered s x) := by
  unfold State.takeGathered
  exact (State.withGathered_kept ..).trans Kept.rest

theorem State.freshCounters_kept (s : State) : Kept s (State.freshCounters s) := by
  unfold State.freshCounters
  exact (State.bump_kept ..).trans Kept.rest

theorem State.startRecord_kept (s : State) : Kept s (State.startRecord s) := by
  unfold State.startRecord
  dsimp only
  refine Kept.trans ?_ (State.addVotes_kept ..)
  refine Kept.trans ?_ Kept.rest
  refine Kept.trans ?_ (State.freshCounters_kept ..)
  exact Kept.refl _

theorem State.startCounter_kept (s : State) (c : Chosen) : Kept s (State.startCounter s c) := by
  unfold State.startCounter
  dsimp only
  refine Kept.trans ?_ (State.addVotes_kept ..)
  refine Kept.trans ?_ Kept.rest
  refine Kept.trans ?_ (State.freshCounters_kept ..)
  exact Kept.refl _

theorem State.nextCommit_kept (s : State) : Kept s (State.nextCommit s) := by
  unfold State.nextCommit
  split
  · exact Kept.refl _
  · split
    · refine Kept.trans ?_ (State.startRecord_kept ..)
      exact Kept.refl _
    · split
      · split
        · split
          · refine Kept.trans ?_ (State.startRecord_kept ..)
            refine Kept.trans ?_ Kept.rest
            exact Kept.refl _
          · refine Kept.trans ?_ (State.startCounter_kept ..)
            exact Kept.refl _
        · refine Kept.trans ?_ (State.startRecord_kept ..)
          refine Kept.trans ?_ Kept.rest
          exact Kept.refl _
      · exact Kept.refl _

theorem State.requestCommit_kept (s : State) (k : CommitKind) : Kept s (State.requestCommit s k) := by
  unfold State.requestCommit
  refine Kept.trans ?_ (State.nextCommit_kept ..)
  refine Kept.trans ?_ Kept.rest
  exact Kept.refl _

theorem State.noteTime_kept (s : State) (o : FlashOp) (since : Nat) : Kept s (State.noteTime s o since) := by
  unfold State.noteTime
  dsimp only
  split
  · refine Kept.trans ?_ Kept.rest
    exact Kept.refl _
  · refine Kept.trans ?_ Kept.rest
    exact Kept.refl _
  · exact Kept.refl _

theorem State.commitOver_kept (s : State) : Kept s (State.commitOver s) := by
  unfold State.commitOver
  dsimp only
  refine Kept.trans ?_ (State.raiseEntry_kept ..)
  refine Kept.trans ?_ (State.controlEvent_kept ..)
  refine Kept.trans ?_ (State.dropVotes_kept ..)
  refine Kept.trans ?_ Kept.rest
  exact Kept.refl _

theorem State.failCommit_kept (s : State) (step : Nat) : Kept s (State.failCommit s step) := by
  unfold State.failCommit
  dsimp only
  refine Kept.trans ?_ (State.commitOver_kept ..)
  refine Kept.trans ?_ Kept.rest
  split
  · refine Kept.trans ?_ (State.assertFault_kept ..)
    refine Kept.trans ?_ (State.faultRecord_kept ..)
    exact Kept.refl _
  · refine Kept.trans ?_ (State.faultRecord_kept ..)
    exact Kept.refl _

theorem State.recordMade_kept (s : State) (r : CommitRun) (c : Chosen) : Kept s (State.recordMade s r c) := by
  unfold State.recordMade
  have h : Kept s ((s.takeGathered r.gathered).bump 11 1) := (State.takeGathered_kept ..).trans (State.bump_kept ..)
  generalize (s.takeGathered r.gathered).bump 11 1 = t at h ⊢
  exact h.trans (Kept.ite (Kept.trans Kept.rest (State.commitOver_kept ..)) Kept.rest)

theorem State.entryMade_kept (s : State) (r : CommitRun) : Kept s (State.entryMade s r) := by
  unfold State.entryMade
  have h : Kept s ((s.takeGathered r.gathered).bump 12 1) := (State.takeGathered_kept ..).trans (State.bump_kept ..)
  generalize (s.takeGathered r.gathered).bump 12 1 = t at h ⊢
  refine h.trans ?_
  dsimp only
  split
  · exact Kept.ite Kept.rest (Kept.trans Kept.rest (State.commitOver_kept ..))
  · exact Kept.trans Kept.rest (State.commitOver_kept ..)

theorem State.opDone_kept (s : State) (r : CommitRun) (o : FlashOp) (rest : List FlashOp) :
    Kept s (State.opDone s r o rest) := by
  unfold State.opDone
  dsimp only
  split
  · refine Kept.trans ?_ (State.commitOver_kept ..)
    refine Kept.trans ?_ (State.noteTime_kept ..)
    refine Kept.trans ?_ (State.applyOp_kept ..)
    exact Kept.refl _
  · split
    · split
      · split
        · refine Kept.trans ?_ (State.recordMade_kept ..)
          refine Kept.trans ?_ (State.noteTime_kept ..)
          refine Kept.trans ?_ (State.applyOp_kept ..)
          exact Kept.refl _
        · refine Kept.trans ?_ (State.failCommit_kept ..)
          refine Kept.trans ?_ (State.noteTime_kept ..)
          refine Kept.trans ?_ (State.applyOp_kept ..)
          exact Kept.refl _
      · refine Kept.trans ?_ (State.failCommit_kept ..)
        refine Kept.trans ?_ (State.noteTime_kept ..)
        refine Kept.trans ?_ (State.applyOp_kept ..)
        exact Kept.refl _
    · split
      · refine Kept.trans ?_ (State.entryMade_kept ..)
        refine Kept.trans ?_ (State.noteTime_kept ..)
        refine Kept.trans ?_ (State.applyOp_kept ..)
        exact Kept.refl _
      · refine Kept.trans ?_ Kept.rest
        refine Kept.trans ?_ (State.noteTime_kept ..)
        refine Kept.trans ?_ (State.applyOp_kept ..)
        exact Kept.refl _

theorem State.opFailed_kept (s : State) (r : CommitRun) (o : FlashOp) : Kept s (State.opFailed s r o) := by
  unfold State.opFailed
  dsimp only
  split
  · refine Kept.trans ?_ (State.commitOver_kept ..)
    refine Kept.trans ?_ (State.noteTime_kept ..)
    refine Kept.trans ?_ (State.mayApply_kept ..)
    exact Kept.refl _
  · refine Kept.trans ?_ (State.failCommit_kept ..)
    refine Kept.trans ?_ (State.noteTime_kept ..)
    refine Kept.trans ?_ (State.mayApply_kept ..)
    exact Kept.refl _

theorem State.flashReady_kept (s : State) : Kept s (State.flashReady s) := by
  unfold State.flashReady
  dsimp only
  refine Kept.trans ?_ (State.dropVotes_kept ..)
  refine Kept.trans ?_ Kept.rest
  split
  · refine Kept.trans ?_ (State.mayApply_kept ..)
    exact Kept.refl _
  · exact Kept.refl _

theorem State.operationDone_kept (s : State) (error : Bool) : Kept s (State.operationDone s error) := by
  unfold State.operationDone
  split
  · refine Kept.trans ?_ (State.flashReady_kept ..)
    exact Kept.refl _
  · split
    · split
      · split
        · refine Kept.trans ?_ (State.opFailed_kept ..)
          exact Kept.refl _
        · refine Kept.trans ?_ (State.opDone_kept ..)
          exact Kept.refl _
      · exact Kept.refl _
    · exact Kept.refl _

theorem State.operationTimeout_kept (s : State) (r : CommitRun) (o : FlashOp) :
    Kept s (State.operationTimeout s r o) := by
  unfold State.operationTimeout
  dsimp only
  split
  · refine Kept.trans ?_ (State.commitOver_kept ..)
    refine Kept.trans ?_ (State.addVotes_kept ..)
    refine Kept.trans ?_ Kept.rest
    exact Kept.refl _
  · refine Kept.trans ?_ (State.failCommit_kept ..)
    refine Kept.trans ?_ (State.addVotes_kept ..)
    refine Kept.trans ?_ Kept.rest
    exact Kept.refl _

theorem State.stageField_kept (s : State) (id : Nat) (b : List Byte) : Kept s (State.stageField s id b) := by
  unfold State.stageField
  split
  · refine Kept.trans ?_ Kept.rest
    exact Kept.refl _
  · exact Kept.refl _

theorem State.stageTile_kept (s : State) (u : List Upset) (loops : List LoopLevel) (f id : Nat) :
    Kept s (s.stageTile u loops f id) := by
  unfold State.stageTile
  dsimp only
  refine Kept.trans ?_ (State.stageField_kept ..)
  refine Kept.trans ?_ (Kept.foldl (fun s x => ?_) _ _)
  · refine Kept.trans ?_ (State.upsets_kept ..)
    exact Kept.refl _
  · split
    · refine Kept.trans ?_ (State.detectCommons_kept ..)
      exact Kept.refl _
    · exact Kept.refl _

theorem execStage_kept (u : List Upset) (s : State) : KeptBy s (execStage u s) := by
  unfold execStage
  refine controlIssue_kept _ fun i => ?_
  split
  · refine KeptFun.some fun s => ?_
    exact State.stageTile_kept ..
  · exact KeptFun.none

theorem execCommit_kept (s : State) : KeptBy s (execCommit s) := by
  unfold execCommit
  refine controlIssue_kept _ fun i => ?_
  split
  · refine KeptFun.some fun s => ?_
    refine Kept.trans ?_ (State.requestCommit_kept ..)
    exact Kept.refl _
  · exact KeptFun.none

theorem execPeriodicCommit_kept (s : State) : KeptBy s (execPeriodicCommit s) := by
  unfold execPeriodicCommit
  refine KeptBy.when ?_
  dsimp only
  split
  · refine Kept.trans ?_ (State.settle_kept ..)
    refine Kept.trans ?_ (State.requestCommit_kept ..)
    refine Kept.trans ?_ Kept.rest
    exact Kept.refl _
  · refine Kept.trans ?_ Kept.rest
    exact Kept.refl _

/-! ### Machine/HoldUp.lean -/

theorem State.withdraw_kept (s : State) (c : Nat → Bool) : Kept s (State.withdraw s c) := by
  unfold State.withdraw
  refine Kept.trans ?_ (Kept.foldl (fun s x => ?_) _ _)
  · exact Kept.refl _
  · refine Kept.trans ?_ (State.dropVote_kept ..)
    exact Kept.refl _

theorem State.flushStepTwo_kept (s : State) : Kept s (State.flushStepTwo s) := by
  unfold State.flushStepTwo
  dsimp only
  refine Kept.trans ?_ Kept.rest
  refine Kept.trans ?_ (State.withdraw_kept ..)
  exact Kept.refl _

theorem State.enterFlushed_kept (s : State) : Kept s (State.enterFlushed s) := by
  unfold State.enterFlushed
  refine Kept.trans ?_ (Kept.mk rfl rfl (fun h => h) (fun h => h) (fun _ => rfl) (fun h => h) (fun h => h) (fun h => h) (fun h => h))
  exact Kept.refl _

theorem State.flushDone_kept (s : State) : Kept s (State.flushDone s) := by
  unfold State.flushDone
  split
  refine Kept.trans ?_ (State.enterFlushed_kept ..)
  refine Kept.trans ?_ Kept.rest
  exact Kept.refl _

theorem State.beginItem_kept (s : State) (k : CommitKind) : Kept s (State.beginItem s k) := by
  unfold State.beginItem
  exact Kept.trans (t := { s with hold := _ }) Kept.rest (State.requestCommit_kept ..)

theorem State.flushNext_kept (s : State) (step : Nat) : Kept s (State.flushNext s step) := by
  unfold State.flushNext
  refine Kept.trans ?_ Kept.rest
  exact Kept.refl _

theorem State.flushRecord_kept (s : State) : Kept s (State.flushRecord s) := by
  unfold State.flushRecord
  refine Kept.ite (Kept.ite (Kept.refl _) (State.flushNext_kept ..)) (Kept.ite Kept.rest
    (Kept.ite (State.flushNext_kept ..) (Kept.ite (Kept.refl _) (Kept.ite ?_ (State.beginItem_kept ..)))))
  exact Kept.trans (t := { s with hold := _ }) Kept.rest (State.flushNext_kept ..)

theorem State.flushCounter_kept (s : State) : Kept s (State.flushCounter s) := by
  unfold State.flushCounter
  refine Kept.ite (Kept.ite (Kept.refl _) (State.flushNext_kept ..)) (Kept.ite (State.flushNext_kept ..)
    (Kept.ite Kept.rest (Kept.ite ?_ (State.beginItem_kept ..))))
  exact Kept.trans (t := { s with hold := _ }) Kept.rest (State.flushNext_kept ..)

theorem State.flushRetry_kept (s : State) : Kept s (State.flushRetry s) := by
  unfold State.flushRetry
  refine Kept.ite (Kept.refl _) ?_
  split
  · exact State.flushDone_kept ..
  · exact Kept.trans (t := { s with hold := _ }) Kept.rest (State.beginItem_kept ..)

theorem State.flushMove_kept (s : State) : Kept s (State.flushMove s) := by
  unfold State.flushMove
  split
  · exact Kept.refl _
  · split
    · split
      · refine Kept.trans ?_ (State.flushStepTwo_kept ..)
        exact Kept.refl _
      · exact Kept.refl _
    · refine Kept.trans ?_ (State.flushRecord_kept ..)
      exact Kept.refl _
    · refine Kept.trans ?_ (State.flushCounter_kept ..)
      exact Kept.refl _
    · refine Kept.trans ?_ (State.flushRetry_kept ..)
      exact Kept.refl _
    · exact Kept.refl _

theorem State.flushAdvance_kept (s : State) : Kept s (State.flushAdvance s) := by
  unfold State.flushAdvance
  exact Kept.ite (Kept.refl _) (Kept.foldl (fun _ _ => State.flushMove_kept _) _ _)

theorem State.meetCommits_kept (s : State) : Kept s (State.meetCommits s) := by
  unfold State.meetCommits
  exact Kept.rest

theorem State.startFlush_kept (s : State) : Kept s (State.startFlush s) := by
  unfold State.startFlush
  split
  dsimp only
  refine Kept.trans ?_ (State.flushAdvance_kept ..)
  refine Kept.trans ?_ (Kept.foldl (fun s x => ?_) _ _)
  · refine Kept.trans ?_ (State.withdraw_kept ..)
    refine Kept.trans ?_ (State.raiseEntry_kept ..)
    refine Kept.trans ?_ (State.addVotes_kept ..)
    refine Kept.trans ?_ (State.recordWake_kept ..)
    refine Kept.trans ?_ (State.meetCommits_kept ..)
    refine Kept.trans ?_ Kept.rest
    exact Kept.refl _
  · split
    · refine Kept.trans ?_ (State.endSpan_kept ..)
      exact Kept.refl _
    · split
      · refine Kept.trans ?_ (State.dropVotes_kept ..)
        refine Kept.trans ?_ (State.updGroup_kept ..)
        exact Kept.refl _
      · exact Kept.refl _

theorem execPowerFail_kept (s : State) : KeptBy s (execPowerFail s) := by
  unfold execPowerFail
  exact KeptBy.when (Kept.trans (State.startFlush_kept ..) (State.settle_kept ..))

theorem execFlushStepTimeout_kept (s : State) : KeptBy s (execFlushStepTimeout s) := by
  unfold execFlushStepTimeout
  refine KeptBy.when ?_
  refine Kept.trans ?_ (State.settle_kept ..)
  refine Kept.trans ?_ (State.flushAdvance_kept ..)
  exact Kept.refl _

theorem State.cutOff_kept (s : State) : Kept s (State.cutOff s) := by
  unfold State.cutOff
  dsimp only
  refine Kept.trans ?_ (State.enterFlushed_kept ..)
  exact ((State.cutOp_kept s).trans (State.dropVotes_kept ..)).trans Kept.rest

theorem execInputRestored_based (s : State) : BasedBy s (execInputRestored s) := by
  unfold execInputRestored
  refine BasedBy.when ?_
  refine Based.trans ?_ (State.resetOutside_based ..)
  exact Based.refl _

theorem execHoldVSample_kept (mv vinMv : Nat) (dq : Int) (meanUa : Nat) (s : State) :
    KeptBy s (execHoldVSample mv vinMv dq meanUa s) := by
  unfold execHoldVSample
  refine KeptBy.when ?_
  dsimp only
  split
  · refine Kept.trans ?_ (State.settle_kept ..)
    split
    · exact Kept.after (State.cutOff_kept ..) Kept.rest
    · exact Kept.after (State.flushAdvance_kept ..) Kept.rest
  · exact Kept.rest

theorem execHoldupArm_kept (s : State) : KeptBy s (execHoldupArm s) := by
  unfold execHoldupArm
  refine KeptBy.when ?_
  refine Kept.trans ?_ Kept.rest
  exact Kept.refl _

theorem execHoldupWindow_kept (s : State) : KeptBy s (execHoldupWindow s) := by
  unfold execHoldupWindow
  refine KeptBy.when ?_
  split
  dsimp only
  split
  · refine Kept.trans ?_ (State.bump_kept ..)
    refine Kept.trans ?_ Kept.rest
    exact Kept.refl _
  · refine Kept.trans ?_ Kept.rest
    exact Kept.refl _

theorem State.flashNext_kept (s : State) : Kept s (State.flashNext s) := by
  unfold State.flashNext
  exact Kept.ite (Kept.ite (Kept.refl _) ((State.nextCommit_kept s).trans (State.flushAdvance_kept _)))
    (Kept.ite (State.nextCommit_kept s) (Kept.refl _))

theorem execFlashOperationDone_kept (error : Bool) (s : State) : KeptBy s (execFlashOperationDone error s) := by
  unfold execFlashOperationDone
  refine KeptBy.when ?_
  refine Kept.trans ?_ (State.settle_kept ..)
  refine Kept.trans ?_ (State.flashNext_kept ..)
  refine Kept.trans ?_ (State.operationDone_kept ..)
  exact Kept.refl _

theorem execFlashBusyTimeout_kept (s : State) : KeptBy s (execFlashBusyTimeout s) := by
  unfold execFlashBusyTimeout
  split
  · refine KeptBy.when ?_
    refine Kept.trans ?_ (State.settle_kept ..)
    refine Kept.trans ?_ (State.flashNext_kept ..)
    refine Kept.trans ?_ (State.operationTimeout_kept ..)
    exact Kept.refl _
  · refine KeptBy.next ?_
    exact Kept.refl _

/-! ### Machine/Intake.lean -/

theorem State.updCsi_kept (s : State) (c : CsiId) (f : CsiPort → CsiPort) : Kept s (State.updCsi s c f) := by
  unfold State.updCsi
  refine Kept.trans ?_ Kept.rest
  exact Kept.refl _

theorem State.stampNow_kept (s : State) : Kept s (State.stampNow s).2 := by
  unfold State.stampNow
  dsimp only
  split
  · dsimp only
    refine Kept.trans ?_ (State.takeFree_kept ..)
    exact Kept.refl _
  · dsimp only
    exact Kept.refl _

theorem State.stampNow_kept_eq {a0} {t : State} {s : State} (heq : State.stampNow s = (a0, t)) : Kept s t := by
  have := State.stampNow_kept s
  rw [heq] at this
  exact this

theorem State.takeStamp_kept (s : State) : Kept s (State.takeStamp s).2 := by
  unfold State.takeStamp
  split
  dsimp only
  refine Kept.trans ?_ (State.stampNow_kept_eq (by assumption))
  exact Kept.refl _

theorem State.takeStamp_kept_eq {a0} {t : State} {s : State} (heq : State.takeStamp s = (a0, t)) : Kept s t := by
  have := State.takeStamp_kept s
  rw [heq] at this
  exact this

theorem State.estimateStamp_kept (s : State) (q : LineSeq) : Kept s (State.estimateStamp s q).2 := by
  unfold State.estimateStamp
  split
  · dsimp only
    exact Kept.refl _
  · split
    dsimp only
    refine Kept.trans ?_ (State.takeFree_kept_eq (by assumption))
    exact Kept.refl _

theorem State.estimateStamp_kept_eq {a0} {t : State} {s : State} {q : LineSeq}
    (heq : State.estimateStamp s q = (a0, t)) :
    Kept s t := by
  have := State.estimateStamp_kept s q
  rw [heq] at this
  exact this

theorem State.checkFlat_kept (s : State) (bank : Nat) : Kept s (State.checkFlat s bank) := by
  unfold State.checkFlat
  refine Kept.foldl (fun s w => ?_) _ _
  exact (State.detectCommons_kept ..).trans (Kept.ite Kept.rest Kept.rest)

theorem State.switchCoefs_kept (s : State) (q : LineSeq) (stamp : Pos) : Kept s (State.switchCoefs s q stamp) := by
  unfold State.switchCoefs
  exact Kept.ite Kept.rest (Kept.refl _)

theorem State.decideSwitch_kept (s : State) (q : LineSeq) (stamp : Pos) : Kept s (State.decideSwitch s q stamp) := by
  unfold State.decideSwitch
  exact Kept.ite (Kept.after (State.switchCoefs_kept ..) Kept.rest) (Kept.refl _)

theorem State.settleSwitch_kept (s : State) : Kept s (State.settleSwitch s) := by
  unfold State.settleSwitch
  split
  · split
    · exact State.decideSwitch_kept ..
    · exact (State.estimateStamp_kept ..).trans (State.decideSwitch_kept ..)
  · exact Kept.refl _

theorem State.startSwitch16_kept (s : State) (q : LineSeq) (stamp : Option (Pos × Bool)) :
    Kept s (State.startSwitch16 s q stamp) := by
  unfold State.startSwitch16
  split
  · refine (State.settleSwitch_kept s).trans ?_
    split
    · exact State.switchCoefs_kept ..
    · exact Kept.rest
  · exact Kept.refl _

theorem State.closeLine_kept (s : State) (l : AsmLine) : Kept s (State.closeLine s l) := by
  have tail (s : State) (x : Pos) (cls : Bool) : Kept s
      (let s := s.decideSwitch l.seq x
       let s := if s.switchBefore l.seq then s.settleSwitch else s
       if cls then s.checkFlat (((s.intake.asm.find? (·.seq == l.seq)).map (·.bank)).getD l.bank) else s) := by
    dsimp only
    have h := (State.decideSwitch_kept s l.seq x).trans
      (Kept.ite (c := (s.decideSwitch l.seq x).switchBefore l.seq = true) (State.settleSwitch_kept _) (Kept.refl _))
    exact Kept.ite (h.trans (State.checkFlat_kept ..)) h
  unfold State.closeLine
  dsimp only
  refine Kept.trans ?_ Kept.rest
  cases l.stamp with
  | some x => exact tail s x.1 _
  | none => exact (State.estimateStamp_kept s l.seq).trans (tail ..)

theorem State.closeLines_kept (s : State) (c : AsmLine → Bool) : Kept s (State.closeLines s c) := by
  unfold State.closeLines
  refine Kept.trans ?_ (Kept.foldl (fun s x => ?_) _ _)
  · exact Kept.refl _
  · refine Kept.trans ?_ (State.closeLine_kept ..)
    exact Kept.refl _

theorem State.helloSoon_kept (s : State) : Kept s (State.helloSoon s) := by
  unfold State.helloSoon
  refine Kept.trans ?_ (Kept.foldl (fun s x => ?_) _ _)
  · exact Kept.refl _
  · refine Kept.trans ?_ (State.updLink_kept ..)
    exact Kept.refl _

theorem State.realign_kept (s : State) : Kept s (State.realign s) := by
  unfold State.realign
  dsimp only
  refine Kept.trans ?_ (State.helloSoon_kept ..)
  split
  · refine Kept.trans ?_ (State.status_kept ..)
    refine Kept.trans ?_ Kept.rest
    refine Kept.trans ?_ (State.closeLines_kept ..)
    exact Kept.refl _
  · refine Kept.trans ?_ Kept.rest
    refine Kept.trans ?_ (State.closeLines_kept ..)
    exact Kept.refl _

theorem State.leaveFrames_kept (s : State) (c : CsiId) (old f : Nat × Nat) : Kept s (State.leaveFrames s c old f) := by
  unfold State.leaveFrames
  exact Kept.rest

theorem State.startFrame_kept (s : State) (c : CsiId) (frame : BitVec 16) : Kept s (State.startFrame s c frame) := by
  unfold State.startFrame
  refine Kept.trans ?_ (State.settle_kept ..)
  have h : ∀ t : State, Kept t (if t.numbersDiffer c then t.realign else t) := fun t =>
    Kept.ite (State.realign_kept ..) (Kept.refl _)
  refine Kept.trans ?_ (h _)
  refine Kept.ite ?_ (Kept.after (State.leaveFrames_kept ..) ?_)
  all_goals exact (State.updCsi_kept ..).trans (State.closeLines_kept ..)

theorem State.endFrame_kept (s : State) (c : CsiId) : Kept s (State.endFrame s c) := by
  unfold State.endFrame
  refine Kept.ite (Kept.refl _) ?_
  dsimp only
  refine Kept.trans ?_ (State.settle_kept ..)
  have h := State.updCsi_kept s c fun p =>
      { p with open_ := false, closed := some (p.frameNo.toNat, p.ordinal, p.index), lineStart := none }
  exact Kept.ite (h.trans (State.realign_kept ..)) h

theorem State.lineStarts_kept (s : State) (c : CsiId) : Kept s (State.lineStarts s c) := by
  unfold State.lineStarts
  exact Kept.ite (Kept.refl _) ((State.takeStamp_kept s).trans (State.updCsi_kept ..))

theorem State.countIgnored_kept (s : State) (c : CsiId) : Kept s (State.countIgnored s c) := State.updCsi_kept ..

theorem execIgnoredPacket_kept (c : CsiId) (s : State) : KeptBy s (execIgnoredPacket c s) := by
  unfold execIgnoredPacket
  exact KeptBy.when (State.countIgnored_kept ..)

theorem State.startLine_kept (s : State) (c : CsiId) (k : Nat) (stamp : Option (Pos × Bool)) :
    Kept s (State.startLine s c k stamp) := by
  unfold State.startLine
  dsimp only
  refine Kept.trans ?_ Kept.rest
  exact (State.startSwitch16_kept ..).trans (State.bump_kept ..)

theorem State.closeOlder_kept (s : State) (l : AsmLine) : Kept s (State.closeOlder s l) := by
  unfold State.closeOlder
  refine Kept.trans ?_ (State.closeLines_kept ..)
  exact Kept.refl _

theorem State.deliverPart_kept (s : State) (c : CsiId) (k : Nat) (part : Option Part) (stamp : Option
    (Pos × Bool)) (incomplete : Bool) :
    Kept s (State.deliverPart s c k part stamp incomplete) := by
  have opt (t : State) (q : LineSeq) (o : Option (Pos × Bool)) :
      Kept t ((o.map fun st => t.decideSwitch q st.1).getD t) := by
    cases o with
    | none => exact Kept.refl _
    | some _ => exact State.decideSwitch_kept ..
  have place (t : State) (l : AsmLine) (asm : List AsmLine) (done : Bool) : Kept t
      (let s : State := { t with intake := { t.intake with asm := asm } }
       let s := (l.stamp.map fun st => s.decideSwitch l.seq st.1).getD s
       let s := s.closeOlder l
       if done then s.closeLine l else s) := by
    dsimp only
    have h := ((Kept.rest : Kept t { t with intake := { t.intake with asm := asm } }).trans (opt _ l.seq l.stamp)).trans
      (State.closeOlder_kept _ l)
    exact Kept.ite (h.trans (State.closeLine_kept ..)) h
  unfold State.deliverPart
  refine Kept.ite (Kept.refl _) ?_
  have start : Kept s (if (s.findLine c k).isSome then s else s.startLine c k stamp) :=
    Kept.ite (Kept.refl _) (State.startLine_kept ..)
  dsimp only
  generalize (if (s.findLine c k).isSome then s else s.startLine c k stamp) = t at start
  split
  · exact start.trans (place ..)
  · exact start

theorem State.partStamp_kept (s : State) (c : CsiId) : Kept s (State.partStamp s c).2 := by
  unfold State.partStamp
  split
  · split
    · dsimp only
      exact Kept.refl _
    · split
      dsimp only
      refine Kept.trans ?_ (State.takeStamp_kept_eq (by assumption))
      exact Kept.refl _
  · dsimp only
    exact Kept.refl _

theorem State.partStamp_kept_eq {a0} {t : State} {s : State} {c : CsiId} (heq : State.partStamp s c = (a0, t)) :
    Kept s t := by
  have := State.partStamp_kept s c
  rw [heq] at this
  exact this

theorem State.takePart_kept (s : State) (c : CsiId) (part : Part) : Kept s (State.takePart s c part) := by
  unfold State.takePart
  refine Kept.ite (Kept.refl _) ?_
  refine Kept.trans ?_ (State.settle_kept ..)
  refine Kept.trans ?_ (State.deliverPart_kept ..)
  refine Kept.trans ?_ (State.updCsi_kept ..)
  exact State.partStamp_kept ..

theorem State.countCorrected_kept (s : State) (c : CsiId) : Kept s (State.countCorrected s c) := State.updCsi_kept ..

theorem State.shortPacket_kept {f : State → BitVec 16 → State} (s : State) (c : CsiId) (t h : Nat)
    (hf : ∀ s n, Kept s (f s n)) : Kept s (State.shortPacket s c t h f) := by
  unfold State.shortPacket
  exact Kept.ite (hf ..) (State.countIgnored_kept ..)

theorem State.takeShort_kept {f : State → BitVec 16 → State} (s : State) (x : CsiShort) (t : Nat)
    (hf : ∀ s n, Kept s (f s n)) : KeptBy s (State.takeShort s x t f) := by
  unfold State.takeShort
  refine KeptBy.when ?_
  split
  · exact State.shortPacket_kept _ _ _ _ hf
  · exact (State.countCorrected_kept ..).trans (State.shortPacket_kept _ _ _ _ hf)
  · exact State.takePart_kept ..

theorem execFrameStart_kept (c : CsiId) (header : BitVec 32) (s : State) : KeptBy s (execFrameStart c header s) :=
  State.takeShort_kept _ _ _ fun _ _ => State.startFrame_kept ..

theorem execFrameEnd_kept (x : CsiShort) (s : State) : KeptBy s (execFrameEnd x s) :=
  State.takeShort_kept _ _ _ fun _ _ => State.endFrame_kept ..

theorem execLineStartPacket_kept (x : CsiShort) (s : State) : KeptBy s (execLineStartPacket x s) :=
  State.takeShort_kept _ _ _ fun _ _ => State.lineStarts_kept ..

theorem State.takePacket_kept (s : State) (c : CsiId) (k : LongPacket) (h : Nat) : Kept s (State.takePacket s c k h) := by
  unfold State.takePacket
  exact Kept.ite (State.takePart_kept ..) (State.countIgnored_kept ..)

theorem execLongPacket_kept (c : CsiId) (k : LongPacket) (u : List Upset) (s : State) :
    KeptBy s (execLongPacket c k u s) := by
  unfold execLongPacket
  refine KeptBy.when ?_
  have h := State.upsets_kept s 0 (u.filter (·.store == .commons))
  dsimp only
  split
  · exact h.trans (State.takePacket_kept ..)
  · exact (h.trans (State.updCsi_kept ..)).trans (State.takePacket_kept ..)
  · exact h.trans (State.takePart_kept ..)

theorem execCsiClockLoss_kept (c : CsiId) (s : State) : KeptBy s (execCsiClockLoss c s) := by
  unfold execCsiClockLoss
  refine KeptBy.when ?_
  dsimp only
  refine Kept.trans ?_ (State.settle_kept ..)
  refine Kept.trans ?_ (State.deliverPart_kept ..)
  refine Kept.trans ?_ (State.updCsi_kept ..)
  refine Kept.trans ?_ (State.partStamp_kept ..)
  exact Kept.refl _

theorem execLineAssemblyTimeout_kept (s : State) : KeptBy s (execLineAssemblyTimeout s) := by
  unfold execLineAssemblyTimeout
  split
  · refine KeptBy.when ?_
    refine Kept.trans ?_ (State.settle_kept ..)
    refine Kept.trans ?_ (State.closeLine_kept ..)
    exact Kept.refl _
  · refine KeptBy.next ?_
    exact Kept.refl _

theorem State.gapRecord_kept (s : State) (g : GapRun) : Kept s (State.gapRecord s g) := by
  unfold State.gapRecord
  refine Kept.trans ?_ (State.submit_kept ..)
  exact Kept.refl _

theorem State.endGap_kept (s : State) : Kept s (State.endGap s) := by
  unfold State.endGap
  split
  · dsimp only
    refine Kept.trans ?_ Kept.rest
    refine Kept.trans ?_ (State.gapRecord_kept ..)
    exact Kept.refl _
  · exact Kept.refl _

theorem State.feedGap_kept (s : State) (l : BobLine) : Kept s (State.feedGap s l) := by
  unfold State.feedGap
  split
  · refine Kept.trans ?_ (State.endGap_kept ..)
    exact Kept.refl _
  · dsimp only
    split
    · split
      · split
        · split
          · refine Kept.trans ?_ (State.endGap_kept ..)
            refine Kept.trans ?_ Kept.rest
            exact Kept.refl _
          · refine Kept.trans ?_ Kept.rest
            exact Kept.refl _
        · split
          · refine Kept.trans ?_ (State.endGap_kept ..)
            refine Kept.trans ?_ Kept.rest
            refine Kept.trans ?_ (State.endGap_kept ..)
            exact Kept.refl _
          · refine Kept.trans ?_ Kept.rest
            refine Kept.trans ?_ (State.endGap_kept ..)
            exact Kept.refl _
      · split
        · refine Kept.trans ?_ (State.endGap_kept ..)
          refine Kept.trans ?_ Kept.rest
          exact Kept.refl _
        · refine Kept.trans ?_ Kept.rest
          exact Kept.refl _
    · split
      · split
        · split
          · refine Kept.trans ?_ (State.endGap_kept ..)
            refine Kept.trans ?_ Kept.rest
            exact Kept.refl _
          · refine Kept.trans ?_ Kept.rest
            exact Kept.refl _
        · split
          · refine Kept.trans ?_ (State.endGap_kept ..)
            refine Kept.trans ?_ Kept.rest
            refine Kept.trans ?_ (State.endGap_kept ..)
            exact Kept.refl _
          · refine Kept.trans ?_ Kept.rest
            refine Kept.trans ?_ (State.endGap_kept ..)
            exact Kept.refl _
      · split
        · refine Kept.trans ?_ (State.endGap_kept ..)
          refine Kept.trans ?_ Kept.rest
          exact Kept.refl _
        · refine Kept.trans ?_ Kept.rest
          exact Kept.refl _

theorem State.feedTables_kept (s : State) (l : BobLine) : Kept s (State.feedTables s l) := by
  unfold State.feedTables
  dsimp only
  refine Kept.trans ?_ Kept.rest
  exact Kept.refl _

theorem State.feedSweep_kept (s : State) (l : BobLine) : Kept s (State.feedSweep s l) := by
  unfold State.feedSweep
  split
  · split
    · refine Kept.trans ?_ Kept.rest
      exact Kept.refl _
    · exact Kept.refl _
  · exact Kept.refl _

theorem State.feedInOrder_kept (s : State) : Kept s (State.feedInOrder s) := by
  unfold State.feedInOrder
  refine Kept.trans ?_ (Kept.foldl (fun s x => ?_) _ _)
  · exact Kept.refl _
  · split
    · split
      · exact Kept.refl _
      · dsimp only
        refine Kept.trans ?_ Kept.rest
        refine Kept.trans ?_ (State.feedSweep_kept ..)
        refine Kept.trans ?_ (State.feedTables_kept ..)
        refine Kept.trans ?_ (State.feedGap_kept ..)
        exact Kept.refl _
    · exact Kept.refl _

theorem State.overwrite_kept (s : State) (q : LineSeq) : Kept s (State.overwrite s q) := by
  unfold State.overwrite
  split
  · split
    · exact Kept.refl _
    · refine Kept.trans ?_ (State.gapRecord_kept ..)
      exact Kept.refl _
  · exact Kept.refl _

theorem State.expectHalo_kept (s : State) (side : Fin 2) (q : LineSeq) : Kept s (State.expectHalo s side q) := by
  unfold State.expectHalo
  split
  · exact Kept.refl _
  · split
    · refine Kept.trans ?_ (State.putHalo_kept ..)
      exact Kept.refl _
    · split
      · refine Kept.trans ?_ (State.sumSide_kept ..)
        exact Kept.refl _
      · refine Kept.trans ?_ Kept.rest
        exact Kept.refl _

theorem execLineJournaled_kept (s : State) : KeptBy s (execLineJournaled s) := by
  unfold execLineJournaled
  split
  · refine KeptBy.when ?_
    dsimp only
    refine Kept.trans ?_ (State.settle_kept ..)
    refine Kept.trans ?_ (State.feedInOrder_kept ..)
    refine Kept.trans ?_ (Kept.foldl (fun s x => ?_) _ _)
    · refine Kept.trans ?_ (State.sendHalos_kept ..)
      refine Kept.trans ?_ (State.putLine_kept ..)
      refine Kept.trans ?_ (State.overwrite_kept ..)
      refine Kept.trans ?_ Kept.rest
      exact Kept.refl _
    · refine Kept.trans ?_ (State.expectHalo_kept ..)
      exact Kept.refl _
  · refine KeptBy.next ?_
    exact Kept.refl _

/-! ### Machine/Markers.lean -/

theorem execMarkerFire_kept (m : MarkerId) (s : State) : KeptBy s (execMarkerFire m s) := by
  unfold execMarkerFire
  dsimp only
  refine KeptBy.next ?_
  refine Kept.trans ?_ Kept.rest
  split
  · refine Kept.trans ?_ (State.bump_kept ..)
    exact Kept.refl _
  · exact Kept.refl _

theorem execMarkerPulseEnd_kept (m : MarkerId) (s : State) : KeptBy s (execMarkerPulseEnd m s) := by
  unfold execMarkerPulseEnd
  split
  · dsimp only
    refine KeptBy.next ?_
    refine Kept.trans ?_ (State.settle_kept ..)
    refine Kept.trans ?_ (State.markRecord_kept ..)
    refine Kept.trans ?_ Kept.rest
    exact Kept.refl _
  · refine KeptBy.next ?_
    exact Kept.refl _

theorem State.armFire_kept (s : State) (f : Fire) : Kept s (State.armFire s f) := by
  unfold State.armFire
  split
  · dsimp only
    split
    · refine Kept.trans ?_ (State.markRecord_kept ..)
      refine Kept.trans ?_ Kept.rest
      exact Kept.refl _
    · split
      · refine Kept.trans ?_ (State.markRecord_kept ..)
        refine Kept.trans ?_ Kept.rest
        exact Kept.refl _
      · split
        · refine Kept.trans ?_ (State.bump_kept ..)
          refine Kept.trans ?_ Kept.rest
          exact Kept.refl _
        · refine Kept.trans ?_ Kept.rest
          exact Kept.refl _
  · exact Kept.refl _

theorem execFireArm_kept (s : State) : KeptBy s (execFireArm s) := by
  unfold execFireArm
  split
  · refine KeptBy.next ?_
    refine Kept.trans ?_ (State.settle_kept ..)
    refine Kept.trans ?_ (Kept.foldl (fun s x => ?_) _ _)
    · exact Kept.refl _
    · refine Kept.trans ?_ (State.armFire_kept ..)
      exact Kept.refl _
  · refine KeptBy.next ?_
    exact Kept.refl _

/-! ### Machine/Sentinel.lean -/

theorem State.evalMacro_kept (s : State) (m : Fin 8) (inputs : List Nat) : Kept s (State.evalMacro s m inputs).2 := by
  unfold State.evalMacro
  dsimp only
  refine Kept.trans ?_ Kept.rest
  refine Kept.trans ?_ (State.updArray_kept ..)
  exact Kept.refl _

theorem State.evalMacro_kept_eq {a0} {t : State} {s : State} {m : Fin 8} {inputs : List Nat}
    (heq : State.evalMacro s m inputs = (a0, t)) :
    Kept s t := by
  have := State.evalMacro_kept s m inputs
  rw [heq] at this
  exact this

theorem State.features_kept (s : State) (p : Nat) (inputs : List Nat) : Kept s (State.features s p inputs).2 := by
  unfold State.features
  refine Kept.trans ?_ (Kept.foldl_on (fun b => Prod.snd (b)) (fun b x => ?_) _ _)
  · dsimp only
    exact Kept.refl _
  · split
    dsimp only
    split
    · dsimp only
      refine Kept.trans ?_ (State.evalMacro_kept ..)
      exact Kept.refl _
    · dsimp only
      exact Kept.refl _

theorem State.features_kept_eq {a0} {t : State} {s : State} {p : Nat} {inputs : List Nat}
    (heq : State.features s p inputs = (a0, t)) :
    Kept s t := by
  have := State.features_kept s p inputs
  rw [heq] at this
  exact this

theorem State.confidences_kept (s : State) (width : Nat) (lines : List (List Nat)) :
    Kept s (State.confidences s width lines).2 := by
  unfold State.confidences
  refine Kept.trans ?_ (Kept.foldl_on (fun b => Prod.snd (b)) (fun b x => ?_) _ _)
  · dsimp only
    exact Kept.refl _
  · split
    split
    dsimp only
    refine Kept.trans ?_ (State.features_kept_eq (by assumption))
    exact Kept.refl _

theorem State.confidences_kept_eq {a0} {t : State} {s : State} {width : Nat} {lines : List (List Nat)}
    (heq : State.confidences s width lines = (a0, t)) :
    Kept s t := by
  have := State.confidences_kept s width lines
  rw [heq] at this
  exact this

theorem State.markScreened_kept (s : State) (k : Nat) : Kept s (State.markScreened s k) := by
  unfold State.markScreened
  refine Kept.trans ?_ Kept.rest
  exact Kept.refl _

theorem State.admitOne_kept (s : State) (r : LineSeq) (x : Baste) : Kept s (State.admitOne s r x).2 := by
  unfold State.admitOne
  dsimp only
  split
  · dsimp only
    refine Kept.trans ?_ Kept.rest
    exact Kept.refl _
  · dsimp only
    exact Kept.refl _

theorem State.admitOne_kept_eq {a0} {t : State} {s : State} {r : LineSeq} {x : Baste}
    (heq : State.admitOne s r x = (a0, t)) :
    Kept s t := by
  have := State.admitOne_kept s r x
  rw [heq] at this
  exact this

theorem State.admitAll_kept (s : State) (r : LineSeq) (l : List Baste) : Kept s (State.admitAll s r l).2 := by
  unfold State.admitAll
  dsimp only
  refine Kept.trans ?_ (Kept.foldl_on (fun b => Prod.snd (b)) (fun b x => ?_) _ _)
  · dsimp only
    exact Kept.refl _
  · dsimp only
    refine Kept.trans ?_ (State.admitOne_kept ..)
    exact Kept.refl _

theorem State.admitAll_kept_eq {a0} {t : State} {s : State} {r : LineSeq} {l : List Baste}
    (heq : State.admitAll s r l = (a0, t)) :
    Kept s t := by
  have := State.admitAll_kept s r l
  rw [heq] at this
  exact this

theorem State.formWindow_kept (s : State) (k : Nat) (r : LineSeq) (pe : Pos) (x : Baste) :
    Kept s (State.formWindow s k r pe x) := by
  unfold State.formWindow
  dsimp only
  split
  · refine Kept.trans ?_ Kept.rest
    refine Kept.trans ?_ (State.bump_kept ..)
    refine Kept.trans ?_ (State.submit_kept ..)
    exact Kept.refl _
  · refine Kept.trans ?_ (State.closingRecord_kept ..)
    refine Kept.trans ?_ Kept.rest
    refine Kept.trans ?_ (State.submit_kept ..)
    exact Kept.refl _

theorem State.formWindows_kept (s : State) (k : Nat) (ls : List BobLine) (confs : List Int) :
    Kept s (State.formWindows s k ls confs) := by
  unfold State.formWindows
  refine Kept.ite (Kept.refl _) ?_
  refine Kept.trans ?_ (State.wakeGroups_kept ..)
  refine Kept.trans ?_ (Kept.foldl (fun _ _ => State.formWindow_kept ..) _ _)
  exact State.admitAll_kept ..

theorem State.swathSweep_kept (s : State) (k : Nat) : Kept s (State.swathSweep s k) := by
  unfold State.swathSweep
  dsimp only
  refine Kept.trans ?_ (Kept.foldl (fun s x => ?_) _ _)
  · exact Kept.refl _
  · refine Kept.trans ?_ (State.sweepArray_kept ..)
    exact Kept.refl _

theorem State.screenSwath_kept (s : State) (ls : List BobLine) : Kept s (State.screenSwath s ls).2 := by
  unfold State.screenSwath
  split
  · dsimp only
    exact Kept.refl _
  · refine Kept.trans ?_ (State.confidences_kept ..)
    exact Kept.refl _

theorem State.screenSwath_kept_eq {a0} {t : State} {s : State} {ls : List BobLine}
    (heq : State.screenSwath s ls = (a0, t)) :
    Kept s t := by
  have := State.screenSwath_kept s ls
  rw [heq] at this
  exact this

theorem State.passSwath_kept (s : State) (k : Nat) : Kept s (State.passSwath s k) := by
  unfold State.passSwath
  refine Kept.trans ?_ Kept.rest
  exact Kept.refl _

theorem execSwathScreened_kept (s : State) : KeptBy s (execSwathScreened s) := by
  unfold execSwathScreened
  generalize s.nextSwath = o
  rcases o with _ | ⟨k, ls⟩
  · exact KeptBy.next (Kept.refl _)
  · refine KeptBy.when ?_
    dsimp only
    refine Kept.trans ?_ (State.settle_kept ..)
    refine Kept.trans ?_ (Kept.ite (Kept.refl _) (State.formWindows_kept ..))
    refine Kept.trans ?_ (State.passSwath_kept ..)
    refine Kept.trans ?_ (State.markScreened_kept ..)
    refine Kept.trans ?_ (State.swathSweep_kept ..)
    exact State.screenSwath_kept ..

theorem State.watchWake_kept (s : State) (m : Nat) : Kept s (State.watchWake s m) := by
  unfold State.watchWake
  dsimp only
  refine Kept.trans ?_ Kept.rest
  split
  · refine Kept.trans ?_ (State.restore_kept ..)
    refine Kept.trans ?_ (State.raiseWake_kept ..)
    exact Kept.refl _
  · refine Kept.trans ?_ (State.raiseWake_kept ..)
    exact Kept.refl _

theorem State.screenWatch_kept (s : State) (c : CsiId) (pixels : List Nat) : Kept s (State.screenWatch s c pixels) := by
  unfold State.screenWatch
  dsimp only
  split
  · exact Kept.after (State.watchWake_kept ..) ((State.checkFlat_kept ..).trans (State.confidences_kept ..))
  · exact (State.checkFlat_kept ..).trans (State.confidences_kept ..)

theorem execWatchTick_kept (pixels : List Nat) (s : State) : KeptBy s (execWatchTick pixels s) := by
  unfold execWatchTick
  split
  · refine KeptBy.when ?_
    dsimp only
    refine Kept.trans ?_ (State.settle_kept ..)
    split
    · exact Kept.rest
    · exact Kept.after (State.screenWatch_kept ..) Kept.rest
  · exact KeptBy.next (Kept.refl _)

end Sys2Proof.Machine
end

