-- ==== Sys2Proof/Laws/KeptPower.lean ====
section
/-! SUPPORT. Power, temperature and the coding tables:
what each operation and command keeps, as Laws/Kept.lean lists it. -/

namespace Sys2Proof.Machine

set_option Elab.async false

/-! ### Machine/Power.lean -/

theorem State.intakeVotes_kept (s : State) : Kept s (State.intakeVotes s) := by
  unfold State.intakeVotes
  split
  · refine Kept.trans ?_ (State.addVotes_kept ..)
    exact Kept.refl _
  · refine Kept.trans ?_ (State.dropVotes_kept ..)
    exact Kept.refl _

theorem State.leaveControl_kept (s : State) : Kept s (State.leaveControl s) := by
  unfold State.leaveControl
  refine Kept.trans ?_ Kept.rest
  exact Kept.refl _

theorem State.beginEntry_kept (s : State) (id : Nat) : Kept s (State.beginEntry s id) := by
  unfold State.beginEntry
  dsimp only
  split
  · split
    · split
      · exact Kept.refl _
      · refine Kept.trans ?_ (State.updSeam_kept ..)
        exact Kept.refl _
    · refine Kept.trans ?_ (State.updDom_kept ..)
      exact Kept.refl _
  · split
    · refine Kept.trans ?_ (State.leaveControl_kept ..)
      refine Kept.trans ?_ (State.updDom_kept ..)
      exact Kept.refl _
    · refine Kept.trans ?_ (State.updDom_kept ..)
      exact Kept.refl _

theorem execHysteresisExpiry_kept (domain : Nat) (s : State) : KeptBy s (execHysteresisExpiry domain s) := by
  unfold execHysteresisExpiry
  refine KeptBy.when ?_
  refine Kept.trans ?_ (State.settle_kept ..)
  refine Kept.trans ?_ (State.intakeVotes_kept ..)
  refine Kept.trans ?_ (State.beginEntry_kept ..)
  exact Kept.refl _

theorem State.dropPins_kept (s : State) : Kept s (State.dropPins s) := by
  unfold State.dropPins
  split
  · exact Kept.refl _
  · refine Kept.trans ?_ Kept.rest
    exact Kept.refl _

theorem State.restartHistory_kept (s : State) : Kept s (State.restartHistory s) := by
  unfold State.restartHistory
  refine Kept.trans ?_ Kept.rest
  exact Kept.refl _

theorem State.losePair_kept (s : State) (j : Nat) : Kept s (State.losePair s j) := by
  unfold State.losePair
  dsimp only
  split
  · refine Kept.trans ?_ (State.restartHistory_kept ..)
    refine Kept.trans ?_ (Kept.mk rfl rfl (fun h => h) (fun h => h) (fun h => h) (fun h => h) (fun h => h) (fun h => Memory.clear_wf _ _ h) (fun h => h))
    exact Kept.refl _
  · refine Kept.trans ?_ (Kept.mk rfl rfl (fun h => h) (fun h => h) (fun h => h) (fun h => h) (fun h => h) (fun h => Memory.clear_wf _ _ h) (fun h => h))
    exact Kept.refl _

theorem State.loseGroup_kept (s : State) (j : Nat) : Kept s (State.loseGroup s j) := by
  unfold State.loseGroup
  refine Kept.trans ?_ Kept.rest
  exact Kept.refl _

theorem State.loseHbm_kept (s : State) : Kept s (State.loseHbm s) := by
  unfold State.loseHbm
  refine Kept.trans ?_ (Kept.mk rfl rfl (fun h => h) (fun h => h) (fun h => h) (fun h => h) (fun _ => rfl) (fun h => h) (fun h => h))
  exact Kept.refl _

theorem State.loseEvents_kept (s : State) : Kept s (State.loseEvents s) := by
  unfold State.loseEvents
  exact (State.takeFree_kept ..).trans Kept.rest

theorem State.drainIntake_kept (s : State) : Kept s (State.drainIntake s) := by
  unfold State.drainIntake
  exact Kept.ite (Kept.refl _) (State.closeLines_kept ..)

theorem State.loseDomain_kept (s : State) (id : Nat) (retained : Bool) : Kept s (State.loseDomain s id retained) := by
  unfold State.loseDomain
  refine Kept.ite (Kept.ite (State.updControl_kept ..) Kept.rest) ?_
  split
  · dsimp only
    split
    · exact Kept.rest
    · exact Kept.after (State.loseEvents_kept ..) Kept.rest
  refine Kept.ite (Kept.ite (Kept.refl _) (State.loseHbm_kept ..)) ?_
  refine Kept.ite (State.drainIntake_kept ..) ?_
  refine Kept.ite (Kept.ite (Kept.refl _) (State.loseGroup_kept ..)) ?_
  refine Kept.ite (Kept.ite (Kept.refl _) (State.losePair_kept ..)) ?_
  split
  · dsimp only
    refine Kept.trans ?_ (State.dropPins_kept ..)
    exact State.updPanel_kept _ _ fun _ h =>
      Panel.memWf_of h (fun h => Memory.filter_wf _ h) (fun _ => rfl) (fun _ => rfl)
  · split
    · exact State.updSeam_kept ..
    · exact Kept.refl _

theorem execLowStateEntryComplete_kept (domain : Nat) (s : State) : KeptBy s (execLowStateEntryComplete domain s) := by
  unfold execLowStateEntryComplete
  split
  · refine KeptBy.when ?_
    dsimp only
    refine Kept.trans ?_ (State.settle_kept ..)
    split
    · split
      · refine Kept.trans ?_ (State.wakeDomain_kept ..)
        refine Kept.trans ?_ (State.intakeVotes_kept ..)
        refine Kept.trans ?_ (State.loseDomain_kept ..)
        refine Kept.trans ?_ (State.updDom_kept ..)
        exact Kept.refl _
      · refine Kept.trans ?_ (State.intakeVotes_kept ..)
        refine Kept.trans ?_ (State.loseDomain_kept ..)
        refine Kept.trans ?_ (State.updDom_kept ..)
        exact Kept.refl _
    · split
      · refine Kept.trans ?_ (State.wakeDomain_kept ..)
        refine Kept.trans ?_ (State.intakeVotes_kept ..)
        refine Kept.trans ?_ (State.loseDomain_kept ..)
        refine Kept.trans ?_ (State.updDom_kept ..)
        exact Kept.refl _
      · refine Kept.trans ?_ (State.intakeVotes_kept ..)
        refine Kept.trans ?_ (State.loseDomain_kept ..)
        refine Kept.trans ?_ (State.updDom_kept ..)
        exact Kept.refl _
  · refine KeptBy.next ?_
    exact Kept.refl _

theorem State.sweepPanel_kept (s : State) (p : PanelId) : Kept s (State.sweepPanel s p) := by
  unfold State.sweepPanel
  dsimp only
  refine Kept.trans ?_ (State.sweepArray_kept ..)
  refine Kept.trans ?_ (State.sweepArray_kept ..)
  exact Kept.refl _

theorem State.startPanel_kept (s : State) (p : PanelId) : Kept s (State.startPanel s p) := by
  unfold State.startPanel
  dsimp only
  split
  · refine Kept.trans ?_ (State.sweepPanel_kept ..)
    exact Kept.refl _
  · refine Kept.trans ?_ (State.updPanel_kept _ _ fun _ h => h)
    refine Kept.trans ?_ (State.sweepPanel_kept ..)
    exact Kept.refl _

theorem State.wakeControl_kept (s : State) (retained : Bool) : Kept s (State.wakeControl s retained) := by
  unfold State.wakeControl
  refine Kept.ite (State.continueControl_kept ..) ?_
  dsimp only
  refine Kept.trans ?_ (State.startPending_kept ..)
  split
  · exact Kept.after (State.startControl_kept ..) Kept.rest
  · exact Kept.rest

theorem State.beginReload_kept (s : State) : Kept s (State.beginReload s) := by
  unfold State.beginReload
  dsimp only
  refine Kept.trans ?_ (State.addVotes_kept ..)
  refine Kept.trans ?_ Kept.rest
  exact Kept.refl _

theorem State.reachOn_kept (s : State) (id : Nat) (retained : Bool) : Kept s (State.reachOn s id retained) := by
  unfold State.reachOn
  dsimp only
  split
  · refine Kept.trans ?_ (State.updSeam_kept ..)
    split
    · refine Kept.trans ?_ (State.updDom_kept ..)
      exact Kept.refl _
    · split
      · refine Kept.trans ?_ (State.wakeControl_kept ..)
        refine Kept.trans ?_ (State.updDom_kept ..)
        exact Kept.refl _
      · split
        · refine Kept.trans ?_ (State.realign_kept ..)
          refine Kept.trans ?_ (State.updDom_kept ..)
          exact Kept.refl _
        · split
          · refine Kept.trans ?_ (State.startPanel_kept ..)
            refine Kept.trans ?_ (State.updDom_kept ..)
            exact Kept.refl _
          · refine Kept.trans ?_ (State.updDom_kept ..)
            exact Kept.refl _
  · split
    · refine Kept.trans ?_ (State.updDom_kept ..)
      exact Kept.refl _
    · split
      · refine Kept.trans ?_ (State.wakeControl_kept ..)
        refine Kept.trans ?_ (State.updDom_kept ..)
        exact Kept.refl _
      · split
        · refine Kept.trans ?_ (State.realign_kept ..)
          refine Kept.trans ?_ (State.updDom_kept ..)
          exact Kept.refl _
        · split
          · refine Kept.trans ?_ (State.startPanel_kept ..)
            refine Kept.trans ?_ (State.updDom_kept ..)
            exact Kept.refl _
          · refine Kept.trans ?_ (State.updDom_kept ..)
            exact Kept.refl _

theorem execDomainOn_kept (domain : Nat) (s : State) : KeptBy s (execDomainOn domain s) := by
  unfold execDomainOn
  split
  · refine KeptBy.when (Kept.ite (Kept.ite (Kept.refl _) ?_) ?_)
    · exact (State.beginReload_kept s).trans (State.settle_kept ..)
    · exact ((State.reachOn_kept ..).trans (State.intakeVotes_kept ..)).trans (State.settle_kept ..)
  · exact KeptBy.next (Kept.refl _)

theorem State.reloaded_kept (s : State) : Kept s (State.reloaded s) := by
  unfold State.reloaded
  dsimp only
  refine Kept.trans ?_ (State.dropVotes_kept ..)
  refine Kept.trans ?_ (State.status_kept ..)
  refine Kept.trans ?_ (State.updDom_kept ..)
  refine Kept.trans ?_ Kept.rest
  refine Kept.trans ?_ (State.restartHistory_kept ..)
  refine Kept.trans ?_ (State.loadHbm_kept ..)
  exact Kept.refl _

theorem execHbmReloadComplete_based (flashError : Bool) (s : State) :
    BasedBy s (execHbmReloadComplete flashError s) := by
  unfold execHbmReloadComplete
  refine BasedBy.when ?_
  split
  · exact Based.refl _
  · split
    · refine Based.trans ?_ (State.settle_kept ..).based
      refine Based.trans ?_ (State.reloaded_kept ..).based
      exact Based.refl _
    · refine Based.trans ?_ (State.resetOutside_based ..)
      exact Based.refl _

theorem State.scrubWord_kept (s : State) (word : Nat) : Kept s (State.scrubWord s word) := by
  unfold State.scrubWord
  have h := State.readHbmWord_kept s word
  generalize s.readHbmWord word = x at h ⊢
  exact Kept.ite (h.trans ((State.writeHbm_kept ..).trans Kept.rest))
    (Kept.ite (h.trans (State.detectHbm_kept ..)) h)

theorem State.scrub_kept (s : State) (block : Nat) : Kept s (State.scrub s block) := by
  unfold State.scrub
  have h := Kept.foldl (f := fun (s : State) i => s.scrubWord (8 * block + i)) (fun _ _ => State.scrubWord_kept ..) s
    (List.range 8)
  generalize (List.range 8).foldl (fun (s : State) i => s.scrubWord (8 * block + i)) s = t at h ⊢
  exact h.trans (Kept.ite Kept.rest Kept.rest)

theorem execHousekeepingBurst_kept (word : Nat) (u : List Upset) (s : State) :
    KeptBy s (execHousekeepingBurst word u s) := by
  unfold execHousekeepingBurst
  refine KeptBy.when ?_
  refine Kept.trans ?_ (State.settle_kept ..)
  refine Kept.trans ?_ (State.scrub_kept ..)
  refine Kept.trans ?_ (State.upsets_kept ..)
  exact Kept.refl _

theorem execRestDelayExpiry_kept (s : State) : KeptBy s (execRestDelayExpiry s) := by
  unfold execRestDelayExpiry
  refine KeptBy.when ?_
  dsimp only
  refine Kept.trans ?_ (State.settle_kept ..)
  refine Kept.trans ?_ (State.statusPos_kept ..)
  refine Kept.trans ?_ Kept.rest
  refine Kept.trans ?_ (State.dropVotes_kept ..)
  refine Kept.trans ?_ (State.addVotes_kept ..)
  exact Kept.refl _

theorem execDeepRestDelayExpiry_kept (s : State) : KeptBy s (execDeepRestDelayExpiry s) := by
  unfold execDeepRestDelayExpiry
  refine KeptBy.when ?_
  dsimp only
  refine Kept.trans ?_ (State.settle_kept ..)
  refine Kept.trans ?_ (State.statusPos_kept ..)
  refine Kept.trans ?_ Kept.rest
  refine Kept.trans ?_ (State.dropVote_kept ..)
  exact Kept.refl _

theorem execTimebaseAlarm_kept (owner : Fin 2) (s : State) : KeptBy s (execTimebaseAlarm owner s) := by
  unfold execTimebaseAlarm
  refine KeptBy.when ?_
  refine Kept.trans ?_ (State.settle_kept ..)
  refine Kept.trans ?_ (State.raiseWake_kept ..)
  exact Kept.refl _

theorem execRegulatorNormalMode_kept (s : State) : KeptBy s (execRegulatorNormalMode s) := by
  unfold execRegulatorNormalMode
  refine KeptBy.when ?_
  refine Kept.trans ?_ Kept.rest
  exact Kept.refl _

theorem execRegulatorLowPower_kept (s : State) : KeptBy s (execRegulatorLowPower s) := by
  unfold execRegulatorLowPower
  refine KeptBy.when ?_
  refine Kept.trans ?_ Kept.rest
  exact Kept.refl _

theorem execVidStep_kept (s : State) : KeptBy s (execVidStep s) := by
  unfold execVidStep
  refine KeptBy.when ?_
  refine Kept.trans ?_ Kept.rest
  exact Kept.refl _

theorem execVidSettled_kept (s : State) : KeptBy s (execVidSettled s) := by
  unfold execVidSettled
  refine KeptBy.when ?_
  refine Kept.trans ?_ (State.settle_kept ..)
  refine Kept.trans ?_ (State.joinPll_kept ..)
  exact Kept.rest

theorem execAvsSample_kept (m : Margin) (s : State) : KeptBy s (execAvsSample m s) := by
  unfold execAvsSample
  refine KeptBy.when ?_
  dsimp only
  refine Kept.trans ?_ (State.settle_kept ..)
  split
  · split
    · refine Kept.trans ?_ Kept.rest
      exact Kept.refl _
    · refine Kept.trans ?_ Kept.rest
      exact Kept.refl _
  · refine Kept.trans ?_ Kept.rest
    exact Kept.refl _
  · split
    · refine Kept.trans ?_ Kept.rest
      exact Kept.refl _
    · split
      · refine Kept.trans ?_ (State.statusPos_kept ..)
        refine Kept.trans ?_ Kept.rest
        exact Kept.refl _
      · refine Kept.trans ?_ Kept.rest
        exact Kept.refl _

theorem State.thermalStop_kept (s : State) (why : Nat) : Kept s (State.thermalStop s why) := by
  unfold State.thermalStop
  dsimp only
  refine Kept.trans ?_ (State.settle_kept ..)
  refine Kept.trans ?_ (State.addVote_kept ..)
  refine Kept.trans ?_ (Kept.foldl (fun s x => ?_) _ _)
  · refine Kept.trans ?_ (Kept.mk rfl rfl (fun h => h) (fun _ => rfl) (fun h => h) (fun h => h) (fun h => h) (fun h => h) (fun h => h))
    split
    · refine Kept.trans ?_ (State.discardFires_kept ..)
      refine Kept.trans ?_ (State.assertFault_kept ..)
      refine Kept.trans ?_ (State.statusPos_kept ..)
      refine Kept.trans ?_ (State.bump_kept ..)
      exact Kept.refl _
    · refine Kept.trans ?_ (Kept.mk rfl rfl (fun h => h) (fun h => h) (fun _ => rfl) (fun h => h) (fun h => h) (fun h => h) (fun h => h))
      refine Kept.trans ?_ (State.assertFault_kept ..)
      refine Kept.trans ?_ (State.statusPos_kept ..)
      refine Kept.trans ?_ (State.bump_kept ..)
      exact Kept.refl _
  · refine Kept.trans ?_ (State.dropVote_kept ..)
    exact Kept.refl _

theorem State.startSwitch_kept (s : State) : Kept s (State.startSwitch s) := by
  unfold State.startSwitch
  dsimp only
  refine Kept.trans ?_ (State.statusPos_kept ..)
  refine Kept.trans ?_ Kept.rest
  exact Kept.refl _

theorem State.thermalRisk_kept (s : State) (t : Int) : Kept s (State.thermalRisk s t) := by
  unfold State.thermalRisk
  dsimp only
  split
  · split
    · refine Kept.trans ?_ (State.statusPos_kept ..)
      refine Kept.trans ?_ Kept.rest
      exact Kept.refl _
    · split
      · split
        · refine Kept.trans ?_ (State.statusPos_kept ..)
          refine Kept.trans ?_ Kept.rest
          exact Kept.refl _
        · refine Kept.trans ?_ Kept.rest
          exact Kept.refl _
      · split
        · refine Kept.trans ?_ (State.statusPos_kept ..)
          refine Kept.trans ?_ Kept.rest
          exact Kept.refl _
        · refine Kept.trans ?_ Kept.rest
          exact Kept.refl _
  · split
    · refine Kept.trans ?_ (State.statusPos_kept ..)
      refine Kept.trans ?_ Kept.rest
      exact Kept.refl _
    · split
      · split
        · refine Kept.trans ?_ (State.statusPos_kept ..)
          refine Kept.trans ?_ Kept.rest
          exact Kept.refl _
        · refine Kept.trans ?_ Kept.rest
          exact Kept.refl _
      · split
        · refine Kept.trans ?_ (State.statusPos_kept ..)
          refine Kept.trans ?_ Kept.rest
          exact Kept.refl _
        · refine Kept.trans ?_ Kept.rest
          exact Kept.refl _

theorem State.notePeak_kept (s : State) (t : Int) : Kept s (State.notePeak s t) := by
  unfold State.notePeak
  exact Kept.rest

theorem State.overheat_kept (s : State) : Kept s (State.overheat s) := by
  unfold State.overheat
  exact Kept.ite (Kept.refl _) (Kept.ite (State.startSwitch_kept ..) (State.thermalStop_kept ..))

theorem execTemperatureSample_kept (t : Int) (s : State) : KeptBy s (execTemperatureSample t s) := by
  unfold execTemperatureSample
  refine KeptBy.when ?_
  have h : Kept s ((s.notePeak t).thermalRisk t) := (State.notePeak_kept ..).trans (State.thermalRisk_kept ..)
  dsimp only
  split
  · exact (h.trans Kept.rest).trans (State.settle_kept ..)
  · split
    · exact (h.trans Kept.rest).trans (State.thermalStop_kept ..)
    · exact ((h.trans Kept.rest).trans (State.overheat_kept ..)).trans (State.settle_kept ..)

theorem State.endNormalSpans_kept (s : State) : Kept s (State.endNormalSpans s) := by
  unfold State.endNormalSpans
  refine Kept.trans ?_ (Kept.foldl (fun s x => ?_) _ _)
  · exact Kept.refl _
  · split
    · split
      · refine Kept.trans ?_ (State.finishSpan_kept ..)
        exact Kept.refl _
      · refine Kept.trans ?_ (State.endSpan_kept ..)
        exact Kept.refl _
    · split
      · dsimp only
        refine Kept.trans ?_ (State.dropVotes_kept ..)
        refine Kept.trans ?_ (State.updGroup_kept ..)
        exact Kept.refl _
      · exact Kept.refl _

theorem State.degrade_kept (s : State) : Kept s (State.degrade s) := by
  unfold State.degrade
  refine Kept.trans ?_ (State.wakeGroups_kept ..)
  refine Kept.trans ?_ (Kept.foldl (fun _ _ => State.startSpan_kept ..) _ _)
  refine Kept.trans ?_ (State.raiseEntry_kept ..)
  refine Kept.trans ?_ (State.statusPos_kept ..)
  exact Kept.rest

theorem execDegradedSwitchComplete_kept (s : State) : KeptBy s (execDegradedSwitchComplete s) := by
  unfold execDegradedSwitchComplete
  refine KeptBy.when ?_
  dsimp only
  refine Kept.trans ?_ (State.settle_kept ..)
  split
  · refine Kept.trans ?_ (State.degrade_kept ..)
    refine Kept.trans ?_ (State.endNormalSpans_kept ..)
    exact Kept.refl _
  · refine Kept.trans ?_ (State.endNormalSpans_kept ..)
    exact Kept.refl _

theorem execXt32Fail_kept (s : State) : KeptBy s (execXt32Fail s) := by
  unfold execXt32Fail
  dsimp only
  refine KeptBy.from (t := { s with time := { s.time with xtFrom := s.clock } }) Kept.rest (KeptBy.when ?_)
  refine Kept.trans ?_ (State.settle_kept ..)
  split
  · exact Kept.after (State.statusPos_kept ..) Kept.rest
  · exact Kept.rest

theorem execXt32Verified_kept (s : State) : KeptBy s (execXt32Verified s) := by
  unfold execXt32Verified
  refine KeptBy.when ?_
  refine Kept.trans ?_ (State.settle_kept ..)
  refine Kept.trans ?_ (State.statusPos_kept ..)
  refine Kept.trans ?_ Kept.rest
  exact Kept.refl _

/-! ### Machine/Tables.lean -/

theorem execTableFreeze_kept (s : State) : KeptBy s (execTableFreeze s) := by
  unfold execTableFreeze
  refine KeptBy.when ?_
  refine Kept.trans ?_ (State.settle_kept ..)
  refine Kept.trans ?_ (State.addVotes_kept ..)
  refine Kept.trans ?_ Kept.rest
  exact Kept.refl _

theorem execTableBuildComplete_kept (s : State) : KeptBy s (execTableBuildComplete s) := by
  unfold execTableBuildComplete
  refine KeptBy.when ?_
  dsimp only
  refine Kept.trans ?_ (State.settle_kept ..)
  refine Kept.trans ?_ (State.dropVotes_kept ..)
  refine Kept.trans ?_ Kept.rest
  exact Kept.refl _

theorem State.damageTable_kept (s : State) (tid : Nat) : Kept s (State.damageTable s tid) := by
  unfold State.damageTable
  split
  refine Kept.trans ?_ Kept.rest
  refine Kept.trans ?_ (State.takeFree_kept_eq (by assumption))
  exact Kept.refl _

theorem execTableCrcCheck_kept (damaged : List Nat) (s : State) : KeptBy s (execTableCrcCheck damaged s) := by
  unfold execTableCrcCheck
  refine KeptBy.when ?_
  dsimp only
  refine Kept.trans ?_ (State.settle_kept ..)
  refine Kept.trans ?_ (Kept.foldl (fun s x => ?_) _ _)
  · refine Kept.trans ?_ (Kept.foldl (fun s x => ?_) _ _)
    · exact Kept.refl _
    · refine Kept.trans ?_ (State.damageTable_kept ..)
      exact Kept.refl _
  · refine Kept.trans ?_ (State.assertFault_kept ..)
    refine Kept.trans ?_ (State.detect_kept ..)
    exact Kept.refl _

theorem State.adoptStaged_kept (s : State) : Kept s (State.adoptStaged s) := by
  unfold State.adoptStaged
  dsimp only
  split
  · exact Kept.refl _
  · refine Kept.trans ?_ (State.changeCoefs_kept ..)
    exact Kept.refl _

theorem execCalibrationWindowEnd_kept (s : State) : KeptBy s (execCalibrationWindowEnd s) := by
  unfold execCalibrationWindowEnd
  refine KeptBy.when ?_
  dsimp only
  refine Kept.trans ?_ (State.settle_kept ..)
  refine Kept.trans ?_ (State.raiseEntry_kept ..)
  refine Kept.trans ?_ (State.controlEvent_kept ..)
  split
  · split
    · refine Kept.trans ?_ Kept.rest
      refine Kept.trans ?_ Kept.rest
      exact Kept.refl _
    · refine Kept.trans ?_ Kept.rest
      exact Kept.refl _
  · split
    · refine Kept.trans ?_ Kept.rest
      refine Kept.trans ?_ (State.requestCommit_kept ..)
      refine Kept.trans ?_ (State.adoptStaged_kept ..)
      refine Kept.trans ?_ Kept.rest
      exact Kept.refl _
    · refine Kept.trans ?_ (State.requestCommit_kept ..)
      refine Kept.trans ?_ (State.adoptStaged_kept ..)
      refine Kept.trans ?_ Kept.rest
      exact Kept.refl _


end Sys2Proof.Machine
end

