-- ==== Sys2Proof/Laws/PerInstr.lean ====
section
/-! SUPPORT. One lemma per command for the statements about commands as syntax. -/

namespace Sys2Proof.Laws.Arrival

/-- No word spells the command: the table gives its row no bits, so it comes from outside with what it carries (log 102). -/
def Statement (i : Instr) : Prop := ∀ nbits w, decodeTableWord nbits w ≠ some i

theorem encoderEdge (d : DecId) (a b : PinLevel) : Statement (.encoderEdge d a b) := fun _ _ h => nomatch h
theorem crossCheckSpan : Statement .crossCheckSpan := fun _ _ h => nomatch h
theorem indexPulse (d : DecId) (widthNs : Nat) : Statement (.indexPulse d widthNs) := fun _ _ h => nomatch h
theorem rateWindow : Statement .rateWindow := fun _ _ h => nomatch h
theorem webStopped : Statement .webStopped := fun _ _ h => nomatch h
theorem webMoving : Statement .webMoving := fun _ _ h => nomatch h
theorem horizonClosure (tag : Tag) : Statement (.horizonClosure tag) := fun _ _ h => nomatch h
theorem markerFire (m : MarkerId) : Statement (.markerFire m) := fun _ _ h => nomatch h
theorem markerPulseEnd (m : MarkerId) : Statement (.markerPulseEnd m) := fun _ _ h => nomatch h
theorem fireArm : Statement .fireArm := fun _ _ h => nomatch h
theorem porstAssert : Statement .porstAssert := fun _ _ h => nomatch h
theorem rstAssert : Statement .rstAssert := fun _ _ h => nomatch h
theorem resetExit (testN : Bool) (junction : Int) : Statement (.resetExit testN junction) := fun _ _ h => nomatch h
theorem bootHoldRelease : Statement .bootHoldRelease := fun _ _ h => nomatch h
theorem pllLock : Statement .pllLock := fun _ _ h => nomatch h
theorem pllLockTimeout : Statement .pllLockTimeout := fun _ _ h => nomatch h
theorem formationTimeout : Statement .formationTimeout := fun _ _ h => nomatch h
theorem supplyFault (supply : Fin 4) : Statement (.supplyFault supply) := fun _ _ h => nomatch h
theorem brownOut : Statement .brownOut := fun _ _ h => nomatch h
theorem statBlinkTimer : Statement .statBlinkTimer := fun _ _ h => nomatch h
theorem flashOperationDone (error : Bool) : Statement (.flashOperationDone error) := fun _ _ h => nomatch h
theorem flashBusyTimeout : Statement .flashBusyTimeout := fun _ _ h => nomatch h
theorem frameStart (c : CsiId) (header : BitVec 32) : Statement (.frameStart c header) := fun _ _ h => nomatch h
theorem frameEnd (x : CsiShort) : Statement (.frameEnd x) := fun _ _ h => nomatch h
theorem lineStartPacket (x : CsiShort) : Statement (.lineStartPacket x) := fun _ _ h => nomatch h
theorem longPacket (c : CsiId) (k : LongPacket) (u : List Upset) : Statement (.longPacket c k u) := fun _ _ h => nomatch h
theorem ignoredPacket (c : CsiId) : Statement (.ignoredPacket c) := fun _ _ h => nomatch h
theorem lineAssemblyTimeout : Statement .lineAssemblyTimeout := fun _ _ h => nomatch h
theorem lineJournaled : Statement .lineJournaled := fun _ _ h => nomatch h
theorem csiClockLoss (c : CsiId) : Statement (.csiClockLoss c) := fun _ _ h => nomatch h
theorem swathScreened : Statement .swathScreened := fun _ _ h => nomatch h
theorem driftTrackerBlock (x : ArrayId) : Statement (.driftTrackerBlock x) := fun _ _ h => nomatch h
theorem watchTick (pixels : List Nat) : Statement (.watchTick pixels) := fun _ _ h => nomatch h
theorem calibrationWindowEnd : Statement .calibrationWindowEnd := fun _ _ h => nomatch h
theorem tableFreeze : Statement .tableFreeze := fun _ _ h => nomatch h
theorem tableCrcCheck (damaged : List Nat) : Statement (.tableCrcCheck damaged) := fun _ _ h => nomatch h
theorem nop (q : UnitId) : Statement (.nop q) := fun _ _ h => nomatch h
theorem loadt (p : PanelId) (u : List Upset) : Statement (.loadt p u) := fun _ _ h => nomatch h
theorem storet (p : PanelId) (u : List Upset) : Statement (.storet p u) := fun _ _ h => nomatch h
theorem streamw (p : PanelId) (u : List Upset) : Statement (.streamw p u) := fun _ _ h => nomatch h
theorem drain (p : PanelId) (u : List Upset) : Statement (.drain p u) := fun _ _ h => nomatch h
theorem mm (p : PanelId) (u : List Upset) : Statement (.mm p u) := fun _ _ h => nomatch h
theorem cimv (p : PanelId) (u : List Upset) : Statement (.cimv p u) := fun _ _ h => nomatch h
theorem vadd (p : PanelId) (u : List Upset) : Statement (.vadd p u) := fun _ _ h => nomatch h
theorem vsub (p : PanelId) (u : List Upset) : Statement (.vsub p u) := fun _ _ h => nomatch h
theorem vmul (p : PanelId) (u : List Upset) : Statement (.vmul p u) := fun _ _ h => nomatch h
theorem vmax (p : PanelId) (u : List Upset) : Statement (.vmax p u) := fun _ _ h => nomatch h
theorem vmin (p : PanelId) (u : List Upset) : Statement (.vmin p u) := fun _ _ h => nomatch h
theorem vabs (p : PanelId) (u : List Upset) : Statement (.vabs p u) := fun _ _ h => nomatch h
theorem vneg (p : PanelId) (u : List Upset) : Statement (.vneg p u) := fun _ _ h => nomatch h
theorem vcvt (p : PanelId) (u : List Upset) : Statement (.vcvt p u) := fun _ _ h => nomatch h
theorem vreq (p : PanelId) (u : List Upset) : Statement (.vreq p u) := fun _ _ h => nomatch h
theorem vlut (p : PanelId) (u : List Upset) : Statement (.vlut p u) := fun _ _ h => nomatch h
theorem vexp2 (p : PanelId) (u : List Upset) : Statement (.vexp2 p u) := fun _ _ h => nomatch h
theorem vlog2 (p : PanelId) (u : List Upset) : Statement (.vlog2 p u) := fun _ _ h => nomatch h
theorem vrcp (p : PanelId) (u : List Upset) : Statement (.vrcp p u) := fun _ _ h => nomatch h
theorem vsqrt (p : PanelId) (u : List Upset) : Statement (.vsqrt p u) := fun _ _ h => nomatch h
theorem vrsqrt (p : PanelId) (u : List Upset) : Statement (.vrsqrt p u) := fun _ _ h => nomatch h
theorem vdiv (p : PanelId) (u : List Upset) : Statement (.vdiv p u) := fun _ _ h => nomatch h
theorem vexp (p : PanelId) (u : List Upset) : Statement (.vexp p u) := fun _ _ h => nomatch h
theorem vsig (p : PanelId) (u : List Upset) : Statement (.vsig p u) := fun _ _ h => nomatch h
theorem vtanh (p : PanelId) (u : List Upset) : Statement (.vtanh p u) := fun _ _ h => nomatch h
theorem vgelu (p : PanelId) (u : List Upset) : Statement (.vgelu p u) := fun _ _ h => nomatch h
theorem vsilu (p : PanelId) (u : List Upset) : Statement (.vsilu p u) := fun _ _ h => nomatch h
theorem vrelu (p : PanelId) (u : List Upset) : Statement (.vrelu p u) := fun _ _ h => nomatch h
theorem vleaky (p : PanelId) (u : List Upset) : Statement (.vleaky p u) := fun _ _ h => nomatch h
theorem vsumr (p : PanelId) (u : List Upset) : Statement (.vsumr p u) := fun _ _ h => nomatch h
theorem vmaxr (p : PanelId) (u : List Upset) : Statement (.vmaxr p u) := fun _ _ h => nomatch h
theorem vsmax (p : PanelId) (u : List Upset) : Statement (.vsmax p u) := fun _ _ h => nomatch h
theorem vnorm (p : PanelId) (u : List Upset) : Statement (.vnorm p u) := fun _ _ h => nomatch h
theorem loop (q : UnitId) : Statement (.loop q) := fun _ _ h => nomatch h
theorem sigk (q : UnitId) : Statement (.sigk q) := fun _ _ h => nomatch h
theorem tokenArrival (q : UnitId) : Statement (.tokenArrival q) := fun _ _ h => nomatch h
theorem waitk (q : UnitId) : Statement (.waitk q) := fun _ _ h => nomatch h
theorem combine (p : PanelId) (u : List Upset) : Statement (.combine p u) := fun _ _ h => nomatch h
theorem combineTreeComplete (tree : Fin 16) : Statement (.combineTreeComplete tree) := fun _ _ h => nomatch h
theorem pin (p : PanelId) : Statement (.pin p) := fun _ _ h => nomatch h
theorem free (p : PanelId) : Statement (.free p) := fun _ _ h => nomatch h
theorem streamFillComplete (u : List Upset) : Statement (.streamFillComplete u) := fun _ _ h => nomatch h
theorem vote (q : UnitId) : Statement (.vote q) := fun _ _ h => nomatch h
theorem unvote (q : UnitId) : Statement (.unvote q) := fun _ _ h => nomatch h
theorem slot (p : PanelId) : Statement (.slot p) := fun _ _ h => nomatch h
theorem slotSpanEnd (p : PanelId) : Statement (.slotSpanEnd p) := fun _ _ h => nomatch h
theorem verdict (p : PanelId) (u : List Upset) : Statement (.verdict p u) := fun _ _ h => nomatch h
theorem halt (q : UnitId) : Statement (.halt q) := fun _ _ h => nomatch h
theorem pllsw : Statement .pllsw := fun _ _ h => nomatch h
theorem waite : Statement .waite := fun _ _ h => nomatch h
theorem stage (u : List Upset) : Statement (.stage u) := fun _ _ h => nomatch h
theorem commit : Statement .commit := fun _ _ h => nomatch h
theorem viewFillComplete (tag : Tag) (u : List Upset) : Statement (.viewFillComplete tag u) := fun _ _ h => nomatch h
theorem spanStart (g : Nat) : Statement (.spanStart g) := fun _ _ h => nomatch h
theorem spanEnd (g : Nat) : Statement (.spanEnd g) := fun _ _ h => nomatch h
theorem segmentSeal (start : Pos) : Statement (.segmentSeal start) := fun _ _ h => nomatch h
theorem segmentExpiry (start : Pos) : Statement (.segmentExpiry start) := fun _ _ h => nomatch h
theorem homeSegmentDrop (start : Pos) : Statement (.homeSegmentDrop start) := fun _ _ h => nomatch h
theorem readEvents (station n : Byte) : Statement (.readEvents station n) := fun _ _ h => nomatch h
theorem acknowledgeAndDrain (station : Byte) (tEnd : BitVec 16) : Statement (.acknowledgeAndDrain station tEnd) := fun _ _ h => nomatch h
theorem readStatus (station page : Byte) : Statement (.readStatus station page) := fun _ _ h => nomatch h
theorem identity (station : Byte) : Statement (.identity station) := fun _ _ h => nomatch h
theorem livePositionLowHalf (station : Byte) : Statement (.livePositionLowHalf station) := fun _ _ h => nomatch h
theorem livePositionHighHalf (station : Byte) : Statement (.livePositionHighHalf station) := fun _ _ h => nomatch h
theorem atomicPositionSnapshot (station : Byte) : Statement (.atomicPositionSnapshot station) := fun _ _ h => nomatch h
theorem transactionCutShort (sent : List Byte) (lastBits clocked : Nat) : Statement (.transactionCutShort sent lastBits clocked) := fun _ _ h => nomatch h
theorem heldRecordEntry : Statement .heldRecordEntry := fun _ _ h => nomatch h
theorem linkSignalDetect (q : SeamId) : Statement (.linkSignalDetect q) := fun _ _ h => nomatch h
theorem laneLock (q : SeamId) (inverted : BitVec 4) : Statement (.laneLock q inverted) := fun _ _ h => nomatch h
theorem laneIdentify (q : SeamId) (lanes : List Nat) (partner : Fin 4) : Statement (.laneIdentify q lanes partner) := fun _ _ h => nomatch h
theorem laneDeskew (q : SeamId) (skewPs : Nat) : Statement (.laneDeskew q skewPs) := fun _ _ h => nomatch h
theorem roundTripMeasure (q : SeamId) (trips : List Nat) : Statement (.roundTripMeasure q trips) := fun _ _ h => nomatch h
theorem linkUp (q : SeamId) : Statement (.linkUp q) := fun _ _ h => nomatch h
theorem trainingTimeout (q : SeamId) : Statement (.trainingTimeout q) := fun _ _ h => nomatch h
theorem flitSlot (q : SeamId) : Statement (.flitSlot q) := fun _ _ h => nomatch h
theorem dataFlit (q : SeamId) (f : Flit) : Statement (.dataFlit q f) := fun _ _ h => nomatch h
theorem nullFlit (q : SeamId) (f : Flit) : Statement (.nullFlit q f) := fun _ _ h => nomatch h
theorem retryTimeout (q : SeamId) : Statement (.retryTimeout q) := fun _ _ h => nomatch h
theorem retryBudgetExpiry (q : SeamId) : Statement (.retryBudgetExpiry q) := fun _ _ h => nomatch h
theorem sleep (q : SeamId) (f : Flit) : Statement (.sleep q f) := fun _ _ h => nomatch h
theorem sleepAck (q : SeamId) (f : Flit) : Statement (.sleepAck q f) := fun _ _ h => nomatch h
theorem stay (q : SeamId) (f : Flit) : Statement (.stay q f) := fun _ _ h => nomatch h
theorem wake (q : SeamId) (f : Flit) : Statement (.wake q f) := fun _ _ h => nomatch h
theorem electricalIdleEntry (q : SeamId) : Statement (.electricalIdleEntry q) := fun _ _ h => nomatch h
theorem laneLockLost (q : SeamId) : Statement (.laneLockLost q) := fun _ _ h => nomatch h
theorem signalLost (q : SeamId) : Statement (.signalLost q) := fun _ _ h => nomatch h
theorem creditStall (q : SeamId) (vc : Fin 4) : Statement (.creditStall q vc) := fun _ _ h => nomatch h
theorem failureIdleEnd (q : SeamId) : Statement (.failureIdleEnd q) := fun _ _ h => nomatch h
theorem seamclkLoss : Statement .seamclkLoss := fun _ _ h => nomatch h
theorem hello (q : SeamId) : Statement (.hello q) := fun _ _ h => nomatch h
theorem helloPeriodic (q : SeamId) : Statement (.helloPeriodic q) := fun _ _ h => nomatch h
theorem tickSend : Statement .tickSend := fun _ _ h => nomatch h
theorem tick (q : SeamId) : Statement (.tick q) := fun _ _ h => nomatch h
theorem correctionStep : Statement .correctionStep := fun _ _ h => nomatch h
theorem followerMove : Statement .followerMove := fun _ _ h => nomatch h
theorem tickLoss : Statement .tickLoss := fun _ _ h => nomatch h
theorem latencySweepStart : Statement .latencySweepStart := fun _ _ h => nomatch h
theorem latencyStart (q : SeamId) : Statement (.latencyStart q) := fun _ _ h => nomatch h
theorem linkProbeSend : Statement .linkProbeSend := fun _ _ h => nomatch h
theorem linkProbe (q : SeamId) : Statement (.linkProbe q) := fun _ _ h => nomatch h
theorem latencyEcho (q : SeamId) : Statement (.latencyEcho q) := fun _ _ h => nomatch h
theorem latencyEchoTimeout : Statement .latencyEchoTimeout := fun _ _ h => nomatch h
theorem latencyReport (q : SeamId) : Statement (.latencyReport q) := fun _ _ h => nomatch h
theorem latencyCollectionEnd : Statement .latencyCollectionEnd := fun _ _ h => nomatch h
theorem latencyCommit (q : SeamId) : Statement (.latencyCommit q) := fun _ _ h => nomatch h
theorem latencyAbort (q : SeamId) : Statement (.latencyAbort q) := fun _ _ h => nomatch h
theorem latencyRequest (q : SeamId) : Statement (.latencyRequest q) := fun _ _ h => nomatch h
theorem calibrationStart (q : SeamId) : Statement (.calibrationStart q) := fun _ _ h => nomatch h
theorem calibrationSumsDone : Statement .calibrationSumsDone := fun _ _ h => nomatch h
theorem calibrationFactor (q : SeamId) : Statement (.calibrationFactor q) := fun _ _ h => nomatch h
theorem calibrationReport (q : SeamId) : Statement (.calibrationReport q) := fun _ _ h => nomatch h
theorem calibrationCollectionEnd : Statement .calibrationCollectionEnd := fun _ _ h => nomatch h
theorem calibrationCommit (q : SeamId) : Statement (.calibrationCommit q) := fun _ _ h => nomatch h
theorem calibrationAbort (q : SeamId) : Statement (.calibrationAbort q) := fun _ _ h => nomatch h
theorem calibrationRequest (q : SeamId) : Statement (.calibrationRequest q) := fun _ _ h => nomatch h
theorem haloLine (q : SeamId) : Statement (.haloLine q) := fun _ _ h => nomatch h
theorem replayLine (q : SeamId) : Statement (.replayLine q) := fun _ _ h => nomatch h
theorem eventRecord (q : SeamId) : Statement (.eventRecord q) := fun _ _ h => nomatch h
theorem segmentRead (q : SeamId) : Statement (.segmentRead q) := fun _ _ h => nomatch h
theorem segmentReply (q : SeamId) : Statement (.segmentReply q) := fun _ _ h => nomatch h
theorem gone (q : SeamId) : Statement (.gone q) := fun _ _ h => nomatch h
theorem evictionNotice (q : SeamId) : Statement (.evictionNotice q) := fun _ _ h => nomatch h
theorem lineDeadline (east : Bool) : Statement (.lineDeadline east) := fun _ _ h => nomatch h
theorem hbmRepairComplete (ok : Bool) : Statement (.hbmRepairComplete ok) := fun _ _ h => nomatch h
theorem streamLineRefill : Statement .streamLineRefill := fun _ _ h => nomatch h
theorem hysteresisExpiry (domain : Nat) : Statement (.hysteresisExpiry domain) := fun _ _ h => nomatch h
theorem domainOn (domain : Nat) : Statement (.domainOn domain) := fun _ _ h => nomatch h
theorem restDelayExpiry : Statement .restDelayExpiry := fun _ _ h => nomatch h
theorem deepRestDelayExpiry : Statement .deepRestDelayExpiry := fun _ _ h => nomatch h
theorem timebaseAlarm (owner : Fin 2) : Statement (.timebaseAlarm owner) := fun _ _ h => nomatch h
theorem hbmReloadComplete (flashError : Bool) : Statement (.hbmReloadComplete flashError) := fun _ _ h => nomatch h
theorem vidStep : Statement .vidStep := fun _ _ h => nomatch h
theorem regulatorNormalMode : Statement .regulatorNormalMode := fun _ _ h => nomatch h
theorem regulatorLowPower : Statement .regulatorLowPower := fun _ _ h => nomatch h
theorem avsSample (m : Margin) : Statement (.avsSample m) := fun _ _ h => nomatch h
theorem temperatureSample (t : Int) : Statement (.temperatureSample t) := fun _ _ h => nomatch h
theorem degradedSwitchComplete : Statement .degradedSwitchComplete := fun _ _ h => nomatch h
theorem xt32Fail : Statement .xt32Fail := fun _ _ h => nomatch h
theorem xt32Verified : Statement .xt32Verified := fun _ _ h => nomatch h
theorem refclkLoss : Statement .refclkLoss := fun _ _ h => nomatch h
theorem hbmPllLoss : Statement .hbmPllLoss := fun _ _ h => nomatch h
theorem powerFail : Statement .powerFail := fun _ _ h => nomatch h
theorem inputRestored : Statement .inputRestored := fun _ _ h => nomatch h
theorem holdVSample (mv vinMv : Nat) (dq : Int) (meanUa : Nat) : Statement (.holdVSample mv vinMv dq meanUa) := fun _ _ h => nomatch h
theorem holdupArm : Statement .holdupArm := fun _ _ h => nomatch h
theorem holdupWindow : Statement .holdupWindow := fun _ _ h => nomatch h
theorem periodicCommit : Statement .periodicCommit := fun _ _ h => nomatch h
theorem vaonInPowerUp : Statement .vaonInPowerUp := fun _ _ h => nomatch h
theorem admissionStepComplete (x : StepInput) : Statement (.admissionStepComplete x) := fun _ _ h => nomatch h
theorem lowStateEntryComplete (domain : Nat) : Statement (.lowStateEntryComplete domain) := fun _ _ h => nomatch h
theorem tableBuildComplete : Statement .tableBuildComplete := fun _ _ h => nomatch h
theorem calibrationSweepStart : Statement .calibrationSweepStart := fun _ _ h => nomatch h
theorem calibrationFactorTimeout : Statement .calibrationFactorTimeout := fun _ _ h => nomatch h
theorem flushStepTimeout : Statement .flushStepTimeout := fun _ _ h => nomatch h
theorem seamclkReturn : Statement .seamclkReturn := fun _ _ h => nomatch h
theorem vidSettled : Statement .vidSettled := fun _ _ h => nomatch h
theorem housekeepingBurst (word : Nat) (u : List Upset) : Statement (.housekeepingBurst word u) := fun _ _ h => nomatch h

end Sys2Proof.Laws.Arrival
end

