-- ==== Sys2Proof/Laws/Quiet.lean ====
section
/-! SUPPORT. What forming records, voting and waking leave as it was. -/

namespace Sys2Proof.Machine

set_option Elab.async false

theorem Quiet.refl (s : State) : Quiet s s := ⟨rfl⟩

theorem Quiet.trans {s t u : State} (h : Quiet s t) (k : Quiet t u) : Quiet s u := by
  refine ⟨?_⟩
  rw [k.same, h.same]

theorem Quiet.rest {X : State} {free wake control events seams faults power} :
    Quiet X ⟨X.pending, X.clock, free, X.web, X.time, wake, X.levels, X.pins, X.adm, X.fuses, X.pat, X.flash, X.intake,
      X.bobbin, X.sentinel, X.panels, control, X.commons, X.hbm, X.tables, X.history, X.look, events, X.port, X.markers,
      seams, X.bolt, faults, power, X.hold⟩ := ⟨rfl⟩

theorem Quiet.foldl {α : Type} {f : State → α → State} (h : ∀ s x, Quiet s (f s x)) (s : State) (l : List α) :
    Quiet s (l.foldl f s) := by
  induction l generalizing s with
  | nil => exact Quiet.refl _
  | cons a l ih => exact (h s a).trans (ih _)

theorem Quiet.ite {c : Prop} [Decidable c] {s a b : State} (h : Quiet s a) (k : Quiet s b) : Quiet s (if c then a else b) := by
  split
  · exact h
  · exact k

theorem State.updSeam_quiet (s : State) (q : SeamId) (f : Seam → Seam) : Quiet s (State.updSeam s q f) := by
  unfold State.updSeam
  refine Quiet.trans ?_ Quiet.rest
  exact Quiet.refl _

theorem State.queueOn_quiet (s : State) (q : SeamId) (vc type : Nat) (dest src : Addr) (payload : List Byte)
    (line : Option LineSeq) (arrived : Option Nat) :
    Quiet s (State.queueOn s q vc type dest src payload line arrived) := by
  unfold State.queueOn
  refine Quiet.trans ?_ (State.updSeam_quiet ..)
  exact Quiet.refl _

theorem State.countUnroutable_quiet (s : State) (q : SeamId) : Quiet s (State.countUnroutable s q) := by
  unfold State.countUnroutable
  refine Quiet.trans ?_ (State.updSeam_quiet ..)
  exact Quiet.refl _

theorem State.sendTo_quiet (s : State) (vc type : Nat) (dest : Addr) (payload : List Byte) :
    Quiet s (State.sendTo s vc type dest payload) := by
  unfold State.sendTo
  split
  · exact Quiet.ite (Quiet.refl _) (Quiet.ite (State.queueOn_quiet ..) (State.countUnroutable_quiet ..))
  · exact Quiet.refl _

theorem State.broadcast_quiet (s : State) (vc type : Nat) (payload : List Byte) :
    Quiet s (State.broadcast s vc type payload) := by
  unfold State.broadcast
  refine Quiet.trans ?_ (Quiet.foldl (fun s x => ?_) _ _)
  · exact Quiet.refl _
  · split
    · refine Quiet.trans ?_ (State.queueOn_quiet ..)
      exact Quiet.refl _
    · exact Quiet.refl _

theorem State.queueEvent_quiet (s : State) (q : SeamId) (dest src : Addr) (r : Record) :
    Quiet s (State.queueEvent s q dest src r) := by
  unfold State.queueEvent
  dsimp only
  split
  · refine Quiet.trans ?_ Quiet.rest
    refine Quiet.trans ?_ (State.updSeam_quiet ..)
    refine Quiet.trans ?_ (State.queueOn_quiet ..)
    exact Quiet.refl _
  · refine Quiet.trans ?_ (State.updSeam_quiet ..)
    refine Quiet.trans ?_ (State.queueOn_quiet ..)
    exact Quiet.refl _

theorem State.relay_quiet (s : State) (r : Record) : Quiet s (State.relay s r) := by
  unfold State.relay
  split
  · split
    · split
      · refine Quiet.trans ?_ (State.queueEvent_quiet ..)
        exact Quiet.refl _
      · refine Quiet.trans ?_ (State.countUnroutable_quiet ..)
        exact Quiet.refl _
    · exact Quiet.refl _
  · exact Quiet.refl _

theorem State.takeFree_quiet (s : State) : Quiet s (State.takeFree s).2 := by
  unfold State.takeFree
  dsimp only
  refine Quiet.trans ?_ Quiet.rest
  exact Quiet.refl _

theorem State.takeFree_quiet_eq {a0} {t : State} {s : State} (heq : State.takeFree s = (a0, t)) : Quiet s t := by
  have := State.takeFree_quiet s
  rw [heq] at this
  exact this

theorem State.updDom_quiet (s : State) (id : Nat) (f : Domain → Domain) : Quiet s (State.updDom s id f) := by
  unfold State.updDom
  refine Quiet.trans ?_ Quiet.rest
  exact Quiet.refl _

theorem State.tryLoss_quiet (s : State) : Quiet s (State.tryLoss s) := by
  unfold State.tryLoss
  dsimp only
  split
  · refine Quiet.trans ?_ (State.relay_quiet ..)
    refine Quiet.trans ?_ Quiet.rest
    exact Quiet.refl _
  · exact Quiet.refl _

theorem State.enterOne_quiet (s : State) (r : Record) : Quiet s (State.enterOne s r) := by
  unfold State.enterOne
  exact Quiet.ite Quiet.rest (Quiet.trans Quiet.rest (State.relay_quiet ..))

theorem State.enterRecord_quiet (s : State) (r : Record) : Quiet s (State.enterRecord s r) := by
  unfold State.enterRecord
  exact (State.enterOne_quiet ..).trans (State.tryLoss_quiet ..)

theorem State.submit_quiet (s : State) (r : Record) : Quiet s (State.submit s r) := by
  unfold State.submit
  split
  · exact Quiet.refl _
  · split
    · refine Quiet.trans ?_ (State.enterRecord_quiet ..)
      exact Quiet.refl _
    · refine Quiet.trans ?_ Quiet.rest
      exact Quiet.refl _

theorem State.status_quiet (s : State) (cause small : Nat) (body : BitVec 128) :
    Quiet s (State.status s cause small body) := by
  unfold State.status
  refine Quiet.trans ?_ (State.submit_quiet ..)
  exact Quiet.refl _

theorem State.statusPos_quiet (s : State) (cause small : Nat) : Quiet s (State.statusPos s cause small) := by
  unfold State.statusPos
  refine Quiet.trans ?_ (State.status_quiet ..)
  exact Quiet.refl _

theorem State.boltRecord_quiet (s : State) (sub small at16 : Nat) (detail : Nat) :
    Quiet s (State.boltRecord s sub small at16 detail) := by
  unfold State.boltRecord
  refine Quiet.trans ?_ (State.submit_quiet ..)
  exact Quiet.refl _

theorem State.faultId_quiet (s : State) : Quiet s (State.faultId s).2 := by
  unfold State.faultId
  split
  · exact Quiet.refl _
  · exact State.takeFree_quiet ..

theorem State.formFault_quiet (s : State) (cause unit detail : Nat) : Quiet s (State.formFault s cause unit detail).2 := by
  unfold State.formFault
  have h := State.faultId_quiet s
  generalize s.faultId = x at h ⊢
  have k := h.trans (State.submit_quiet x.2 (x.2.mkRecord 9 0 cause unit
    (bodyAt 0x10 48 x.2.position.toNat ||| bodyAt 0x18 64 detail)))
  exact Quiet.ite (k.trans Quiet.rest) k

theorem State.faultRecord_quiet (s : State) (cause unit detail : Nat) :
    Quiet s (State.faultRecord s cause unit detail) := State.formFault_quiet ..

theorem State.noteDrops_quiet (s : State) : Quiet s (State.noteDrops s) := by
  unfold State.noteDrops
  split
  · rename_i q _
    have h := State.updSeam_quiet s q fun p => { p with dropNoted := true }
    generalize s.updSeam q (fun p => { p with dropNoted := true }) = t at h ⊢
    refine h.trans ?_
    dsimp only
    unfold State.detect
    cases t.sameFault 37 q.val q.val with
    | some f => exact Quiet.rest
    | none =>
      have h := State.formFault_quiet t 0x25 q.val s.seams[q].dropped
      generalize t.formFault 0x25 q.val s.seams[q].dropped = x at h ⊢
      exact h.trans (Quiet.ite Quiet.rest (Quiet.refl _))
  · exact Quiet.refl _

theorem State.markRecord_quiet (s : State) (sub marker : Nat) (target : Pos) (covered : Nat) (tag : Tag) :
    Quiet s (State.markRecord s sub marker target covered tag) := by
  unfold State.markRecord
  refine Quiet.trans ?_ (State.submit_quiet ..)
  exact Quiet.refl _

theorem State.requestPll_quiet (s : State) : Quiet s (State.requestPll s) := by
  unfold State.requestPll
  split
  · exact Quiet.refl _
  · refine Quiet.trans ?_ Quiet.rest
    exact Quiet.refl _

theorem State.settleClocks_quiet (s : State) : Quiet s (State.settleClocks s) := by
  unfold State.settleClocks
  dsimp only
  refine Quiet.trans ?_ Quiet.rest
  split
  · refine Quiet.trans ?_ (State.requestPll_quiet ..)
    exact Quiet.refl _
  · split
    · refine Quiet.trans ?_ Quiet.rest
      exact Quiet.refl _
    · exact Quiet.refl _

theorem State.retrainPort_quiet (s : State) (id : Nat) : Quiet s (State.retrainPort s id) := by
  unfold State.retrainPort
  split
  · exact State.updSeam_quiet ..
  · exact Quiet.refl _

theorem State.wakeDomain_quiet (s : State) (id : Nat) : Quiet s (State.wakeDomain s id) := by
  have low (f : Domain → Domain) (b : Bool) : Quiet s (if b then
      { State.updDom s id f with power := { (State.updDom s id f).power with regulator := .rising, regSince := s.clock } }
      else State.updDom s id f) :=
    Quiet.ite ((State.updDom_quiet ..).trans Quiet.rest)
      (State.updDom_quiet ..)
  unfold State.wakeDomain
  refine Quiet.ite (Quiet.refl _) ?_
  generalize hd : s.dom id = d
  clear hd
  rcases d with _ | _ | _ | _ | ⟨r, _ | _⟩
  all_goals first
    | exact Quiet.refl _
    | exact State.retrainPort_quiet ..
    | exact low _ _
    | exact (State.takeFree_quiet s).trans (Quiet.ite (State.updDom_quiet ..) (State.updDom_quiet ..))

theorem State.addVote_quiet (s : State) (c : Client) (id : Nat) (retain : Bool) :
    Quiet s (State.addVote s c id retain) := by
  unfold State.addVote
  dsimp only
  split
  · split
    · exact Quiet.refl _
    · refine Quiet.trans ?_ Quiet.rest
      exact Quiet.refl _
  · refine Quiet.trans ?_ (State.wakeDomain_quiet ..)
    split
    · exact Quiet.refl _
    · refine Quiet.trans ?_ Quiet.rest
      exact Quiet.refl _

theorem State.startHysteresis_quiet (s : State) (id : Nat) : Quiet s (State.startHysteresis s id) := by
  unfold State.startHysteresis
  split
  · exact Quiet.refl _
  · refine Quiet.trans ?_ (State.updDom_quiet ..)
    exact Quiet.refl _

theorem State.dropRetained_quiet (s : State) (id : Nat) : Quiet s (State.dropRetained s id) := by
  unfold State.dropRetained
  split
  · refine Quiet.trans ?_ (State.updDom_quiet ..)
    exact Quiet.refl _
  · exact Quiet.refl _

theorem State.dropVote_quiet (s : State) (c : Client) (id : Nat) (retain : Bool) :
    Quiet s (State.dropVote s c id retain) := by
  unfold State.dropVote
  dsimp only
  split
  · split
    · refine Quiet.trans ?_ (State.dropRetained_quiet ..)
      refine Quiet.trans ?_ Quiet.rest
      exact Quiet.refl _
    · refine Quiet.trans ?_ (State.startHysteresis_quiet ..)
      refine Quiet.trans ?_ Quiet.rest
      exact Quiet.refl _
  · exact Quiet.refl _

theorem State.addVotes_quiet (s : State) (c : Client) (ids : List Nat) (retain : Bool) :
    Quiet s (State.addVotes s c ids retain) := by
  unfold State.addVotes
  refine Quiet.trans ?_ (Quiet.foldl (fun s x => ?_) _ _)
  · exact Quiet.refl _
  · refine Quiet.trans ?_ (State.addVote_quiet ..)
    exact Quiet.refl _

theorem State.dropVotes_quiet (s : State) (c : Client) (ids : List Nat) (retain : Bool) :
    Quiet s (State.dropVotes s c ids retain) := by
  unfold State.dropVotes
  refine Quiet.trans ?_ (Quiet.foldl (fun s x => ?_) _ _)
  · exact Quiet.refl _
  · refine Quiet.trans ?_ (State.dropVote_quiet ..)
    exact Quiet.refl _

theorem State.eventVotes_quiet (s : State) : Quiet s (State.eventVotes s) := by
  unfold State.eventVotes
  dsimp only
  split
  · split
    · refine Quiet.trans ?_ (State.addVote_quiet ..)
      refine Quiet.trans ?_ (State.addVote_quiet ..)
      exact Quiet.refl _
    · refine Quiet.trans ?_ (State.dropVote_quiet ..)
      refine Quiet.trans ?_ (State.addVote_quiet ..)
      exact Quiet.refl _
  · split
    · refine Quiet.trans ?_ (State.addVote_quiet ..)
      refine Quiet.trans ?_ (State.dropVote_quiet ..)
      exact Quiet.refl _
    · refine Quiet.trans ?_ (State.dropVote_quiet ..)
      refine Quiet.trans ?_ (State.dropVote_quiet ..)
      exact Quiet.refl _

theorem State.checkRestored_quiet (s : State) : Quiet s (State.checkRestored s) := by
  unfold State.checkRestored
  exact Quiet.ite Quiet.rest (Quiet.refl _)

theorem State.recordWake_quiet (s : State) (cause detail : Nat) : Quiet s (State.recordWake s cause detail) := by
  unfold State.recordWake
  split
  · exact Quiet.refl _
  · refine Quiet.trans ?_ (State.status_quiet ..)
    exact Quiet.trans (t := { s with wake := _ }) Quiet.rest Quiet.rest

theorem State.noteFirst_quiet (s : State) : Quiet s (State.noteFirst s) := by
  unfold State.noteFirst
  split
  · exact Quiet.refl _
  · exact Quiet.rest

theorem State.raiseWake_quiet (s : State) (cause detail : Nat) (targets : List Nat) :
    Quiet s (State.raiseWake s cause detail targets) := by
  unfold State.raiseWake
  refine Quiet.trans ?_ (State.addVotes_quiet ..)
  refine Quiet.trans ?_ (State.recordWake_quiet ..)
  exact Quiet.refl _

theorem State.startControl_quiet (s : State) (pc : Nat) : Quiet s (State.startControl s pc) := by
  unfold State.startControl
  dsimp only
  refine Quiet.trans ?_ (State.addVote_quiet ..)
  refine Quiet.trans ?_ Quiet.rest
  exact Quiet.refl _

theorem State.startPending_quiet (s : State) : Quiet s (State.startPending s) := by
  unfold State.startPending
  split
  · split
    · dsimp only
      split
      · refine Quiet.trans ?_ (State.startControl_quiet ..)
        refine Quiet.trans ?_ Quiet.rest
        exact Quiet.refl _
      · refine Quiet.trans ?_ Quiet.rest
        exact Quiet.refl _
    · exact Quiet.refl _
  · exact Quiet.refl _

theorem State.raiseEntry_quiet (s : State) (k : Nat) : Quiet s (State.raiseEntry s k) := by
  unfold State.raiseEntry
  split
  · refine Quiet.trans ?_ (State.startPending_quiet ..)
    refine Quiet.trans ?_ Quiet.rest
    exact Quiet.refl _
  · exact Quiet.refl _

theorem State.resumeWaite_quiet (s : State) : Quiet s (State.resumeWaite s) := by
  unfold State.resumeWaite
  split
  · dsimp only
    refine Quiet.trans ?_ (State.addVote_quiet ..)
    refine Quiet.trans ?_ Quiet.rest
    exact Quiet.refl _
  · exact Quiet.refl _

theorem State.continueControl_quiet (s : State) : Quiet s (State.continueControl s) := by
  unfold State.continueControl
  split
  · dsimp only
    refine Quiet.trans ?_ (State.startPending_quiet ..)
    split
    · exact Quiet.ite (Quiet.refl _) (State.resumeWaite_quiet ..)
    · exact Quiet.refl _
  · exact Quiet.refl _

theorem State.endWakes_quiet (s : State) : Quiet s (State.endWakes s) :=
  Quiet.foldl (fun _ _ => State.dropVote_quiet ..) _ _

theorem State.settle_quiet (s : State) : Quiet s (State.settle s) :=
  (((((State.noteDrops_quiet s).trans (State.continueControl_quiet _)).trans (State.endWakes_quiet _)).trans
    (State.eventVotes_quiet _)).trans (State.checkRestored_quiet _)).trans (State.settleClocks_quiet _)

theorem State.controlEvent_quiet (s : State) (b : Nat) : Quiet s (State.controlEvent s b) := by
  unfold State.controlEvent
  dsimp only
  split
  · split
    · refine Quiet.trans ?_ Quiet.rest
      exact Quiet.refl _
    · split
      · refine Quiet.trans ?_ (State.resumeWaite_quiet ..)
        refine Quiet.trans ?_ Quiet.rest
        exact Quiet.refl _
      · refine Quiet.trans ?_ (State.raiseWake_quiet ..)
        refine Quiet.trans ?_ Quiet.rest
        exact Quiet.refl _
  · refine Quiet.trans ?_ Quiet.rest
    exact Quiet.refl _

end Sys2Proof.Machine
end

