-- ==== Sys2Proof/Laws/State.lean ====
section
/-! SUPPORT. What each update of a part of the state leaves as it was, field by field, and what it changes. -/

namespace Sys2Proof.Machine

@[simp] theorem Vector.upd_same {α : Type} {n : Nat} (v : Vector α n) (i : Fin n) (f : α → α) :
    (Vector.upd v i f)[i] = f v[i] := by
  simp [Vector.upd]

@[simp] theorem Vector.upd_same_val {α : Type} {n : Nat} (v : Vector α n) (i : Fin n) (f : α → α) :
    (Vector.upd v i f)[i.val] = f v[i.val] := by
  simp [Vector.upd]

theorem Vector.upd_other {α : Type} {n : Nat} (v : Vector α n) (i j : Fin n) (f : α → α) (h : j ≠ i) :
    (Vector.upd v i f)[j] = v[j] := by
  simp only [Vector.upd, Fin.getElem_fin]
  exact Vector.getElem_set_ne _ _ (fun e => h (Fin.ext e.symm))

theorem Vector.upd_other_val {α : Type} {n : Nat} (v : Vector α n) (i j : Fin n) (f : α → α) (h : j ≠ i) :
    (Vector.upd v i f)[j.val] = v[j.val] :=
  Vector.upd_other v i j f h

/-! ### State.updDom -/

@[simp] theorem State.updDom_pending (s : State) (id : Nat) (f : Domain → Domain) :
    (s.updDom id f).pending = s.pending := rfl
@[simp] theorem State.updDom_clock (s : State) (id : Nat) (f : Domain → Domain) : (s.updDom id f).clock = s.clock := rfl
@[simp] theorem State.updDom_free (s : State) (id : Nat) (f : Domain → Domain) : (s.updDom id f).free = s.free := rfl
@[simp] theorem State.updDom_web (s : State) (id : Nat) (f : Domain → Domain) : (s.updDom id f).web = s.web := rfl
@[simp] theorem State.updDom_time (s : State) (id : Nat) (f : Domain → Domain) : (s.updDom id f).time = s.time := rfl
@[simp] theorem State.updDom_wake (s : State) (id : Nat) (f : Domain → Domain) : (s.updDom id f).wake = s.wake := rfl
@[simp] theorem State.updDom_levels (s : State) (id : Nat) (f : Domain → Domain) :
    (s.updDom id f).levels = s.levels := rfl
@[simp] theorem State.updDom_pins (s : State) (id : Nat) (f : Domain → Domain) : (s.updDom id f).pins = s.pins := rfl
@[simp] theorem State.updDom_adm (s : State) (id : Nat) (f : Domain → Domain) : (s.updDom id f).adm = s.adm := rfl
@[simp] theorem State.updDom_fuses (s : State) (id : Nat) (f : Domain → Domain) : (s.updDom id f).fuses = s.fuses := rfl
@[simp] theorem State.updDom_pat (s : State) (id : Nat) (f : Domain → Domain) : (s.updDom id f).pat = s.pat := rfl
@[simp] theorem State.updDom_flash (s : State) (id : Nat) (f : Domain → Domain) : (s.updDom id f).flash = s.flash := rfl
@[simp] theorem State.updDom_intake (s : State) (id : Nat) (f : Domain → Domain) :
    (s.updDom id f).intake = s.intake := rfl
@[simp] theorem State.updDom_bobbin (s : State) (id : Nat) (f : Domain → Domain) :
    (s.updDom id f).bobbin = s.bobbin := rfl
@[simp] theorem State.updDom_sentinel (s : State) (id : Nat) (f : Domain → Domain) :
    (s.updDom id f).sentinel = s.sentinel := rfl
@[simp] theorem State.updDom_panels (s : State) (id : Nat) (f : Domain → Domain) :
    (s.updDom id f).panels = s.panels := rfl
@[simp] theorem State.updDom_control (s : State) (id : Nat) (f : Domain → Domain) :
    (s.updDom id f).control = s.control := rfl
@[simp] theorem State.updDom_commons (s : State) (id : Nat) (f : Domain → Domain) :
    (s.updDom id f).commons = s.commons := rfl
@[simp] theorem State.updDom_hbm (s : State) (id : Nat) (f : Domain → Domain) : (s.updDom id f).hbm = s.hbm := rfl
@[simp] theorem State.updDom_tables (s : State) (id : Nat) (f : Domain → Domain) :
    (s.updDom id f).tables = s.tables := rfl
@[simp] theorem State.updDom_history (s : State) (id : Nat) (f : Domain → Domain) :
    (s.updDom id f).history = s.history := rfl
@[simp] theorem State.updDom_look (s : State) (id : Nat) (f : Domain → Domain) : (s.updDom id f).look = s.look := rfl
@[simp] theorem State.updDom_events (s : State) (id : Nat) (f : Domain → Domain) :
    (s.updDom id f).events = s.events := rfl
@[simp] theorem State.updDom_port (s : State) (id : Nat) (f : Domain → Domain) : (s.updDom id f).port = s.port := rfl
@[simp] theorem State.updDom_markers (s : State) (id : Nat) (f : Domain → Domain) :
    (s.updDom id f).markers = s.markers := rfl
@[simp] theorem State.updDom_seams (s : State) (id : Nat) (f : Domain → Domain) : (s.updDom id f).seams = s.seams := rfl
@[simp] theorem State.updDom_bolt (s : State) (id : Nat) (f : Domain → Domain) : (s.updDom id f).bolt = s.bolt := rfl
@[simp] theorem State.updDom_faults (s : State) (id : Nat) (f : Domain → Domain) :
    (s.updDom id f).faults = s.faults := rfl
@[simp] theorem State.updDom_hold (s : State) (id : Nat) (f : Domain → Domain) : (s.updDom id f).hold = s.hold := rfl

/-! ### State.updSeam -/

@[simp] theorem State.updSeam_seams (s : State) (q : SeamId) (f : Seam → Seam) :
    (s.updSeam q f).seams = Vector.upd s.seams q f := rfl

@[simp] theorem State.updSeam_pending (s : State) (q : SeamId) (f : Seam → Seam) :
    (s.updSeam q f).pending = s.pending := rfl
@[simp] theorem State.updSeam_clock (s : State) (q : SeamId) (f : Seam → Seam) : (s.updSeam q f).clock = s.clock := rfl
@[simp] theorem State.updSeam_free (s : State) (q : SeamId) (f : Seam → Seam) : (s.updSeam q f).free = s.free := rfl
@[simp] theorem State.updSeam_web (s : State) (q : SeamId) (f : Seam → Seam) : (s.updSeam q f).web = s.web := rfl
@[simp] theorem State.updSeam_time (s : State) (q : SeamId) (f : Seam → Seam) : (s.updSeam q f).time = s.time := rfl
@[simp] theorem State.updSeam_wake (s : State) (q : SeamId) (f : Seam → Seam) : (s.updSeam q f).wake = s.wake := rfl
@[simp] theorem State.updSeam_levels (s : State) (q : SeamId) (f : Seam → Seam) : (s.updSeam q f).levels = s.levels := rfl
@[simp] theorem State.updSeam_pins (s : State) (q : SeamId) (f : Seam → Seam) : (s.updSeam q f).pins = s.pins := rfl
@[simp] theorem State.updSeam_adm (s : State) (q : SeamId) (f : Seam → Seam) : (s.updSeam q f).adm = s.adm := rfl
@[simp] theorem State.updSeam_fuses (s : State) (q : SeamId) (f : Seam → Seam) : (s.updSeam q f).fuses = s.fuses := rfl
@[simp] theorem State.updSeam_pat (s : State) (q : SeamId) (f : Seam → Seam) : (s.updSeam q f).pat = s.pat := rfl
@[simp] theorem State.updSeam_flash (s : State) (q : SeamId) (f : Seam → Seam) : (s.updSeam q f).flash = s.flash := rfl
@[simp] theorem State.updSeam_intake (s : State) (q : SeamId) (f : Seam → Seam) : (s.updSeam q f).intake = s.intake := rfl
@[simp] theorem State.updSeam_bobbin (s : State) (q : SeamId) (f : Seam → Seam) : (s.updSeam q f).bobbin = s.bobbin := rfl
@[simp] theorem State.updSeam_sentinel (s : State) (q : SeamId) (f : Seam → Seam) :
    (s.updSeam q f).sentinel = s.sentinel := rfl
@[simp] theorem State.updSeam_panels (s : State) (q : SeamId) (f : Seam → Seam) : (s.updSeam q f).panels = s.panels := rfl
@[simp] theorem State.updSeam_control (s : State) (q : SeamId) (f : Seam → Seam) :
    (s.updSeam q f).control = s.control := rfl
@[simp] theorem State.updSeam_commons (s : State) (q : SeamId) (f : Seam → Seam) :
    (s.updSeam q f).commons = s.commons := rfl
@[simp] theorem State.updSeam_hbm (s : State) (q : SeamId) (f : Seam → Seam) : (s.updSeam q f).hbm = s.hbm := rfl
@[simp] theorem State.updSeam_tables (s : State) (q : SeamId) (f : Seam → Seam) : (s.updSeam q f).tables = s.tables := rfl
@[simp] theorem State.updSeam_history (s : State) (q : SeamId) (f : Seam → Seam) :
    (s.updSeam q f).history = s.history := rfl
@[simp] theorem State.updSeam_look (s : State) (q : SeamId) (f : Seam → Seam) : (s.updSeam q f).look = s.look := rfl
@[simp] theorem State.updSeam_events (s : State) (q : SeamId) (f : Seam → Seam) : (s.updSeam q f).events = s.events := rfl
@[simp] theorem State.updSeam_port (s : State) (q : SeamId) (f : Seam → Seam) : (s.updSeam q f).port = s.port := rfl
@[simp] theorem State.updSeam_markers (s : State) (q : SeamId) (f : Seam → Seam) :
    (s.updSeam q f).markers = s.markers := rfl
@[simp] theorem State.updSeam_bolt (s : State) (q : SeamId) (f : Seam → Seam) : (s.updSeam q f).bolt = s.bolt := rfl
@[simp] theorem State.updSeam_faults (s : State) (q : SeamId) (f : Seam → Seam) : (s.updSeam q f).faults = s.faults := rfl
@[simp] theorem State.updSeam_power (s : State) (q : SeamId) (f : Seam → Seam) : (s.updSeam q f).power = s.power := rfl
@[simp] theorem State.updSeam_hold (s : State) (q : SeamId) (f : Seam → Seam) : (s.updSeam q f).hold = s.hold := rfl

/-! ### State.updLink -/

@[simp] theorem State.updLink_links (s : State) (q : SeamId) (f : BoltLink → BoltLink) :
    (s.updLink q f).bolt.links = Vector.upd s.bolt.links q f := rfl

@[simp] theorem State.updLink_pending (s : State) (q : SeamId) (f : BoltLink → BoltLink) :
    (s.updLink q f).pending = s.pending := rfl
@[simp] theorem State.updLink_clock (s : State) (q : SeamId) (f : BoltLink → BoltLink) :
    (s.updLink q f).clock = s.clock := rfl
@[simp] theorem State.updLink_free (s : State) (q : SeamId) (f : BoltLink → BoltLink) :
    (s.updLink q f).free = s.free := rfl
@[simp] theorem State.updLink_web (s : State) (q : SeamId) (f : BoltLink → BoltLink) : (s.updLink q f).web = s.web := rfl
@[simp] theorem State.updLink_time (s : State) (q : SeamId) (f : BoltLink → BoltLink) :
    (s.updLink q f).time = s.time := rfl
@[simp] theorem State.updLink_wake (s : State) (q : SeamId) (f : BoltLink → BoltLink) :
    (s.updLink q f).wake = s.wake := rfl
@[simp] theorem State.updLink_levels (s : State) (q : SeamId) (f : BoltLink → BoltLink) :
    (s.updLink q f).levels = s.levels := rfl
@[simp] theorem State.updLink_pins (s : State) (q : SeamId) (f : BoltLink → BoltLink) :
    (s.updLink q f).pins = s.pins := rfl
@[simp] theorem State.updLink_adm (s : State) (q : SeamId) (f : BoltLink → BoltLink) : (s.updLink q f).adm = s.adm := rfl
@[simp] theorem State.updLink_fuses (s : State) (q : SeamId) (f : BoltLink → BoltLink) :
    (s.updLink q f).fuses = s.fuses := rfl
@[simp] theorem State.updLink_pat (s : State) (q : SeamId) (f : BoltLink → BoltLink) : (s.updLink q f).pat = s.pat := rfl
@[simp] theorem State.updLink_flash (s : State) (q : SeamId) (f : BoltLink → BoltLink) :
    (s.updLink q f).flash = s.flash := rfl
@[simp] theorem State.updLink_intake (s : State) (q : SeamId) (f : BoltLink → BoltLink) :
    (s.updLink q f).intake = s.intake := rfl
@[simp] theorem State.updLink_bobbin (s : State) (q : SeamId) (f : BoltLink → BoltLink) :
    (s.updLink q f).bobbin = s.bobbin := rfl
@[simp] theorem State.updLink_sentinel (s : State) (q : SeamId) (f : BoltLink → BoltLink) :
    (s.updLink q f).sentinel = s.sentinel := rfl
@[simp] theorem State.updLink_panels (s : State) (q : SeamId) (f : BoltLink → BoltLink) :
    (s.updLink q f).panels = s.panels := rfl
@[simp] theorem State.updLink_control (s : State) (q : SeamId) (f : BoltLink → BoltLink) :
    (s.updLink q f).control = s.control := rfl
@[simp] theorem State.updLink_commons (s : State) (q : SeamId) (f : BoltLink → BoltLink) :
    (s.updLink q f).commons = s.commons := rfl
@[simp] theorem State.updLink_hbm (s : State) (q : SeamId) (f : BoltLink → BoltLink) : (s.updLink q f).hbm = s.hbm := rfl
@[simp] theorem State.updLink_tables (s : State) (q : SeamId) (f : BoltLink → BoltLink) :
    (s.updLink q f).tables = s.tables := rfl
@[simp] theorem State.updLink_history (s : State) (q : SeamId) (f : BoltLink → BoltLink) :
    (s.updLink q f).history = s.history := rfl
@[simp] theorem State.updLink_look (s : State) (q : SeamId) (f : BoltLink → BoltLink) :
    (s.updLink q f).look = s.look := rfl
@[simp] theorem State.updLink_events (s : State) (q : SeamId) (f : BoltLink → BoltLink) :
    (s.updLink q f).events = s.events := rfl
@[simp] theorem State.updLink_port (s : State) (q : SeamId) (f : BoltLink → BoltLink) :
    (s.updLink q f).port = s.port := rfl
@[simp] theorem State.updLink_markers (s : State) (q : SeamId) (f : BoltLink → BoltLink) :
    (s.updLink q f).markers = s.markers := rfl
@[simp] theorem State.updLink_seams (s : State) (q : SeamId) (f : BoltLink → BoltLink) :
    (s.updLink q f).seams = s.seams := rfl
@[simp] theorem State.updLink_faults (s : State) (q : SeamId) (f : BoltLink → BoltLink) :
    (s.updLink q f).faults = s.faults := rfl
@[simp] theorem State.updLink_power (s : State) (q : SeamId) (f : BoltLink → BoltLink) :
    (s.updLink q f).power = s.power := rfl
@[simp] theorem State.updLink_hold (s : State) (q : SeamId) (f : BoltLink → BoltLink) :
    (s.updLink q f).hold = s.hold := rfl

/-! ### State.updPanel -/

@[simp] theorem State.updPanel_panels (s : State) (p : PanelId) (f : Panel → Panel) :
    (s.updPanel p f).panels = Vector.upd s.panels p f := rfl

@[simp] theorem State.updPanel_pending (s : State) (p : PanelId) (f : Panel → Panel) :
    (s.updPanel p f).pending = s.pending := rfl
@[simp] theorem State.updPanel_clock (s : State) (p : PanelId) (f : Panel → Panel) :
    (s.updPanel p f).clock = s.clock := rfl
@[simp] theorem State.updPanel_free (s : State) (p : PanelId) (f : Panel → Panel) : (s.updPanel p f).free = s.free := rfl
@[simp] theorem State.updPanel_web (s : State) (p : PanelId) (f : Panel → Panel) : (s.updPanel p f).web = s.web := rfl
@[simp] theorem State.updPanel_time (s : State) (p : PanelId) (f : Panel → Panel) : (s.updPanel p f).time = s.time := rfl
@[simp] theorem State.updPanel_wake (s : State) (p : PanelId) (f : Panel → Panel) : (s.updPanel p f).wake = s.wake := rfl
@[simp] theorem State.updPanel_levels (s : State) (p : PanelId) (f : Panel → Panel) :
    (s.updPanel p f).levels = s.levels := rfl
@[simp] theorem State.updPanel_pins (s : State) (p : PanelId) (f : Panel → Panel) : (s.updPanel p f).pins = s.pins := rfl
@[simp] theorem State.updPanel_adm (s : State) (p : PanelId) (f : Panel → Panel) : (s.updPanel p f).adm = s.adm := rfl
@[simp] theorem State.updPanel_fuses (s : State) (p : PanelId) (f : Panel → Panel) :
    (s.updPanel p f).fuses = s.fuses := rfl
@[simp] theorem State.updPanel_pat (s : State) (p : PanelId) (f : Panel → Panel) : (s.updPanel p f).pat = s.pat := rfl
@[simp] theorem State.updPanel_flash (s : State) (p : PanelId) (f : Panel → Panel) :
    (s.updPanel p f).flash = s.flash := rfl
@[simp] theorem State.updPanel_intake (s : State) (p : PanelId) (f : Panel → Panel) :
    (s.updPanel p f).intake = s.intake := rfl
@[simp] theorem State.updPanel_bobbin (s : State) (p : PanelId) (f : Panel → Panel) :
    (s.updPanel p f).bobbin = s.bobbin := rfl
@[simp] theorem State.updPanel_sentinel (s : State) (p : PanelId) (f : Panel → Panel) :
    (s.updPanel p f).sentinel = s.sentinel := rfl
@[simp] theorem State.updPanel_control (s : State) (p : PanelId) (f : Panel → Panel) :
    (s.updPanel p f).control = s.control := rfl
@[simp] theorem State.updPanel_commons (s : State) (p : PanelId) (f : Panel → Panel) :
    (s.updPanel p f).commons = s.commons := rfl
@[simp] theorem State.updPanel_hbm (s : State) (p : PanelId) (f : Panel → Panel) : (s.updPanel p f).hbm = s.hbm := rfl
@[simp] theorem State.updPanel_tables (s : State) (p : PanelId) (f : Panel → Panel) :
    (s.updPanel p f).tables = s.tables := rfl
@[simp] theorem State.updPanel_history (s : State) (p : PanelId) (f : Panel → Panel) :
    (s.updPanel p f).history = s.history := rfl
@[simp] theorem State.updPanel_look (s : State) (p : PanelId) (f : Panel → Panel) : (s.updPanel p f).look = s.look := rfl
@[simp] theorem State.updPanel_events (s : State) (p : PanelId) (f : Panel → Panel) :
    (s.updPanel p f).events = s.events := rfl
@[simp] theorem State.updPanel_port (s : State) (p : PanelId) (f : Panel → Panel) : (s.updPanel p f).port = s.port := rfl
@[simp] theorem State.updPanel_markers (s : State) (p : PanelId) (f : Panel → Panel) :
    (s.updPanel p f).markers = s.markers := rfl
@[simp] theorem State.updPanel_seams (s : State) (p : PanelId) (f : Panel → Panel) :
    (s.updPanel p f).seams = s.seams := rfl
@[simp] theorem State.updPanel_bolt (s : State) (p : PanelId) (f : Panel → Panel) : (s.updPanel p f).bolt = s.bolt := rfl
@[simp] theorem State.updPanel_faults (s : State) (p : PanelId) (f : Panel → Panel) :
    (s.updPanel p f).faults = s.faults := rfl
@[simp] theorem State.updPanel_power (s : State) (p : PanelId) (f : Panel → Panel) :
    (s.updPanel p f).power = s.power := rfl
@[simp] theorem State.updPanel_hold (s : State) (p : PanelId) (f : Panel → Panel) : (s.updPanel p f).hold = s.hold := rfl

/-! ### State.updGroup -/

theorem State.updGroup_rest (s : State) (g : Nat) (f : Group → Group) :
    s.updGroup g f = { s with look := (s.updGroup g f).look } := by
  unfold State.updGroup
  split <;> rfl

/-! ### State.updPin -/

@[simp] theorem State.updPin_pending (s : State) (lo hi : Nat) (f : PinRange → PinRange) :
    (s.updPin lo hi f).pending = s.pending := rfl
@[simp] theorem State.updPin_clock (s : State) (lo hi : Nat) (f : PinRange → PinRange) :
    (s.updPin lo hi f).clock = s.clock := rfl
@[simp] theorem State.updPin_free (s : State) (lo hi : Nat) (f : PinRange → PinRange) :
    (s.updPin lo hi f).free = s.free := rfl
@[simp] theorem State.updPin_web (s : State) (lo hi : Nat) (f : PinRange → PinRange) :
    (s.updPin lo hi f).web = s.web := rfl
@[simp] theorem State.updPin_time (s : State) (lo hi : Nat) (f : PinRange → PinRange) :
    (s.updPin lo hi f).time = s.time := rfl
@[simp] theorem State.updPin_wake (s : State) (lo hi : Nat) (f : PinRange → PinRange) :
    (s.updPin lo hi f).wake = s.wake := rfl
@[simp] theorem State.updPin_levels (s : State) (lo hi : Nat) (f : PinRange → PinRange) :
    (s.updPin lo hi f).levels = s.levels := rfl
@[simp] theorem State.updPin_pins (s : State) (lo hi : Nat) (f : PinRange → PinRange) :
    (s.updPin lo hi f).pins = s.pins := rfl
@[simp] theorem State.updPin_adm (s : State) (lo hi : Nat) (f : PinRange → PinRange) :
    (s.updPin lo hi f).adm = s.adm := rfl
@[simp] theorem State.updPin_fuses (s : State) (lo hi : Nat) (f : PinRange → PinRange) :
    (s.updPin lo hi f).fuses = s.fuses := rfl
@[simp] theorem State.updPin_pat (s : State) (lo hi : Nat) (f : PinRange → PinRange) :
    (s.updPin lo hi f).pat = s.pat := rfl
@[simp] theorem State.updPin_flash (s : State) (lo hi : Nat) (f : PinRange → PinRange) :
    (s.updPin lo hi f).flash = s.flash := rfl
@[simp] theorem State.updPin_intake (s : State) (lo hi : Nat) (f : PinRange → PinRange) :
    (s.updPin lo hi f).intake = s.intake := rfl
@[simp] theorem State.updPin_bobbin (s : State) (lo hi : Nat) (f : PinRange → PinRange) :
    (s.updPin lo hi f).bobbin = s.bobbin := rfl
@[simp] theorem State.updPin_sentinel (s : State) (lo hi : Nat) (f : PinRange → PinRange) :
    (s.updPin lo hi f).sentinel = s.sentinel := rfl
@[simp] theorem State.updPin_panels (s : State) (lo hi : Nat) (f : PinRange → PinRange) :
    (s.updPin lo hi f).panels = s.panels := rfl
@[simp] theorem State.updPin_control (s : State) (lo hi : Nat) (f : PinRange → PinRange) :
    (s.updPin lo hi f).control = s.control := rfl
@[simp] theorem State.updPin_hbm (s : State) (lo hi : Nat) (f : PinRange → PinRange) :
    (s.updPin lo hi f).hbm = s.hbm := rfl
@[simp] theorem State.updPin_tables (s : State) (lo hi : Nat) (f : PinRange → PinRange) :
    (s.updPin lo hi f).tables = s.tables := rfl
@[simp] theorem State.updPin_history (s : State) (lo hi : Nat) (f : PinRange → PinRange) :
    (s.updPin lo hi f).history = s.history := rfl
@[simp] theorem State.updPin_look (s : State) (lo hi : Nat) (f : PinRange → PinRange) :
    (s.updPin lo hi f).look = s.look := rfl
@[simp] theorem State.updPin_events (s : State) (lo hi : Nat) (f : PinRange → PinRange) :
    (s.updPin lo hi f).events = s.events := rfl
@[simp] theorem State.updPin_port (s : State) (lo hi : Nat) (f : PinRange → PinRange) :
    (s.updPin lo hi f).port = s.port := rfl
@[simp] theorem State.updPin_markers (s : State) (lo hi : Nat) (f : PinRange → PinRange) :
    (s.updPin lo hi f).markers = s.markers := rfl
@[simp] theorem State.updPin_seams (s : State) (lo hi : Nat) (f : PinRange → PinRange) :
    (s.updPin lo hi f).seams = s.seams := rfl
@[simp] theorem State.updPin_bolt (s : State) (lo hi : Nat) (f : PinRange → PinRange) :
    (s.updPin lo hi f).bolt = s.bolt := rfl
@[simp] theorem State.updPin_faults (s : State) (lo hi : Nat) (f : PinRange → PinRange) :
    (s.updPin lo hi f).faults = s.faults := rfl
@[simp] theorem State.updPin_power (s : State) (lo hi : Nat) (f : PinRange → PinRange) :
    (s.updPin lo hi f).power = s.power := rfl
@[simp] theorem State.updPin_hold (s : State) (lo hi : Nat) (f : PinRange → PinRange) :
    (s.updPin lo hi f).hold = s.hold := rfl

/-! ### State.updControl -/

@[simp] theorem State.updControl_seq (s : State) (f : Sequencer → Sequencer) :
    (s.updControl f).control.seq = f s.control.seq := rfl

@[simp] theorem State.updControl_pending (s : State) (f : Sequencer → Sequencer) :
    (s.updControl f).pending = s.pending := rfl
@[simp] theorem State.updControl_clock (s : State) (f : Sequencer → Sequencer) : (s.updControl f).clock = s.clock := rfl
@[simp] theorem State.updControl_free (s : State) (f : Sequencer → Sequencer) : (s.updControl f).free = s.free := rfl
@[simp] theorem State.updControl_web (s : State) (f : Sequencer → Sequencer) : (s.updControl f).web = s.web := rfl
@[simp] theorem State.updControl_time (s : State) (f : Sequencer → Sequencer) : (s.updControl f).time = s.time := rfl
@[simp] theorem State.updControl_wake (s : State) (f : Sequencer → Sequencer) : (s.updControl f).wake = s.wake := rfl
@[simp] theorem State.updControl_levels (s : State) (f : Sequencer → Sequencer) :
    (s.updControl f).levels = s.levels := rfl
@[simp] theorem State.updControl_pins (s : State) (f : Sequencer → Sequencer) : (s.updControl f).pins = s.pins := rfl
@[simp] theorem State.updControl_adm (s : State) (f : Sequencer → Sequencer) : (s.updControl f).adm = s.adm := rfl
@[simp] theorem State.updControl_fuses (s : State) (f : Sequencer → Sequencer) : (s.updControl f).fuses = s.fuses := rfl
@[simp] theorem State.updControl_pat (s : State) (f : Sequencer → Sequencer) : (s.updControl f).pat = s.pat := rfl
@[simp] theorem State.updControl_flash (s : State) (f : Sequencer → Sequencer) : (s.updControl f).flash = s.flash := rfl
@[simp] theorem State.updControl_intake (s : State) (f : Sequencer → Sequencer) :
    (s.updControl f).intake = s.intake := rfl
@[simp] theorem State.updControl_bobbin (s : State) (f : Sequencer → Sequencer) :
    (s.updControl f).bobbin = s.bobbin := rfl
@[simp] theorem State.updControl_sentinel (s : State) (f : Sequencer → Sequencer) :
    (s.updControl f).sentinel = s.sentinel := rfl
@[simp] theorem State.updControl_panels (s : State) (f : Sequencer → Sequencer) :
    (s.updControl f).panels = s.panels := rfl
@[simp] theorem State.updControl_commons (s : State) (f : Sequencer → Sequencer) :
    (s.updControl f).commons = s.commons := rfl
@[simp] theorem State.updControl_hbm (s : State) (f : Sequencer → Sequencer) : (s.updControl f).hbm = s.hbm := rfl
@[simp] theorem State.updControl_tables (s : State) (f : Sequencer → Sequencer) :
    (s.updControl f).tables = s.tables := rfl
@[simp] theorem State.updControl_history (s : State) (f : Sequencer → Sequencer) :
    (s.updControl f).history = s.history := rfl
@[simp] theorem State.updControl_look (s : State) (f : Sequencer → Sequencer) : (s.updControl f).look = s.look := rfl
@[simp] theorem State.updControl_events (s : State) (f : Sequencer → Sequencer) :
    (s.updControl f).events = s.events := rfl
@[simp] theorem State.updControl_port (s : State) (f : Sequencer → Sequencer) : (s.updControl f).port = s.port := rfl
@[simp] theorem State.updControl_markers (s : State) (f : Sequencer → Sequencer) :
    (s.updControl f).markers = s.markers := rfl
@[simp] theorem State.updControl_seams (s : State) (f : Sequencer → Sequencer) : (s.updControl f).seams = s.seams := rfl
@[simp] theorem State.updControl_bolt (s : State) (f : Sequencer → Sequencer) : (s.updControl f).bolt = s.bolt := rfl
@[simp] theorem State.updControl_faults (s : State) (f : Sequencer → Sequencer) :
    (s.updControl f).faults = s.faults := rfl
@[simp] theorem State.updControl_power (s : State) (f : Sequencer → Sequencer) : (s.updControl f).power = s.power := rfl
@[simp] theorem State.updControl_hold (s : State) (f : Sequencer → Sequencer) : (s.updControl f).hold = s.hold := rfl

/-! ### State.updArray -/

@[simp] theorem State.updArray_arrays (s : State) (x : ArrayId) (f : CimArray → CimArray) :
    (s.updArray x f).sentinel.arrays = Vector.upd s.sentinel.arrays x f := rfl

@[simp] theorem State.updArray_pending (s : State) (x : ArrayId) (f : CimArray → CimArray) :
    (s.updArray x f).pending = s.pending := rfl
@[simp] theorem State.updArray_clock (s : State) (x : ArrayId) (f : CimArray → CimArray) :
    (s.updArray x f).clock = s.clock := rfl
@[simp] theorem State.updArray_free (s : State) (x : ArrayId) (f : CimArray → CimArray) :
    (s.updArray x f).free = s.free := rfl
@[simp] theorem State.updArray_web (s : State) (x : ArrayId) (f : CimArray → CimArray) :
    (s.updArray x f).web = s.web := rfl
@[simp] theorem State.updArray_time (s : State) (x : ArrayId) (f : CimArray → CimArray) :
    (s.updArray x f).time = s.time := rfl
@[simp] theorem State.updArray_wake (s : State) (x : ArrayId) (f : CimArray → CimArray) :
    (s.updArray x f).wake = s.wake := rfl
@[simp] theorem State.updArray_levels (s : State) (x : ArrayId) (f : CimArray → CimArray) :
    (s.updArray x f).levels = s.levels := rfl
@[simp] theorem State.updArray_pins (s : State) (x : ArrayId) (f : CimArray → CimArray) :
    (s.updArray x f).pins = s.pins := rfl
@[simp] theorem State.updArray_adm (s : State) (x : ArrayId) (f : CimArray → CimArray) :
    (s.updArray x f).adm = s.adm := rfl
@[simp] theorem State.updArray_fuses (s : State) (x : ArrayId) (f : CimArray → CimArray) :
    (s.updArray x f).fuses = s.fuses := rfl
@[simp] theorem State.updArray_pat (s : State) (x : ArrayId) (f : CimArray → CimArray) :
    (s.updArray x f).pat = s.pat := rfl
@[simp] theorem State.updArray_flash (s : State) (x : ArrayId) (f : CimArray → CimArray) :
    (s.updArray x f).flash = s.flash := rfl
@[simp] theorem State.updArray_intake (s : State) (x : ArrayId) (f : CimArray → CimArray) :
    (s.updArray x f).intake = s.intake := rfl
@[simp] theorem State.updArray_bobbin (s : State) (x : ArrayId) (f : CimArray → CimArray) :
    (s.updArray x f).bobbin = s.bobbin := rfl
@[simp] theorem State.updArray_panels (s : State) (x : ArrayId) (f : CimArray → CimArray) :
    (s.updArray x f).panels = s.panels := rfl
@[simp] theorem State.updArray_control (s : State) (x : ArrayId) (f : CimArray → CimArray) :
    (s.updArray x f).control = s.control := rfl
@[simp] theorem State.updArray_commons (s : State) (x : ArrayId) (f : CimArray → CimArray) :
    (s.updArray x f).commons = s.commons := rfl
@[simp] theorem State.updArray_hbm (s : State) (x : ArrayId) (f : CimArray → CimArray) :
    (s.updArray x f).hbm = s.hbm := rfl
@[simp] theorem State.updArray_tables (s : State) (x : ArrayId) (f : CimArray → CimArray) :
    (s.updArray x f).tables = s.tables := rfl
@[simp] theorem State.updArray_history (s : State) (x : ArrayId) (f : CimArray → CimArray) :
    (s.updArray x f).history = s.history := rfl
@[simp] theorem State.updArray_look (s : State) (x : ArrayId) (f : CimArray → CimArray) :
    (s.updArray x f).look = s.look := rfl
@[simp] theorem State.updArray_events (s : State) (x : ArrayId) (f : CimArray → CimArray) :
    (s.updArray x f).events = s.events := rfl
@[simp] theorem State.updArray_port (s : State) (x : ArrayId) (f : CimArray → CimArray) :
    (s.updArray x f).port = s.port := rfl
@[simp] theorem State.updArray_markers (s : State) (x : ArrayId) (f : CimArray → CimArray) :
    (s.updArray x f).markers = s.markers := rfl
@[simp] theorem State.updArray_seams (s : State) (x : ArrayId) (f : CimArray → CimArray) :
    (s.updArray x f).seams = s.seams := rfl
@[simp] theorem State.updArray_bolt (s : State) (x : ArrayId) (f : CimArray → CimArray) :
    (s.updArray x f).bolt = s.bolt := rfl
@[simp] theorem State.updArray_faults (s : State) (x : ArrayId) (f : CimArray → CimArray) :
    (s.updArray x f).faults = s.faults := rfl
@[simp] theorem State.updArray_power (s : State) (x : ArrayId) (f : CimArray → CimArray) :
    (s.updArray x f).power = s.power := rfl
@[simp] theorem State.updArray_hold (s : State) (x : ArrayId) (f : CimArray → CimArray) :
    (s.updArray x f).hold = s.hold := rfl

/-! ### State.updCsi -/

@[simp] theorem State.updCsi_intake_port (s : State) (c : CsiId) (f : CsiPort → CsiPort) :
    (s.updCsi c f).intake.port = Vector.upd s.intake.port c f := rfl

@[simp] theorem State.updCsi_pending (s : State) (c : CsiId) (f : CsiPort → CsiPort) :
    (s.updCsi c f).pending = s.pending := rfl
@[simp] theorem State.updCsi_clock (s : State) (c : CsiId) (f : CsiPort → CsiPort) : (s.updCsi c f).clock = s.clock := rfl
@[simp] theorem State.updCsi_free (s : State) (c : CsiId) (f : CsiPort → CsiPort) : (s.updCsi c f).free = s.free := rfl
@[simp] theorem State.updCsi_web (s : State) (c : CsiId) (f : CsiPort → CsiPort) : (s.updCsi c f).web = s.web := rfl
@[simp] theorem State.updCsi_time (s : State) (c : CsiId) (f : CsiPort → CsiPort) : (s.updCsi c f).time = s.time := rfl
@[simp] theorem State.updCsi_wake (s : State) (c : CsiId) (f : CsiPort → CsiPort) : (s.updCsi c f).wake = s.wake := rfl
@[simp] theorem State.updCsi_levels (s : State) (c : CsiId) (f : CsiPort → CsiPort) :
    (s.updCsi c f).levels = s.levels := rfl
@[simp] theorem State.updCsi_pins (s : State) (c : CsiId) (f : CsiPort → CsiPort) : (s.updCsi c f).pins = s.pins := rfl
@[simp] theorem State.updCsi_adm (s : State) (c : CsiId) (f : CsiPort → CsiPort) : (s.updCsi c f).adm = s.adm := rfl
@[simp] theorem State.updCsi_fuses (s : State) (c : CsiId) (f : CsiPort → CsiPort) : (s.updCsi c f).fuses = s.fuses := rfl
@[simp] theorem State.updCsi_pat (s : State) (c : CsiId) (f : CsiPort → CsiPort) : (s.updCsi c f).pat = s.pat := rfl
@[simp] theorem State.updCsi_flash (s : State) (c : CsiId) (f : CsiPort → CsiPort) : (s.updCsi c f).flash = s.flash := rfl
@[simp] theorem State.updCsi_bobbin (s : State) (c : CsiId) (f : CsiPort → CsiPort) :
    (s.updCsi c f).bobbin = s.bobbin := rfl
@[simp] theorem State.updCsi_sentinel (s : State) (c : CsiId) (f : CsiPort → CsiPort) :
    (s.updCsi c f).sentinel = s.sentinel := rfl
@[simp] theorem State.updCsi_panels (s : State) (c : CsiId) (f : CsiPort → CsiPort) :
    (s.updCsi c f).panels = s.panels := rfl
@[simp] theorem State.updCsi_control (s : State) (c : CsiId) (f : CsiPort → CsiPort) :
    (s.updCsi c f).control = s.control := rfl
@[simp] theorem State.updCsi_commons (s : State) (c : CsiId) (f : CsiPort → CsiPort) :
    (s.updCsi c f).commons = s.commons := rfl
@[simp] theorem State.updCsi_hbm (s : State) (c : CsiId) (f : CsiPort → CsiPort) : (s.updCsi c f).hbm = s.hbm := rfl
@[simp] theorem State.updCsi_tables (s : State) (c : CsiId) (f : CsiPort → CsiPort) :
    (s.updCsi c f).tables = s.tables := rfl
@[simp] theorem State.updCsi_history (s : State) (c : CsiId) (f : CsiPort → CsiPort) :
    (s.updCsi c f).history = s.history := rfl
@[simp] theorem State.updCsi_look (s : State) (c : CsiId) (f : CsiPort → CsiPort) : (s.updCsi c f).look = s.look := rfl
@[simp] theorem State.updCsi_events (s : State) (c : CsiId) (f : CsiPort → CsiPort) :
    (s.updCsi c f).events = s.events := rfl
@[simp] theorem State.updCsi_port (s : State) (c : CsiId) (f : CsiPort → CsiPort) : (s.updCsi c f).port = s.port := rfl
@[simp] theorem State.updCsi_markers (s : State) (c : CsiId) (f : CsiPort → CsiPort) :
    (s.updCsi c f).markers = s.markers := rfl
@[simp] theorem State.updCsi_seams (s : State) (c : CsiId) (f : CsiPort → CsiPort) : (s.updCsi c f).seams = s.seams := rfl
@[simp] theorem State.updCsi_bolt (s : State) (c : CsiId) (f : CsiPort → CsiPort) : (s.updCsi c f).bolt = s.bolt := rfl
@[simp] theorem State.updCsi_faults (s : State) (c : CsiId) (f : CsiPort → CsiPort) :
    (s.updCsi c f).faults = s.faults := rfl
@[simp] theorem State.updCsi_power (s : State) (c : CsiId) (f : CsiPort → CsiPort) : (s.updCsi c f).power = s.power := rfl
@[simp] theorem State.updCsi_hold (s : State) (c : CsiId) (f : CsiPort → CsiPort) : (s.updCsi c f).hold = s.hold := rfl

/-! ### State.assertFault -/

@[simp] theorem State.assertFault_pending (s : State) : (s.assertFault).pending = s.pending := rfl
@[simp] theorem State.assertFault_clock (s : State) : (s.assertFault).clock = s.clock := rfl
@[simp] theorem State.assertFault_free (s : State) : (s.assertFault).free = s.free := rfl
@[simp] theorem State.assertFault_web (s : State) : (s.assertFault).web = s.web := rfl
@[simp] theorem State.assertFault_time (s : State) : (s.assertFault).time = s.time := rfl
@[simp] theorem State.assertFault_wake (s : State) : (s.assertFault).wake = s.wake := rfl
@[simp] theorem State.assertFault_levels (s : State) : (s.assertFault).levels = s.levels := rfl
@[simp] theorem State.assertFault_adm (s : State) : (s.assertFault).adm = s.adm := rfl
@[simp] theorem State.assertFault_fuses (s : State) : (s.assertFault).fuses = s.fuses := rfl
@[simp] theorem State.assertFault_pat (s : State) : (s.assertFault).pat = s.pat := rfl
@[simp] theorem State.assertFault_flash (s : State) : (s.assertFault).flash = s.flash := rfl
@[simp] theorem State.assertFault_intake (s : State) : (s.assertFault).intake = s.intake := rfl
@[simp] theorem State.assertFault_bobbin (s : State) : (s.assertFault).bobbin = s.bobbin := rfl
@[simp] theorem State.assertFault_sentinel (s : State) : (s.assertFault).sentinel = s.sentinel := rfl
@[simp] theorem State.assertFault_panels (s : State) : (s.assertFault).panels = s.panels := rfl
@[simp] theorem State.assertFault_control (s : State) : (s.assertFault).control = s.control := rfl
@[simp] theorem State.assertFault_commons (s : State) : (s.assertFault).commons = s.commons := rfl
@[simp] theorem State.assertFault_hbm (s : State) : (s.assertFault).hbm = s.hbm := rfl
@[simp] theorem State.assertFault_tables (s : State) : (s.assertFault).tables = s.tables := rfl
@[simp] theorem State.assertFault_history (s : State) : (s.assertFault).history = s.history := rfl
@[simp] theorem State.assertFault_look (s : State) : (s.assertFault).look = s.look := rfl
@[simp] theorem State.assertFault_events (s : State) : (s.assertFault).events = s.events := rfl
@[simp] theorem State.assertFault_port (s : State) : (s.assertFault).port = s.port := rfl
@[simp] theorem State.assertFault_markers (s : State) : (s.assertFault).markers = s.markers := rfl
@[simp] theorem State.assertFault_seams (s : State) : (s.assertFault).seams = s.seams := rfl
@[simp] theorem State.assertFault_bolt (s : State) : (s.assertFault).bolt = s.bolt := rfl
@[simp] theorem State.assertFault_faults (s : State) : (s.assertFault).faults = s.faults := rfl
@[simp] theorem State.assertFault_power (s : State) : (s.assertFault).power = s.power := rfl
@[simp] theorem State.assertFault_hold (s : State) : (s.assertFault).hold = s.hold := rfl

/-! ### State.bump -/

@[simp] theorem State.bump_pending (s : State) (i n : Nat) : (s.bump i n).pending = s.pending := rfl
@[simp] theorem State.bump_clock (s : State) (i n : Nat) : (s.bump i n).clock = s.clock := rfl
@[simp] theorem State.bump_free (s : State) (i n : Nat) : (s.bump i n).free = s.free := rfl
@[simp] theorem State.bump_web (s : State) (i n : Nat) : (s.bump i n).web = s.web := rfl
@[simp] theorem State.bump_time (s : State) (i n : Nat) : (s.bump i n).time = s.time := rfl
@[simp] theorem State.bump_wake (s : State) (i n : Nat) : (s.bump i n).wake = s.wake := rfl
@[simp] theorem State.bump_levels (s : State) (i n : Nat) : (s.bump i n).levels = s.levels := rfl
@[simp] theorem State.bump_pins (s : State) (i n : Nat) : (s.bump i n).pins = s.pins := rfl
@[simp] theorem State.bump_adm (s : State) (i n : Nat) : (s.bump i n).adm = s.adm := rfl
@[simp] theorem State.bump_fuses (s : State) (i n : Nat) : (s.bump i n).fuses = s.fuses := rfl
@[simp] theorem State.bump_pat (s : State) (i n : Nat) : (s.bump i n).pat = s.pat := rfl
@[simp] theorem State.bump_intake (s : State) (i n : Nat) : (s.bump i n).intake = s.intake := rfl
@[simp] theorem State.bump_bobbin (s : State) (i n : Nat) : (s.bump i n).bobbin = s.bobbin := rfl
@[simp] theorem State.bump_sentinel (s : State) (i n : Nat) : (s.bump i n).sentinel = s.sentinel := rfl
@[simp] theorem State.bump_panels (s : State) (i n : Nat) : (s.bump i n).panels = s.panels := rfl
@[simp] theorem State.bump_control (s : State) (i n : Nat) : (s.bump i n).control = s.control := rfl
@[simp] theorem State.bump_commons (s : State) (i n : Nat) : (s.bump i n).commons = s.commons := rfl
@[simp] theorem State.bump_hbm (s : State) (i n : Nat) : (s.bump i n).hbm = s.hbm := rfl
@[simp] theorem State.bump_tables (s : State) (i n : Nat) : (s.bump i n).tables = s.tables := rfl
@[simp] theorem State.bump_history (s : State) (i n : Nat) : (s.bump i n).history = s.history := rfl
@[simp] theorem State.bump_look (s : State) (i n : Nat) : (s.bump i n).look = s.look := rfl
@[simp] theorem State.bump_events (s : State) (i n : Nat) : (s.bump i n).events = s.events := rfl
@[simp] theorem State.bump_port (s : State) (i n : Nat) : (s.bump i n).port = s.port := rfl
@[simp] theorem State.bump_markers (s : State) (i n : Nat) : (s.bump i n).markers = s.markers := rfl
@[simp] theorem State.bump_seams (s : State) (i n : Nat) : (s.bump i n).seams = s.seams := rfl
@[simp] theorem State.bump_bolt (s : State) (i n : Nat) : (s.bump i n).bolt = s.bolt := rfl
@[simp] theorem State.bump_faults (s : State) (i n : Nat) : (s.bump i n).faults = s.faults := rfl
@[simp] theorem State.bump_power (s : State) (i n : Nat) : (s.bump i n).power = s.power := rfl
@[simp] theorem State.bump_hold (s : State) (i n : Nat) : (s.bump i n).hold = s.hold := rfl

/-! ### State.respond -/

@[simp] theorem State.respond_pending (s : State) (bs : List Byte) : (s.respond bs).pending = s.pending := rfl
@[simp] theorem State.respond_clock (s : State) (bs : List Byte) : (s.respond bs).clock = s.clock := rfl
@[simp] theorem State.respond_free (s : State) (bs : List Byte) : (s.respond bs).free = s.free := rfl
@[simp] theorem State.respond_web (s : State) (bs : List Byte) : (s.respond bs).web = s.web := rfl
@[simp] theorem State.respond_time (s : State) (bs : List Byte) : (s.respond bs).time = s.time := rfl
@[simp] theorem State.respond_wake (s : State) (bs : List Byte) : (s.respond bs).wake = s.wake := rfl
@[simp] theorem State.respond_levels (s : State) (bs : List Byte) : (s.respond bs).levels = s.levels := rfl
@[simp] theorem State.respond_pins (s : State) (bs : List Byte) : (s.respond bs).pins = s.pins := rfl
@[simp] theorem State.respond_adm (s : State) (bs : List Byte) : (s.respond bs).adm = s.adm := rfl
@[simp] theorem State.respond_fuses (s : State) (bs : List Byte) : (s.respond bs).fuses = s.fuses := rfl
@[simp] theorem State.respond_pat (s : State) (bs : List Byte) : (s.respond bs).pat = s.pat := rfl
@[simp] theorem State.respond_flash (s : State) (bs : List Byte) : (s.respond bs).flash = s.flash := rfl
@[simp] theorem State.respond_intake (s : State) (bs : List Byte) : (s.respond bs).intake = s.intake := rfl
@[simp] theorem State.respond_bobbin (s : State) (bs : List Byte) : (s.respond bs).bobbin = s.bobbin := rfl
@[simp] theorem State.respond_sentinel (s : State) (bs : List Byte) : (s.respond bs).sentinel = s.sentinel := rfl
@[simp] theorem State.respond_panels (s : State) (bs : List Byte) : (s.respond bs).panels = s.panels := rfl
@[simp] theorem State.respond_control (s : State) (bs : List Byte) : (s.respond bs).control = s.control := rfl
@[simp] theorem State.respond_commons (s : State) (bs : List Byte) : (s.respond bs).commons = s.commons := rfl
@[simp] theorem State.respond_hbm (s : State) (bs : List Byte) : (s.respond bs).hbm = s.hbm := rfl
@[simp] theorem State.respond_tables (s : State) (bs : List Byte) : (s.respond bs).tables = s.tables := rfl
@[simp] theorem State.respond_history (s : State) (bs : List Byte) : (s.respond bs).history = s.history := rfl
@[simp] theorem State.respond_look (s : State) (bs : List Byte) : (s.respond bs).look = s.look := rfl
@[simp] theorem State.respond_events (s : State) (bs : List Byte) : (s.respond bs).events = s.events := rfl
@[simp] theorem State.respond_markers (s : State) (bs : List Byte) : (s.respond bs).markers = s.markers := rfl
@[simp] theorem State.respond_seams (s : State) (bs : List Byte) : (s.respond bs).seams = s.seams := rfl
@[simp] theorem State.respond_bolt (s : State) (bs : List Byte) : (s.respond bs).bolt = s.bolt := rfl
@[simp] theorem State.respond_faults (s : State) (bs : List Byte) : (s.respond bs).faults = s.faults := rfl
@[simp] theorem State.respond_power (s : State) (bs : List Byte) : (s.respond bs).power = s.power := rfl
@[simp] theorem State.respond_hold (s : State) (bs : List Byte) : (s.respond bs).hold = s.hold := rfl

end Sys2Proof.Machine
end

