-- ==== Sys2Proof/Laws/Web.lean ====
section
/-! SUPPORT. What records, closings and lost position leave of the web's state. -/

namespace Sys2Proof.Machine

theorem Quiet.web {s t : State} (h : Quiet s t) : t.web = s.web := by rw [h.same]

theorem Quiet.pins {s t : State} (h : Quiet s t) : t.pins = s.pins := by rw [h.same]

theorem Quiet.clock {s t : State} (h : Quiet s t) : t.clock = s.clock := by rw [h.same]

theorem Quiet.bolt {s t : State} (h : Quiet s t) : t.bolt = s.bolt := by rw [h.same]

theorem Quiet.adm {s t : State} (h : Quiet s t) : t.adm = s.adm := by rw [h.same]

theorem Quiet.markers {s t : State} (h : Quiet s t) : t.markers = s.markers := by rw [h.same]

theorem Quiet.sentinel {s t : State} (h : Quiet s t) : t.sentinel = s.sentinel := by rw [h.same]

theorem Quiet.time {s t : State} (h : Quiet s t) : t.time = s.time := by rw [h.same]

theorem Quiet.pat {s t : State} (h : Quiet s t) : t.pat = s.pat := by rw [h.same]

theorem State.settle_web (s : State) : s.settle.web = s.web := (State.settle_quiet s).web

theorem State.settle_pins (s : State) : s.settle.pins = s.pins := (State.settle_quiet s).pins

theorem State.settle_bolt (s : State) : s.settle.bolt = s.bolt := (State.settle_quiet s).bolt

theorem State.settle_adm (s : State) : s.settle.adm = s.adm := (State.settle_quiet s).adm

theorem State.settle_markers (s : State) : s.settle.markers = s.markers := (State.settle_quiet s).markers

theorem State.settle_sentinel (s : State) : s.settle.sentinel = s.sentinel := (State.settle_quiet s).sentinel

theorem State.settle_time (s : State) : s.settle.time = s.time := (State.settle_quiet s).time

theorem State.callFires_web (s : State) (type cls : Nat) (pe : Pos) (tag : Tag) :
    (s.callFires type cls pe tag).web = s.web := by
  unfold State.callFires
  split <;> rfl

theorem State.closingRecord_web (s : State) (type cls small : Nat) (flags : BitVec 8) (pe : Pos) (tag : Tag) :
    (s.closingRecord type cls small flags pe tag).web = s.web := by
  unfold State.closingRecord
  rw [State.callFires_web, (State.submit_quiet ..).web]
  rfl

theorem State.closeWindow_web (s : State) (tag : Tag) (type cls small : Nat) (flags : BitVec 8) :
    (s.closeWindow tag type cls small flags).web = s.web := by
  unfold State.closeWindow
  split
  · exact State.closingRecord_web ..
  · rfl

theorem State.foldl_web {α : Type} {f : State → α → State} (h : ∀ s x, (f s x).web = s.web) (l : List α) (s : State) :
    (l.foldl f s).web = s.web := by
  induction l generalizing s with
  | nil => rfl
  | cons x l ih => rw [List.foldl_cons, ih, h]

theorem State.discardFires_web (s : State) : s.discardFires.web = s.web := by
  unfold State.discardFires
  dsimp only
  split
  · exact State.foldl_web (fun _ _ => (State.markRecord_quiet ..).web) _ _
  · rw [(State.markRecord_quiet ..).web]
    exact State.foldl_web (fun _ _ => (State.markRecord_quiet ..).web) _ _

/-- R18: declaring position lost leaves the decoders as they are. -/
theorem State.losePosition_web (s : State) : s.losePosition.web = { s.web with lost := true } := by
  unfold State.losePosition
  rw [State.foldl_web (fun _ _ => State.closeWindow_web ..), State.discardFires_web, (State.faultRecord_quiet ..).web]
  rfl

theorem State.checkSlip_enc (s : State) : s.checkSlip.web.enc = s.web.enc := by
  unfold State.checkSlip
  split
  · rw [State.losePosition_web]
  · rfl

/-- R9: what a count brings about leaves the decoders as they are. -/
theorem State.countEvent_enc (s : State) (forward : Bool) : (s.countEvent forward).web.enc = s.web.enc := by
  cases forward <;> simp only [State.countEvent, if_true, Bool.false_eq_true, if_false] <;> split <;> rfl

end Sys2Proof.Machine
end

