-- ==== Sys2Proof/WellFormed.lean ====
section
/-! DEFINITION. Which commands the outside can send: counts and ranges that a pin, a packet or a store allows.
The step is total on every command; a command that is not well formed stands for nothing the outside can do. -/

namespace Sys2Proof

/-- R195, R252: an upset strikes a byte that its store has, and changes it. -/
def Upset.wf (u : Upset) : Bool :=
  u.flip != 0 && match u.store with
    | .scratch => decide (u.addr < 1572864)
    | .commons => decide (u.addr < 8388608)
    | .hbm => decide (u.addr < 2 ^ 34)

/-- R140: a long packet's payload is no longer than a 16-bit word count can say; the header, whose bits may have been
damaged, is free. -/
def LongPacket.wf (k : LongPacket) : Bool := decide (k.payload.length < 65536)

/-- R361: a flit is 64 bytes; the empty list stands for TRAIN blocks (log 22). -/
def flitWf (f : Flit) : Bool := f.isEmpty || f.length == 64

/-- R41: a pass reads eleven pins. -/
def StepInput.wf (x : StepInput) : Bool := x.pass1.length == 11 && x.pass2.length == 11

/-- R440: a domain id of the table. -/
def domainIdWf (d : Nat) : Bool :=
  decide (1 ≤ d ∧ d ≤ 5) || decide (0x10 ≤ d ∧ d ≤ 0x13) || decide (0x20 ≤ d ∧ d ≤ 0x2B) ||
    decide (0x30 ≤ d ∧ d ≤ 0x3F) || decide (0x40 ≤ d ∧ d ≤ 0x47) || decide (0x50 ≤ d ∧ d ≤ 0x53)

/-- The command carries what its source can send. -/
def Instr.wellFormed : Instr → Bool
  | .longPacket _ k u => k.wf && u.all (·.wf)
  | .admissionStepComplete x => x.wf
  | .loadt _ u => u.all (·.wf)
  | .storet _ u => u.all (·.wf)
  | .streamw _ u => u.all (·.wf)
  | .drain _ u => u.all (·.wf)
  | .mm _ u => u.all (·.wf)
  | .cimv _ u => u.all (·.wf)
  | .vadd _ u => u.all (·.wf)
  | .vsub _ u => u.all (·.wf)
  | .vmul _ u => u.all (·.wf)
  | .vmax _ u => u.all (·.wf)
  | .vmin _ u => u.all (·.wf)
  | .vabs _ u => u.all (·.wf)
  | .vneg _ u => u.all (·.wf)
  | .vcvt _ u => u.all (·.wf)
  | .vreq _ u => u.all (·.wf)
  | .vlut _ u => u.all (·.wf)
  | .vexp2 _ u => u.all (·.wf)
  | .vlog2 _ u => u.all (·.wf)
  | .vrcp _ u => u.all (·.wf)
  | .vsqrt _ u => u.all (·.wf)
  | .vrsqrt _ u => u.all (·.wf)
  | .vdiv _ u => u.all (·.wf)
  | .vexp _ u => u.all (·.wf)
  | .vsig _ u => u.all (·.wf)
  | .vtanh _ u => u.all (·.wf)
  | .vgelu _ u => u.all (·.wf)
  | .vsilu _ u => u.all (·.wf)
  | .vrelu _ u => u.all (·.wf)
  | .vleaky _ u => u.all (·.wf)
  | .vsumr _ u => u.all (·.wf)
  | .vmaxr _ u => u.all (·.wf)
  | .vsmax _ u => u.all (·.wf)
  | .vnorm _ u => u.all (·.wf)
  | .combine _ u => u.all (·.wf)
  | .streamFillComplete u => u.all (·.wf)
  | .verdict _ u => u.all (·.wf)
  | .stage u => u.all (·.wf)
  | .viewFillComplete _ u => u.all (·.wf)
  | .laneIdentify _ lanes _ => lanes.length == 4 && lanes.all fun l => decide (l < 4)
  | .roundTripMeasure _ trips => trips.length == 16
  | .dataFlit _ f => flitWf f
  | .nullFlit _ f => flitWf f
  | .sleep _ f => flitWf f
  | .sleepAck _ f => flitWf f
  | .stay _ f => flitWf f
  | .wake _ f => flitWf f
  | .transactionCutShort _ lastBits _ => decide (lastBits < 8)
  | .hysteresisExpiry d => domainIdWf d
  | .domainOn d => domainIdWf d
  | .lowStateEntryComplete d => domainIdWf d
  | .spanStart g => decide (g < 65536)
  | .spanEnd g => decide (g < 65536)
  | .housekeepingBurst word u => decide (word < 2 ^ 29) && u.all fun x => x.wf && x.store == .hbm
  | _ => true

end Sys2Proof
end

