-- ==== Sys2Proof/Tests/Slice0.lean ====
section
/-! SUPPORT. Tests of the model against the spec's own numbers, and the states that show the statements' hypotheses met.
A theorem witness_X shows, clause by clause, states and operands that meet the hypotheses of Obligations.X together. -/

open Sys2Proof Sys2Proof.Machine Sys2Proof.Claims

namespace Sys2Proof.Tests

-- One test at a time: each waits for the kernel, and a thread of its own for each would not fit.
set_option Elab.async false

/-- The state after a command. -/
def after (c : Instr) (s : State) : State :=
  match exec c s with
  | .next t => t
  | _ => s

/-- A running state with every domain on and the PLL locked. -/
def run : State :=
  { State.reset with
    adm := { dev := .running, step := 13 }
    power := { domains := ({} : Power).domains.map fun d => { d with st := .on }, pll := true, locked := true, web := .run } }

/-- Level pins that decode, every one at level l. -/
def pinsAt (l : Nat) : Levels :=
  { decoded := true, test1 := true, test2 := true, pin := List.replicate 10 { pass1 := some l, pass2 := some l } }

/-- A running member of a bolt, at address 0x4444, whose master is elsewhere. -/
def member : State := { run with levels := pinsAt 4 }

/-- A running position master in the member role. -/
def master : State := { member with pat := { boltMaster := 0x4444 } }

/-- A state with one message delivered at port E. -/
def withMsg (s : State) (m : Message) : State := s.updSeam 0 fun p => { p with inbox := [m] }

/-- Panel 0 about to issue one instruction word, with n tiles of four FP32 elements in scratch. -/
def prog (w : Nat) : State :=
  { run with
    pat := {
      panl := [{ count := 1, words := [BitVec.ofNat 64 w] }]
      tiles := List.replicate 4 { fmt := 9, ext := [1, 1, 4, 1, 1], stride := [0, 0, 4, 0, 0] } } }.updPanel 0
    fun x => { x with seq := { x.seq with active := true } }

/-- The control sequencer about to issue one instruction word. -/
def ctrl (w : Nat) : State :=
  { run with
    pat := { ctrl := [BitVec.ofNat 64 w], tiles := [{ space := 1, fmt := 9, ext := [1, 1, 4, 1, 1], stride := [0, 0, 1, 0, 0] }] }
    control := { seq := { active := true } } }

/-! ### Commands that are not well formed are refused by the check -/

theorem test_wf_upset_address :
    Instr.wellFormed (.mm 0 [{ store := .scratch, addr := 1572864, flip := 1 }]) = false ∧
    Instr.wellFormed (.mm 0 [{ store := .scratch, addr := 1572863, flip := 1 }]) = true ∧
    Upset.wf { store := .commons, addr := 8388608, flip := 1 } = false ∧
    Upset.wf { store := .hbm, addr := 17179869184, flip := 1 } = false := by decide
theorem test_wf_upset_flip : Upset.wf { store := .hbm, addr := 0, flip := 0 } = false := by decide
theorem test_wf_long_packet :
    LongPacket.wf { header := 0, payload := List.replicate 65536 0, crc := 0 } = false ∧
    LongPacket.wf { header := 0, payload := List.replicate 65535 0, crc := 0 } = true := by
  constructor <;> (unfold LongPacket.wf; rw [List.length_replicate]; rfl)
theorem test_wf_flit : Instr.wellFormed (.dataFlit 0 (List.replicate 63 0)) = false ∧
    Instr.wellFormed (.wake 0 (List.replicate 64 0)) = true ∧ Instr.wellFormed (.nullFlit 0 []) = true := by decide
theorem test_wf_step_input : Instr.wellFormed (.admissionStepComplete default) = false := by decide
theorem test_wf_lanes : Instr.wellFormed (.laneIdentify 0 [0, 1, 2] 1) = false ∧
    Instr.wellFormed (.laneIdentify 0 [0, 1, 2, 4] 1) = false ∧
    Instr.wellFormed (.roundTripMeasure 0 (List.replicate 15 4)) = false := by decide
theorem test_wf_last_bits : Instr.wellFormed (.transactionCutShort [] 8 0) = false := by decide
theorem test_wf_domain : Instr.wellFormed (.hysteresisExpiry 6) = false ∧ Instr.wellFormed (.domainOn 0x14) = false ∧
    Instr.wellFormed (.lowStateEntryComplete 0x2C) = false ∧ domainIdWf 0x54 = false ∧ domainIdWf 0x53 = true := by decide
theorem test_wf_group : Instr.wellFormed (.spanStart 65536) = false ∧ Instr.wellFormed (.spanEnd 65536) = false := by decide
theorem test_wf_burst : Instr.wellFormed (.housekeepingBurst 536870912 []) = false ∧
    Instr.wellFormed (.housekeepingBurst 0 [{ store := .scratch, addr := 0, flip := 1 }]) = false := by decide

/-! ### Panel instructions that issue -/

/-- Whether an instruction issues on panel 0, in a state that meets a check. -/
def met (s : State) (ins : Stitch) (q : State → Bool) : Bool :=
  s.fetchPanel 0 == some ins && (ins.fields.all fun f => s.tileIn (s.runCtx 0) s.panels[(0 : PanelId)].seq.loops f) &&
    (match (s.upsets 0 []).issuePanel 0 ins with
      | some (_, s') => q s'
      | none => false)

theorem met_of {s : State} {ins : Stitch} {q : State → Bool} (h : met s ins q = true) :
    ∃ t s', Issues s 0 [] ins t s' ∧ q s' = true := by
  simp only [met, Bool.and_eq_true, beq_iff_eq] at h
  obtain ⟨⟨h1, h2⟩, h3⟩ := h
  split at h3
  · next t s' h => exact ⟨t, s', ⟨h1, h2, h⟩, h3⟩
  · cases h3

/-- Whether an instruction word issues on panel 0, as the instruction given. -/
def issues (w : Nat) (ins : Stitch) : Bool := met (prog w) ins fun _ => true

theorem issues_of {w : Nat} {ins : Stitch} (h : issues w ins = true) :
    ∃ t s', Issues (prog w) 0 [] ins t s' :=
  let ⟨t, s', h, _⟩ := met_of h
  ⟨t, s', h⟩

/-! ### Every statement's hypotheses are met -/

theorem witness_EmptyQueuePassesOneNanosecond : ({ run with time := { xt32 := true } } : State).pending = [] ∧
    ({ run with time := { xt32 := true } } : State).time.xt32 = true := by decide
theorem witness_EveryStepKeepsTheStoresCanonical : State.reset.memWf ∧ ∃ t, step State.reset = .next t :=
  ⟨⟨by decide, by decide, by decide, by decide⟩, _, rfl⟩
theorem witness_NoStepClearsAFuse : ∃ t, step { run with fuses := { key := 1, flag := true } } = .next t := ⟨_, rfl⟩
theorem witness_CommandsKeepTheQueueAndTheClock : ∃ t, exec .statBlinkTimer run = .next t := ⟨_, rfl⟩
theorem witness_CommandsKeepTheWallTimebase : wholeReset .statBlinkTimer = false ∧ ∃ t, exec .statBlinkTimer run = .next t :=
  ⟨rfl, _, rfl⟩
theorem witness_CountersMoveByTheirEdgesAlone : (∀ a b, Instr.statBlinkTimer ≠ .encoderEdge 0 a b) ∧
    ∃ t, exec .statBlinkTimer run = .next t := ⟨nofun, _, rfl⟩
theorem witness_FaultPinAndHeldMarkersStayUntilAReset :
    let s : State := { run with pins := { fault := true }, markers := { inhibited := true } }
    anyReset .statBlinkTimer = false ∧ s.pins.fault = true ∧ s.markers.inhibited = true ∧
      ∃ t, exec .statBlinkTimer s = .next t := ⟨rfl, rfl, rfl, _, rfl⟩
theorem witness_ThermalTripStaysUntilAResetExit :
    let s : State := { run with pins := { thermtrip := true } }
    s.pins.thermtrip = true ∧ ∃ t, exec .rstAssert s = .next t := ⟨rfl, _, rfl⟩
theorem witness_StrapsAndPatternChangeInAdmissionAlone : anyReset .statBlinkTimer = false ∧
    ∃ t, exec .statBlinkTimer member = .next t := ⟨rfl, _, rfl⟩
theorem witness_WholeDeviceResetsClearTheThimble :
    (∀ c ∈ [Instr.porstAssert, .vaonInPowerUp, .brownOut], wholeReset c = true) ∧
    run.adm.burning = false ∧ run.flash.late = none ∧ run.flash.run = none := by decide
theorem witness_ResetPinKeepsTheThimble : run.pins.porstN = true ∧ run.running = true ∧ run.power.locked = true ∧
    run.isOn domHbm = true ∧ run.adm.burning = false ∧ run.flash.late = none ∧ run.flash.run = none := by decide
theorem witness_ResetExitStartsAdmission :
    let s : State := { State.reset with adm := { dev := .inReset } }
    let v : State := { s with pins := { thermtrip := true }, wake := { cause := 4 } }
    (let w (n : Nat) : State := { s with clock := n, power := { supplyFrom := some 0 } }
     (w (msPs - 1)).adm.dev = .inReset ∧ (w (msPs - 1)).power.supplyFrom = some 0 ∧ (w (msPs - 1)).clock < 0 + msPs ∧
      (w msPs).power.supplyFrom = some 0 ∧ 0 + msPs ≤ (w msPs).clock ∧ (w msPs).pins.thermtrip = false) ∧
    s.adm.dev = .inReset ∧ s.adm.step = 1 ∧ s.power.supplyFrom = none ∧ s.pins.thermtrip = false ∧ v.adm.dev = .inReset ∧
    v.power.supplyFrom = none ∧
    (v.pins.thermtrip = true ∧ v.wake.cause = 4 ∧ (1679 : Int) < 105 * 16) ∧
    (v.pins.thermtrip = true ∧ ¬ ((v.wake.cause = 1 ∨ v.wake.cause = 4) ∧ (1680 : Int) < 105 * 16)) := by decide

theorem witness_LegalEdgesMoveTheCounterByOne :
    (let l (p : PinLevel) := if p.heldNs < 5 then false else p.high
     let q (pa pb : PinLevel) := quadStep run.web.bLeads run.web.enc[(0 : DecId)].a run.web.enc[(0 : DecId)].b (l pa) (l pb)
     l { high := true, heldNs := 4 } = run.web.enc[(0 : DecId)].a ∧ l { high := false, heldNs := 5 } = run.web.enc[(0 : DecId)].b ∧
      q { high := true, heldNs := 5 } { high := true, heldNs := 4 } = .legal true ∧
      q { high := false, heldNs := 5 } { high := true, heldNs := 5 } = .legal false) ∧
    run.pins.porstN = true ∧ ({ run with pins := { porstN := false } } : State).pins.porstN = false := by decide
theorem witness_IllegalTransitionsAddUncertainty : run.pins.porstN = true ∧ 5 ≤ 5 ∧
    true ≠ run.web.enc[(1 : DecId)].a ∧ true ≠ run.web.enc[(1 : DecId)].b := by decide
theorem witness_WebEventsComplete :
    (let s : State := { run with
      pat := { intk := { other := 1, k := 256, tol := 65535 } }
      web := { enc := Vector.upd (Vector.replicate 2 {}) 0 fun e => { e with count := 65536 } } }
     s.running = true ∧ s.pat.intk.other = 1 ∧ 65536 ≤ (posDiff s.web.spanSource s.sourceCounter).natAbs ∧
      s.pat.intk.tol < (posDiff s.web.spanOther s.web.enc[s.other].count -
        rne (posDiff s.web.spanSource s.sourceCounter * s.pat.intk.k) 256).natAbs) ∧
    (let s : State := { run with
      pat := { intk := { other := 1, k := 256, tol := 65536 } }
      web := { enc := Vector.upd (Vector.replicate 2 {}) 0 fun e => { e with count := 65536 } } }
     s.running = true ∧ s.pat.intk.other = 1 ∧ 65536 ≤ (posDiff s.web.spanSource s.sourceCounter).natAbs ∧
      (posDiff s.web.spanOther s.web.enc[s.other].count -
        rne (posDiff s.web.spanSource s.sourceCounter * s.pat.intk.k) 256).natAbs ≤ s.pat.intk.tol) ∧
    (run.pins.porstN = true ∧ 50 ≤ 50 ∧ 5 ≤ 49 ∧ 49 < 50 ∧ 4 < 5) ∧
    (run.running = true ∧ run.web.stopped = false ∧ run.edges.lastWall + run.pat.dlin.stopUs * usPs ≤ run.time.wall) ∧
    (let s : State := { run with web := { stopped := true } }
     s.running = true ∧ s.web.stopped = true ∧ s.pat.dlin.restart ≤ (posDiff s.web.stopEntry s.sourceCounter).natAbs) ∧
    ({ run with adm := { dev := .stopped, step := 13 } } : State).sinceReady = true ∧
    (let s : State := { run with look := { ledger := [{ tag := 7 }] } }
     s.look.ledger.find? (·.tag == 7) = some { tag := 7 } ∧ s.running = true ∧
      posDiff s.position ((0 : Pos) + BitVec.ofNat 48 s.pat.dlin.horizon) ≤ 0) := by decide
theorem witness_RateWindowCompletes :
    let s : State := { run with time := { wall := msPs } }
    let v : State := { s with web := { episode := true, goodWindows := 98 } }
    let w : State := { s with web := { episode := true, goodWindows := 99 } }
    let x : State := { s with web := { rateEdges := 1 } }
    (s.running = true ∧ s.web.rateStart + msPs ≤ s.time.wall) ∧
    s.pat.dlin.cMax < x.web.rateEdges * 1000 ∧
    (¬ s.pat.dlin.cMax < s.web.rateEdges * 1000 ∧ ¬ s.pat.dlin.lMax < s.web.rateLines * 1000 ∧
      s.web.episode = false) ∧
    (¬ v.pat.dlin.cMax < v.web.rateEdges * 1000 ∧ ¬ v.pat.dlin.lMax < v.web.rateLines * 1000 ∧
      v.web.episode = true ∧ v.web.goodWindows + 1 < 100) ∧
    (w.web.episode = true ∧ 100 ≤ w.web.goodWindows + 1) := by decide

/-- At position 5, with a formed fire and n that pend. -/
def armed (t : Pos) (n : Nat) : State :=
  { run with
    web := { enc := Vector.upd (Vector.replicate 2 {}) 0 fun e => { e with count := 5 } }
    markers := { fires := { target := t } :: List.replicate n { stage := .pending } } }

theorem armed_held (t : Pos) (n : Nat) : (armed t n).markers.heldFires = n := by
  simp [armed, Markers.heldFires, List.countP_replicate]

theorem witness_ArmingFollowsThePosition :
    (∀ t n, ∃ rest, takeFirst (· == ({ target := t } : Fire)) (armed t n).markers.fires = some ({ target := t }, rest)) ∧
    posDiff (armed 4 1023).position 4 < 0 ∧ posDiff (armed 5 1023).position 5 = 0 ∧
    0 < posDiff (armed 6 1023).position 6 ∧ (armed 4 1023).markers.heldFires < 1024 ∧
    1024 ≤ (armed 6 1024).markers.heldFires := by
  refine ⟨fun t n => ⟨_, by simp [armed, takeFirst]; rfl⟩, ?_, ?_, ?_, by simp [armed_held], by simp [armed_held]⟩
  all_goals exact of_decide_eq_true rfl

theorem witness_MarkersComplete :
    let s (g : FireStage) : State := { run with markers := { fires := [{ stage := g }] } }
    (s .formed).markers.fires.find? (·.stage == .formed) = some { stage := .formed } ∧
    (s .due).markers.fires.any (Fire.isAt 0 .due) = true ∧
    takeFirst (fun f => Fire.isAt 0 .pulse f && f.mayEnd (s .pulse).clock) (s .pulse).markers.fires =
      some ({ stage := .pulse }, []) := by decide

/-- A step 1 that has waited, as step 1 begins on a part whose domains are on. -/
def step1 (pin refUv : Nat) (testN : Bool) : State × StepInput :=
  ({ run with adm := { dev := .admitting }, clock := 11 * msPs },
   { (default : StepInput) with
     pass1 := refUv :: List.replicate 10 pin, pass2 := refUv :: List.replicate 10 pin, testN := testN, vddioMv := 2700 })

theorem witness_StrapProblemsRefuse :
    (∀ v ∈ [step1 60000 200000 false, step1 60000 200000 true, step1 0 159999 true, step1 3000 200000 true, step1 180000 200000 true],
      v.1.adm.dev = .admitting ∧ v.1.adm.step = 1 ∧ v.1.stepPowered = true ∧ v.1.adm.since + 11 * msPs ≤ v.1.clock) ∧
    (let v := step1 60000 200000 false
     ((v.1.readLevels v.2).levels.test1 && (v.1.readLevels v.2).levels.test2) = false) ∧
    (let v := step1 0 159999 true
     ((v.1.readLevels v.2).levels.test1 && (v.1.readLevels v.2).levels.test2) = true ∧
      (v.1.readLevels v.2).levels.refFault = true) ∧
    (let v := step1 3000 200000 true
     (v.1.readLevels v.2).levels.refFault = false ∧ (v.1.readLevels v.2).levels.pin.any (·.fault) = true) ∧
    (let v := step1 180000 200000 true
     (v.1.readLevels v.2).levels.refFault = false ∧ (v.1.readLevels v.2).levels.pin.any (·.fault) = false ∧
      (v.1.readLevels v.2).level 2 = none) ∧
    (let v := step1 60000 200000 true
     let r := v.1.readLevels { v.2 with vddioMv := 0 }
     (r.levels.test1 && r.levels.test2) = true ∧ r.levels.refFault = false ∧ r.levels.pin.any (·.fault) = false ∧
      (∀ i, i < 10 → r.level i ≠ none) ∧ vddioOk r.flashClass 0 = false) ∧
    (let v := step1 60000 200000 true
     (v.1.readLevels v.2).strapCode v.2.vddioMv = none) := by decide

/-- A seal pattern at step 4 that names this part's stepping. -/
def sealing (d : BitVec 16) : State :=
  let b : List Byte := List.replicate 8 0 ++ [1, 0, 0, 0] ++ leBytes 2 d.toNat ++ List.replicate 30 0
  { run with
    adm := { dev := .admitting, step := 4 }
    pat := {
      head := { bytes := List.replicate 0x30 0 ++ b.drop 8, stepCount := 1, steppings := [d.toNat], major := 1, flags := 1 }
      bound := b } }

theorem sealing_compat (d : BitVec 16) (h : d = Config.stepping) : (sealing d).compatCode = none := by
  have e : uAt (sealing d).pat.bound 0x0C 2 = d.toNat := by
    have := d.isLt
    simp [sealing, uAt, sliceB, leBytes, leNat]
    omega
  have e1 : uAt (sealing d).pat.bound 8 1 = 1 := rfl
  have e2 : (sealing d).pat.bound =
      sliceB (sealing d).pat.head.bytes 8 4 ++ sliceB (sealing d).pat.head.bytes 0x14 4 ++
        sliceB (sealing d).pat.head.bytes 0x30 0x24 := rfl
  have e3 : (sealing d).pat.head.stepCount = 1 ∧ (sealing d).pat.head.steppings = [d.toNat] ∧
    (sealing d).pat.head.major = 1 ∧ (sealing d).pat.head.minor = 0 ∧ (sealing d).pat.table = [] := ⟨rfl, rfl, rfl, rfl, rfl⟩
  obtain ⟨a1, a2, a3, a4, a5⟩ := e3
  simp [State.compatCode, firstCode, e1, a1, a2, a3, a4, a5, ← e2, ← h, e]

theorem witness_AdmissionCompletes :
    (let s : State := { run with adm := { dev := .admitting, step := 5 } }
     s.adm.dev = .admitting ∧ s.stepPowered = true ∧ s.adm.step ≠ 1) ∧
    ({ run with adm := { dev := .bootHold } } : State).adm.dev = .bootHold ∧
    (let s : State := { member with adm := { dev := .admitting, step := 12 }, clock := 500 * msPs }
     s.adm.dev = .admitting ∧ s.adm.step = 12 ∧ s.role ≠ 0 ∧ s.isMaster = false ∧
      s.bolt.formFrom + 500 * msPs ≤ s.clock) ∧
    (let s := sealing Config.stepping
     s.adm.dev = .admitting ∧ s.adm.step = 4 ∧ s.stepPowered = true ∧ s.adm.burning = false ∧ s.compatCode = none ∧
      s.pat.head.flags % 2 = 1) ∧
    (let s : State := { run with adm := { dev := .admitting, step := 4, burning := true } }
     s.adm.dev = .admitting ∧ s.adm.step = 4 ∧ s.stepPowered = true ∧ s.adm.burning = true) :=
  ⟨by decide, by decide, by decide, ⟨rfl, rfl, rfl, rfl, sealing_compat _ rfl, rfl⟩, by decide⟩

theorem witness_PllCompletes :
    (∀ d ∈ [Device.admitting, .running],
      let s : State := { run with adm := { dev := d }, power := { pll := true }, clock := msPs }
      s.power.pll = true ∧ s.power.locked = false ∧ s.power.pllSince + msPs ≤ s.clock ∧ s.adm.dev = d) ∧
    (let s (v : BitVec 6) : State := { run with power := { pll := true, vidTarget := v }, clock := 10 * usPs }
     (∀ v, (s v).power.pll = true ∧ (s v).power.locked = false) ∧
      ({ s 14 with power := { (s 14).power with locked := true } } : State).startCore.power.clockPending = true ∧
      ({ s 15 with power := { (s 15).power with locked := true } } : State).startCore.power.clockPending = false) :=
  ⟨by decide, fun _ => ⟨rfl, rfl⟩, by rfl, by rfl⟩

theorem witness_FlashAndCommitsComplete :
    (let s (t : Nat) : State := { run with time := { wall := t } }
     run.pins.blinkAt + 25 * msPs ≤ (s (25 * msPs)).time.wall ∧ (s (25 * msPs - 1)).time.wall < run.pins.blinkAt + 25 * msPs) ∧
    run.isOn domFlash = true ∧
    (let s : State := { run with flash := { run := some { ops := [.program 0 []] } }, clock := 5 * msPs }
     s.isOn domFlash = true ∧ s.operationLate = some ({ ops := [.program 0 []] }, .program 0 [])) ∧
    (let s : State := { run with intake := { nextSeq := 1048577 } }
     s.running = true ∧ s.intake.nextSeq ≠ 0 ∧ s.periodNow ≠ 0 ∧ s.periodNow ≠ s.flash.periodAt ∧ s.periodic = true ∧
      ({ s with hold := { st := .armed } } : State).periodic = false) ∧
    run.power.locked = true ∧ ({ run with power := {} } : State).power.locked = false ∧
    FlashCmd.reset ≠ .slotRead ∧ FlashCmd.reset ≠ .areaRead ∧
    (ctrl (0x83 * 2 ^ 56)).fetchControl = some .commit ∧
    (ctrl (0x82 * 2 ^ 56 + 0x101 * 2 ^ 16)).fetchControl = some (.stage 0 0x101) := by decide +kernel

/-- A running state whose one CSI-2 port is in a frame. -/
def inFrame : State :=
  { run with
    pat := { intk := { mask := 1, depth := 1, width := 64, ports := [{ pixels := 64 }] } }
    intake := { port := Vector.upd (Vector.replicate 4 {}) 0 fun p => { p with open_ := true, waiting := false } } }

theorem witness_ShortPacketsComplete :
    inFrame.portOn 0 = true ∧ inFrame.intake.port[(0 : CsiId)].open_ = true ∧
    inFrame.intake.port[(0 : CsiId)].waiting = false ∧ inFrame.portTakes 0 = true ∧
    (let s : State := inFrame.updCsi 0 fun p => { p with waiting := true }
     s.portOn 0 = true ∧ s.intake.port[(0 : CsiId)].waiting = true ∧ s.portTakes 0 = false) ∧
    (inFrame.pat.intkPort 0).vc = 0 ∧
    (∀ x ∈ [(0x00000000#32, 0), (0x07000001#32, 1), (0x0B000002#32, 2)], checkHeader x.1 = .clean x.2 ∧
      headerChannel x.2 = 0 ∧ headerType x.2 = x.2) ∧
    (∀ x ∈ [(0x01000000#32, 0), (0x07000000#32, 1), (0x0B000000#32, 2)], checkHeader x.1 = .corrected x.2 ∧
      headerChannel x.2 = 0 ∧ headerType x.2 = x.2) ∧
    checkHeader 3 = .uncorrectable := by decide
theorem witness_LinePartsComplete :
    inFrame.portOn 0 = true ∧ inFrame.portTakes 0 = true ∧
    (let k (h : Nat) : LongPacket := { header := BitVec.ofNat 32 h, payload := [], crc := 0 }
     let p := inFrame.pat.intkPort 0
     checkHeader (k 0).header = .clean 0 ∧ p.takes 0 = true ∧ checkHeader (k 0x07000001).header = .clean 1 ∧ p.takes 1 = false ∧
      checkHeader (k 1).header = .corrected 0 ∧ checkHeader (k 0x07000003).header = .corrected 1 ∧
      checkHeader (k 3).header = .uncorrectable) ∧
    (let s : State := inFrame.updCsi 0 fun p => { p with waiting := true }
     s.portOn 0 = true ∧ s.portTakes 0 = false) ∧
    (let s : State := { run with intake := { asm := [{}] }, pat := { dlin := { lMax := 1 } }, clock := 4 * 10 ^ 12 }
     s.intake.asm = [{}] ∧ 4 * 10 ^ 12 ≤ (s.clock - ({} : AsmLine).firstAt) * s.pat.dlin.lMax) ∧
    (let s : State := { run with intake := { done := [{}] } }
     s.intake.done = [{}] ∧ s.running = true) := by decide

/-- Sixteen lines of one pixel in the bobbin, seen by the sentinel, the part being at the head of a standalone web. -/
def swath0 : State :=
  { run with
    pat := { intk := { depth := 8, width := 1 } }
    intake := { nextSeq := 16, gapNext := 16 }
    bobbin := (List.range 16).map fun i => (i, { seq := BitVec.ofNat 40 i, pixels := [0], seen := true }) }

theorem witness_SentinelCompletes :
    ((swath0.nextSwath).map (·.1) = some 0 ∧ swath0.sentinelScreens = true) ∧
    (let s : State := run.updArray 0 fun x => { x with full := [{}] }
     s.sentinel.arrays[(0 : ArrayId)].full = {} :: []) ∧
    (let s : State := { run with
      pat := { sntl := { watch := 1 }, votes := [{ id := domIntake 0 }] }
      power := { run.power with restoring := true }
      time := { wall := 10 * msPs } }
     s.watchPort = some 0 ∧ s.watching = true ∧ s.sentinel.watchTick < s.time.wall / (10 * msPs)) := by decide

theorem witness_TablesComplete :
    (let s : State := { run with tables := { pf := some 0 } }
     s.running = true ∧ s.tables.counting = true ∧ s.tables.pf = some 0 ∧ reached s.position 0 = true) ∧
    ({ run with tables := { building := true } } : State).tables.building = true ∧
    (let s : State := { run with tables := { store := [{ shipped := true, tid := 1, damaged := true }] } }
     s.tables.store.filter (fun c => c.made && (c.damaged || lensCrc c.lens != c.crc)) ≠ []) ∧
    (let s : State := { run with tables := { windowOpen := true }, pat := { window := 0 } }
     s.tables.windowOpen = true ∧ s.windowOver = true) := by decide

/-- The same with tile 1 in HBM, tile 2 compressed and one free stream line. -/
def moves (w : Nat) : State :=
  let s := prog w
  { s with
    pat := { s.pat with tiles := (s.pat.tiles.set 1 { s.pat.tile 1 with space := 2 }).set 2 { s.pat.tile 2 with form := 1 } }
    commons := { stream := [9] } }

theorem witness_PanelMovesComplete :
    (∃ t s', Issues (prog (0x01 * 2 ^ 56 + 2 ^ 32)) 0 [] (.loadt 0 1 0 0 0) t s') ∧
    (∃ t s', Issues (moves (0x02 * 2 ^ 56 + 2 * 2 ^ 32)) 0 [] (.storet 0 2) t s' ∧
      decide ((s'.pat.tile 0).form = 0 ∧ (s'.pat.tile 2).form = 1) = true) ∧
    (∃ t s', Issues (moves (0x02 * 2 ^ 56 + 3 * 2 ^ 32)) 0 [] (.storet 0 3) t s' ∧
      (!decide ((s'.pat.tile 0).form = 0 ∧ (s'.pat.tile 3).form = 1)) = true) ∧
    ((moves 0).isOn domHbm = true ∧ ((moves 0).updDom domHbm fun d => { d with st := .retention }).isOn domHbm = false) ∧
    (∃ t s', Issues (moves (0x03 * 2 ^ 56 + 2 ^ 44 + 2 ^ 30)) 0 [] (.streamw 1 0 1 0 0) t s' ∧ true = true) ∧
    (∃ t s', Issues (moves (0x70 * 2 ^ 56 + 2 ^ 44)) 0 [] (.pin 1) t s' ∧
      (let r := (s'.pat.tile 1).range s'.panels[(0 : PanelId)].seq.loops
       s'.pinOf r.1 r.2 == none &&
        (s'.freeLines.take (ceilDiv (r.2 - r.1) 4096)).length == ceilDiv (r.2 - r.1) 4096) = true) ∧
    (∃ t s', Issues (prog (0x70 * 2 ^ 56)) 0 [] (.pin 0) t s' ∧
      (let r := (s'.pat.tile 0).range s'.panels[(0 : PanelId)].seq.loops
       decide ((s'.freeLines.take (ceilDiv (r.2 - r.1) 4096)).length < ceilDiv (r.2 - r.1) 4096)) = true) ∧
    (∃ t s', Issues (prog (0x71 * 2 ^ 56)) 0 [] (.free 0) t s') ∧
    (∃ t s', Issues (prog (0x60 * 2 ^ 56 + 2 ^ 32)) 0 [] (.combine 0 1 0 1 0) t s') :=
  ⟨issues_of (by decide), met_of (by decide), met_of (by decide), by decide, met_of (by decide), met_of (by decide),
    met_of (by decide), issues_of (by decide), issues_of (by decide)⟩

theorem witness_FillsAndTreesComplete :
    (∀ b, let s : State := { run with commons := { pins := [{ st := .filling, freeing := b }] } }
     s.nextFill = some { st := .filling, freeing := b }) ∧
    (let s : State := { run with commons := { pins := [{ bad := [7] }] } }
     s.commons.pins.find? (!·.bad.isEmpty) = some { bad := [7] }) ∧
    (let s : State := { run with commons := { trees := [{ id := 3, g := 1, parts := [(0, 0, 0)] }] } }
     (s.commons.trees.find? fun t => t.id == (3 : Fin 16).val && decide (t.g ≤ t.parts.length)) =
      some { id := 3, g := 1, parts := [(0, 0, 0)] }) ∧
    (∀ b, let s : State := { run with hbm := { repairs := [(5, 1)] }, adm := { run.adm with flashWaiting := b } }
     s.hbm.repairs = [(5, 1)] ∧ s.adm.flashWaiting = b) := by decide

theorem witness_TableAndRowInstructionsComplete : ∀ x ∈ [0x28, 0x29, 0x38, 0x39, 0x3A, 0x3B],
    issues (x * 2 ^ 56 + 2 ^ 32 + 2 * 2 ^ 20) (.vector x 0 1 2 0 0 0) = true := by decide

theorem witness_PanelControlCompletes : panelOf 0 = some 0 ∧
    issues 3 (.nop 3) = true ∧ issues (0x40 * 2 ^ 56 + 2 ^ 28) (.loop 1 1) = true ∧
    issues (0x50 * 2 ^ 56 + 2 ^ 51 + 2 ^ 38) (.sigk 1 0 1) = true ∧
    issues (0x51 * 2 ^ 56) (.waitk 0 0) = true ∧ (0 ≤ (prog (0x51 * 2 ^ 56)).panels[(0 : PanelId)].seq.tokens.getD 0 0) ∧
    issues (0x78 * 2 ^ 56 + 0x20 * 2 ^ 40) (.vote 0x20) = true ∧
    issues (0x79 * 2 ^ 56 + 0x20 * 2 ^ 40) (.unvote 0x20) = true ∧
    (let s (n : Nat) : State := { run.updPanel 0 fun x => { x with seq := { x.seq with flying := [(1, 2, 3)] } } with clock := n }
     (s 0).panels[(0 : PanelId)].seq.flying = [(1, 2, 3)] ∧ (s 0).own 0 (s 0).cycleNow < 3 ∧
      3 ≤ (s usPs).own 0 (s usPs).cycleNow) := by decide
theorem witness_PanelControlCompletes_waits : issues (0x51 * 2 ^ 56 + 2 ^ 30) (.waitk 0 1) = true ∧
    (prog (0x51 * 2 ^ 56 + 2 ^ 30)).panels[(0 : PanelId)].seq.tokens.getD 0 0 < 1 := by decide

theorem witness_ControlSequencerCompletes : panelOf 16 = none ∧
    (ctrl 3).fetchControl = some (.nop 3) ∧
    (ctrl (0x40 * 2 ^ 56 + 2 ^ 28)).fetchControl = some (.loop 1 1) ∧
    (ctrl (0x50 * 2 ^ 56 + 2 ^ 38)).fetchControl = some (.sigk 0 0 1) ∧
    (ctrl (0x51 * 2 ^ 56)).fetchControl = some (.waitk 0 0) ∧ 0 ≤ (ctrl 0).control.seq.tokens.getD 0 0 ∧
    (ctrl (0x51 * 2 ^ 56 + 2 ^ 30)).fetchControl = some (.waitk 0 1) ∧ (ctrl 0).control.seq.tokens.getD 0 0 < 1 ∧
    (ctrl (0x78 * 2 ^ 56 + 0x20 * 2 ^ 40)).fetchControl = some (.vote 0x20) ∧
    (ctrl (0x79 * 2 ^ 56 + 0x20 * 2 ^ 40)).fetchControl = some (.unvote 0x20) ∧
    (ctrl (0x7F * 2 ^ 56)).fetchControl = some .halt ∧ (ctrl (0x80 * 2 ^ 56)).fetchControl = some .pllsw ∧
    (ctrl (0x81 * 2 ^ 56 + 2 * 2 ^ 48)).fetchControl = some (.waite 2) ∧
    (BitVec.ofNat 5 2 &&& ({ ctrl 0 with control := { events := 2 } } : State).control.events) ≠ 0 ∧
    (BitVec.ofNat 5 2 &&& (ctrl 0).control.events) = 0 ∧
    (∀ n ∈ [0, 400], let w := (stepped { ctrl (0x80 * 2 ^ 56) with power := { run.power with coreMhz := n } }).requestPll
      w.power.locked = true ∧ w.power.coreMhz = n) ∧
    (let s (n : Nat) : State := { run with control := { seq := { flying := [(1, 2, 3)] } }, clock := n }
     (s 0).control.seq.flying = [(1, 2, 3)] ∧ (s 0).cycleNow < 3 ∧ 3 ≤ (s usPs).cycleNow) := by decide

theorem witness_SlotsAndSpansComplete :
    issues (0x7F * 2 ^ 56) .halt = true ∧
    (let s := prog (0x7C * 2 ^ 56 + 2 * 2 ^ 40 + 2 ^ 28 + 9)
     s.fetchPanel 0 = some (.slot 2 1 9) ∧ (s.group (s.pat.groupOf 0)).ending = false ∧ s.runBusy 0 2 = false ∧
      (s.issuePanel 0 (.slot 2 1 9)).isSome = true ∧
      ((s.updGroup (s.pat.groupOf 0) fun x => { x with ending := true }).group (s.pat.groupOf 0)).ending = true) ∧
    (let s := (prog 0).updPanel 0 fun x => { x with span := some (0, 1, 5), seq := { x.seq with pc := 1 } }
     s.panels[(0 : PanelId)].span = some (0, 1, 5) ∧ s.panels[(0 : PanelId)].seq.active = true ∧
      s.panels[(0 : PanelId)].seq.pc = 1) ∧
    issues (0x7D * 2 ^ 56) (.verdict 0) = true ∧
    (let s := (prog 0).updGroup 0 fun x => { x with starting := true }
     s.running = true ∧ (s.group 0).starting = true ∧ s.pat.groupPanels 0 ≠ [] ∧
      ((s.pat.groupPanels 0).all fun n => s.isOn (domPanel n.val)) = true) ∧
    (let s := (prog 0).updGroup 0 fun x => { x with inSpan := true }
     s.running = true ∧ (s.group 0).inSpan = true ∧ (s.group 0).ending = false ∧ s.onDuty 0 = false ∧
      s.windowPending = false ∧ hystPassed (s.groupHyst 0) (max (s.group 0).busyWall s.look.pendingWall) s.time.wall = true) := by decide

theorem witness_PanelMatricesComplete :
    (∃ t s', Issues (prog (0x10 * 2 ^ 56 + 4 * 2 ^ 32)) 0 [] (.mm 0 0 0 0 0 0 4 0 0) t s') ∧
    (∃ t s', Issues (prog (0x08 * 2 ^ 56 + 2 ^ 51)) 0 [] (.drain 0 0 0 1 0) t s') ∧
    (∃ t s', Issues (prog (0x11 * 2 ^ 56 + 2 ^ 36)) 0 [] (.cimv 0 1 0 0 1 0 0 0) t s') :=
  ⟨issues_of (by decide), issues_of (by decide), issues_of (by decide)⟩

theorem witness_ElementwiseInstructionsComplete :
    (∀ x ∈ binaryOps, issues (x.1 * 2 ^ 56 + 2 ^ 32 + 2 * 2 ^ 20) (.vector x.1 0 1 2 0 0 0) = true) ∧
    (∀ x ∈ unaryOps, issues (x.1 * 2 ^ 56 + 2 ^ 32) (.vector x.1 0 1 0 0 0 0) = true) ∧
    (∀ x ∈ functionOps, issues (x.1 * 2 ^ 56 + 2 ^ 32) (.vector x.1 0 1 0 0 0 0) = true) := by decide

/-- A periodic-defect history of ten positions a segment. -/
def roll : Hist := { cRoll := 100, lSeg := 10, segPerRev := 10, revs := 2, keyW := 32, valW := 32, fmt := 2, budget := 4 }

/-- A running state with a history, at a position. -/
def rolling (q : Pos) (segs : List Segment) : State :=
  { run with
    pat := { hist := some roll }
    web := { enc := Vector.upd (Vector.replicate 2 {}) 0 fun e => { e with count := q } }
    history := { segs := segs } }

theorem witness_HistoryCompletes :
    (∀ x ∈ [WinState.waiting, .held], let s : State := { rolling 5 [] with look := { ledger := [{ tag := 7, st := x }] } }
      s.look.ledger.find? (·.tag == 7) = some { tag := 7, st := x } ∧ s.pat.hist = some roll) ∧
    (let w : Window := { tag := 7, st := .held }
     (w.holdOn = 0 ∨ w.holdKeys = []) ∧ ({ rolling 5 [] with look := { ledger := [w] } } : State).refillLost w = false ∧
      ({ rolling 5 [] with look := { ledger := [w], nextOrdinal := 1 } } : State).refillLost w = true) ∧
    (let s := rolling 30 []
     s.running = true ∧ s.web.lost = false ∧ s.pat.hist = some roll ∧ roll.startAt 10 = 10 ∧ reached s.position (s.sealAt roll 10) = true ∧
      reached s.history.readyPos (s.sealAt roll 10) = false ∧ ((s.segment 0 10).map (·.sealed_)).getD false = false ∧
      reached s.position (roll.expiryOf 10) = false) ∧
    (let x : Segment := { start := 10, sealed_ := true, expiry := 210 }
     let s := rolling 210 [x]
     let w := s.setSegs fun l => l.filter fun x => !(x.side != 0 && x.start == 10 && reached s.position x.expiry)
     w.segment 0 10 = some x ∧ x.sealed_ = true ∧ x.noticed = false ∧ reached w.position x.expiry = true ∧
      s.segment 0 10 = some x ∧
      reached s.position (x.expiry + BitVec.ofNat 48 (s.graceAt s.position)) = true) := by decide

/-- A running state whose station is 4 and whose event domain sleeps. -/
def asleep : State := member.updDom domEvent fun d => { d with st := .off }

theorem witness_EventPortAnswers : member.selected 0x5C = true ∧ member.isOn domEvent = true ∧
    member.selected 0x5D = false ∧
    ({ member with events := { queue := [{ ticket := 9 }] } } : State).events.queue.take (1#8).toNat = [{ ticket := 9 }] ∧
    (member.events.queue.take (1#8).toNat) = [] := by decide
theorem witness_SleepingEventDomainAnswersBusy : asleep.selected 0x5C = true ∧ asleep.isOn domEvent = false := by decide
theorem witness_CutTransactionsComplete : member.selected 0x5C = true ∧ member.isOn domEvent = true ∧
    asleep.selected 0x5C = true ∧ asleep.isOn domEvent = false := by decide
theorem witness_HeldRecordsEnter :
    let s : State := { run with events := { held := [{ type := 4 }] } }
    s.isOn domEvent = true ∧ s.dropToNote = none ∧ s.role ≠ 1 ∧ s.role ≠ 3 ∧ s.events.loss.discarded = 0 ∧
      (s.events.held.all fun r => !r.flags.getLsbD 2 && r.type != 7) = true ∧ s.events.ordinary + s.events.held.length ≤ 8191 := by decide

/-- Port E in a state of its link, with the other fields of f. -/
def link (l : LinkState) (f : Seam → Seam) : State := run.updSeam 0 fun p => f { p with link := l }

theorem witness_TrainingCompletes :
    (let s : State := { link .detect id with power := { run.power with seamclk := true } }
     s.seams[(0 : SeamId)].link = .detect ∧ s.power.seamclk = true) ∧
    (link .standby id).seams[(0 : SeamId)].link = .standby ∧ (link .off id).seams[(0 : SeamId)].link = .off ∧ (link .lock id).seams[(0 : SeamId)].link = .lock ∧
    (link .identify id).seams[(0 : SeamId)].link = .identify ∧ oppositePort 0 = 1 ∧ [0, 1, 3, 2] ≠ [0, 1, 2, 3] ∧
    [0, 1, 3, 2] ≠ [3, 2, 1, 0] ∧ (0 : Fin 4) ≠ oppositePort 0 ∧
    (link .deskew id).seams[(0 : SeamId)].link = .deskew ∧ 20000 ≤ 20000 ∧
    (link .measure id).seams[(0 : SeamId)].link = .measure ∧ (List.replicate 16 93).length = 16 ∧
    64 * (List.replicate 16 93).foldl max 0 ≤ 6000 ∧ 6000 < 64 * (List.replicate 16 94).foldl max 0 ∧
    (link .ready id).seams[(0 : SeamId)].link = .ready ∧
    (let s : State := { link .lock fun p => { p with leftDetect := some 0 } with clock := 10 ^ 12 }
     s.seams[(0 : SeamId)].trainingExpired s.clock = true) := by decide


/-- A flit of a kind with a good CRC, sequence number 0 and a link-control code in its payload. -/
def flit (kind code : Nat) : Flit :=
  let b : List Byte := [BitVec.ofNat 8 (16 * kind)] ++ List.replicate 11 0 ++ [BitVec.ofNat 8 code] ++ List.replicate 47 0
  b ++ leBytes 4 (crc32 b).toNat

theorem witness_DataFlitsGoInSequence :
    (link .up id).seams[(0 : SeamId)].link = .up ∧ (flit 0 0).set 20 1 ≠ [] ∧ flitGood ((flit 0 0).set 20 1) = false ∧
    flitGood (flit 0 0) = true ∧ flitKind (flit 0 0) = 0 ∧ flitGood (flit 1 0) = true ∧ flitKind (flit 1 0) = 1 ∧
    (((link .up id).applyFields 0 (flit 0 0)).sequence 0 (flit 0 0)).1 = true ∧
    (((link .up fun p => { p with rxSeq := 1 }).applyFields 0 (flit 0 0)).sequence 0 (flit 0 0)).1 = false := by
  decide +kernel

theorem witness_LinkTimersComplete :
    (link .up id).seams[(0 : SeamId)].link = .up ∧
    (let s : State := { link .up fun p => { p with retry := [{}] } with clock := usPs }
     s.seams[(0 : SeamId)].retry = [{}] ∧ ({} : SentFlit).sentAt + usPs ≤ s.clock ∧
      ({} : SentFlit).flit.seqNo ∉ s.seams[(0 : SeamId)].resend) ∧
    (let s : State := { link .up fun p => { p with retry := [{}], resend := [0] } with clock := usPs }
     s.seams[(0 : SeamId)].retry = [{}] ∧ ({} : SentFlit).sentAt + usPs ≤ s.clock ∧
      ({} : SentFlit).flit.seqNo ∈ s.seams[(0 : SeamId)].resend) ∧
    (let s : State := { link .up fun p => { p with episode := some {} } with clock := 2 * usPs }
     s.seams[(0 : SeamId)].episode = some {} ∧ ({} : Episode).since + 2 * usPs ≤ s.clock) ∧
    (let s : State := { link .up fun p => { p with stalled := Vector.replicate 4 (some 0) } with clock := 100 * usPs }
     s.seams[(0 : SeamId)].stalled[(3 : Fin 4)] = some 0 ∧ 0 + 100 * usPs ≤ s.clock) ∧
    (let s : State := { link .idleFailed id with clock := 10 * usPs }
     s.seams[(0 : SeamId)].link = .idleFailed ∧ s.seams[(0 : SeamId)].stateSince + 10 * usPs ≤ s.clock ∧
      s.votedOn (domSeam 0) = false ∧ (s.addVote .control (domSeam 0) false).votedOn (domSeam 0) = true) ∧
    ({ run with power := { seamclk := true } } : State).power.seamclk = true ∧
    ({ run with power := { seamclk := false } } : State).power.seamclk = false := by decide

theorem witness_SleepNegotiationCompletes :
    (∀ code ∈ [1, 2, 3, 4], ((link .up fun p => { p with sleep := .requested 1 }).takeControl 0 (flit 2 code) code).any
      (fun r => r.1 && r.2.seams[(0 : SeamId)].link == .up && r.2.seams[(0 : SeamId)].sleep == .requested 1 &&
        !r.2.seamWanted 0) = true) ∧
    (let s := link .up fun p => { p with sleep := .agreed 1 }
     s.seams[(0 : SeamId)].link = .up ∧ s.seams[(0 : SeamId)].sleep = .agreed 1 ∧
      s.seams[(0 : SeamId)].drained = true ∧ s.seamWanted 0 = false ∧
      (s.power.domains.any fun d => d.id == domSeam 0) = true) ∧
    (let s := (link .up fun p => { p with sleep := .agreed 2 }).addVote .control (domSeam 0) false
     s.seams[(0 : SeamId)].link = .up ∧ s.seams[(0 : SeamId)].sleep = .agreed 2 ∧
      s.seams[(0 : SeamId)].drained = true ∧ s.seamWanted 0 = true) := by decide +kernel

/-- A HELLO payload of a device at an address, whose byte 7 is given. -/
def hello (a : Nat) (b7 : Byte) : List Byte := leBytes 2 a ++ [1, 0, 0, 0, 0, b7]

theorem hello_passes : member.helloCheck 0
    (hello 0x4445 (BitVec.ofNat 8 (Config.stepping.toNat / 256))) = (false, 0) := by
  generalize h : Config.stepping = d
  have e : uAt (hello 0x4445 (BitVec.ofNat 8 (d.toNat / 256))) 7 1 = d.toNat / 256 := by
    have := d.isLt
    simp [hello, uAt, sliceB, leBytes, leNat]
    omega
  have e1 : BitVec.ofNat 16 (uAt (hello 0x4445 (BitVec.ofNat 8 (d.toNat / 256))) 0 2) = 0x4445#16 := rfl
  have e2 : uAt (hello 0x4445 (BitVec.ofNat 8 (d.toNat / 256))) 2 1 = 1 := rfl
  have e3 : uAt (hello 0x4445 (BitVec.ofNat 8 (d.toNat / 256))) 4 1 = 0 := rfl
  have e4 : uAt (hello 0x4445 (BitVec.ofNat 8 (d.toNat / 256))) 5 1 = 0 := rfl
  have e5 : uAt (hello 0x4445 (BitVec.ofNat 8 (d.toNat / 256))) 6 1 = 0 := rfl
  have e6 : sliceB (hello 0x4445 (BitVec.ofNat 8 (d.toNat / 256))) 8 8 = sliceB member.pat.head.fingerprint 0 8 := rfl
  have a1 : member.address = 0x4444#16 := by decide
  have a2 : member.neighbour 0 = 0x4445#16 := by decide
  have a3 : (oppositePort 0).val = 1 := rfl
  have a4 : member.pat.head.major = 0 ∧ member.pat.head.minor = 0 := ⟨rfl, rfl⟩
  simp [State.helloCheck, e, e1, e2, e3, e4, e5, e6, a1, a2, a3, a4, h]
theorem witness_HellosAdmitOrExclude_passes : ∃ m s',
    (withMsg member { vc := vcTick, type := 1, payload := hello 0x4445 (BitVec.ofNat 8 (Config.stepping.toNat / 256)) }
      ).takeMessage 0 vcTick 0x01 = some (m, s') ∧ s'.helloCheck 0 m.payload = (false, 0) :=
  ⟨_, _, rfl, hello_passes⟩
theorem witness_HellosAdmitOrExclude :
    ((withMsg member { vc := vcTick, type := 1, payload := hello 0x4444 0 }).takeMessage 0 vcTick 0x01).any
      (fun (m, s') => BitVec.ofNat 16 (uAt m.payload 0 2) == s'.address) = true ∧
    ((withMsg member { vc := vcTick, type := 1, payload := hello 0x4446 0 }).takeMessage 0 vcTick 0x01).any
      (fun (m, s') => s'.helloCheck 0 m.payload == (false, 4)) = true := by decide

/-- A running member in the bolt. -/
def inside : State := { member with bolt := { mode := 2, links := Vector.replicate 4 { inBolt := true } } }

/-- A running member whose BOLT entry takes position from TICK. -/
def follows : State := { inside with pat := { bolt := [{ addr := 0x4444, posFrom := 1 }] } }

theorem witness_BoltTimersComplete :
    (let s : State := { link .up id with bolt := { links := Vector.replicate 4 { helloDue := true } } }
     s.seams[(0 : SeamId)].link = .up ∧ (portSide 0).isSome = true ∧ s.bolt.links[(0 : SeamId)].helloDue = true) ∧
    (let s : State := { link .up id with intake := { nextSeq := 65536 } }
     65536 ≤ seqDiff s.bolt.links[(0 : SeamId)].helloLine s.intake.nextSeq) ∧
    (master.running = true ∧ master.isMaster = true ∧ master.role ≠ 0 ∧ master.tickDue = true) ∧
    (let s : State := { inside with bolt := { inside.bolt with kappa := 256 } }
     s.running = true ∧ s.followsTick = false ∧ 256 ≤ s.bolt.sinceStep ∧ 256 ≤ s.bolt.kappa ∧ s.bolt.swallow = false) ∧
    (let s : State := { inside with bolt := { inside.bolt with kappa := -256, insertDue := true } }
     s.running = true ∧ s.followsTick = false ∧ 256 ≤ s.bolt.sinceStep ∧ s.bolt.kappa ≤ -256 ∧
      s.bolt.insertDue = true ∧ (s.edges.last.map (· + 50000)).getD 0 ≤ s.clock) ∧
    (let s : State := { follows with clock := 50000, bolt := { loaded := true, target := 1 } }
     s.followsTick = true ∧ s.bolt.loaded = true ∧ s.bolt.follower ≠ s.bolt.target ∧ s.bolt.lastMove + 50000 ≤ s.clock) ∧
    (let s : State := { inside with clock := 10 * msPs }
     s.running = true ∧ s.inBolt = true ∧ s.isMaster = false ∧ s.bolt.lastTick + 10 * msPs ≤ s.clock) := by decide

/-- A TICK with flags. -/
def tickMsg (flags : Byte) : Message := { vc := vcTick, type := 2, payload := List.replicate 6 0 ++ [flags] ++ List.replicate 41 0 }

theorem witness_TicksAlign :
    (let s := withMsg master (tickMsg 0)
     (s.takeMessage 0 vcTick 0x02).isSome = true ∧ s.isMaster = true) ∧
    (let s := withMsg member (tickMsg 1)
     (s.takeMessage 0 vcTick 0x02).any (fun (m, _) => !s.tickUsable m.payload) = true ∧ s.isMaster = false) ∧
    (let s := withMsg inside (tickMsg 0)
     (s.takeMessage 0 vcTick 0x02).any (fun (m, _) => s.tickUsable m.payload) = true ∧ s.isMaster = false ∧
      s.inBolt = true ∧ s.followsTick = false) ∧
    (let s := withMsg follows (tickMsg 0)
     (s.takeMessage 0 vcTick 0x02).any (fun (m, _) => s.tickUsable m.payload) = true ∧ s.isMaster = false ∧
      s.inBolt = true ∧ s.followsTick = true) ∧
    (let s := withMsg { member with bolt := { mode := 3 } } (tickMsg 0)
     (s.takeMessage 0 vcTick 0x02).any (fun (m, _) => s.tickUsable m.payload) = true ∧ s.isMaster = false ∧
      s.inBolt = false ∧ s.mayJoin = true) ∧
    (let s := withMsg { member with bolt := { mode := 3, reason := 5 } } (tickMsg 0)
     (s.takeMessage 0 vcTick 0x02).any (fun (m, _) => s.tickUsable m.payload) = true ∧ s.isMaster = false ∧
      s.inBolt = false ∧ s.mayJoin = false) := by decide

/-- A message of the TICK class of a type and a sub-kind at byte 4. -/
def sweepMsg (type kind : Nat) : Message := { vc := vcTick, type := type, payload := List.replicate 4 0 ++ leBytes 1 kind ++ List.replicate 43 0 }

theorem witness_LatencySweepCompletes :
    (let s : State := { master with bolt := { latDue := some 0 } }
     s.running = true ∧ s.isMaster = true ∧ s.role ≠ 0 ∧ s.bolt.latMaster = none ∧ s.bolt.latUsed.2 = none ∧
      s.bolt.latDue = some 0 ∧ 0 ≤ s.clock) ∧
    (let s : State := { master with
      bolt := { latWanted := true, latDue := some (1000 * msPs + 1), latUsed := (1, some 0) }, clock := 1000 * msPs }
     s.running = true ∧ s.isMaster = true ∧ s.role ≠ 0 ∧ s.bolt.latMaster = none ∧ s.bolt.latUsed.2 = some 0 ∧
      0 + 1000 * msPs ≤ s.clock ∧ s.bolt.latWanted = true ∧ s.bolt.latDue = some (1000 * msPs + 1) ∧
      s.clock < 1000 * msPs + 1) ∧
    (let s : State := { inside with bolt := { inside.bolt with latRun := some 1, latSent := 255, latAt := 0 }, clock := 4 * usPs }
     s.inBolt = true ∧ s.bolt.latRun = some 1 ∧ s.bolt.latSent < 256 ∧ s.bolt.latAt + 4 * usPs ≤ s.clock ∧
      s.linkIn 0 = true ∧ s.bolt.links[(0 : SeamId)].measured = false ∧ member.linkIn 0 = false ∧
      (s.updLink 0 fun l => { l with measured := true }).bolt.links[(0 : SeamId)].measured = true) ∧
    (let s : State := { inside with bolt := { inside.bolt with latRun := some 1, latSent := 256 }, clock := msPs }
     s.inBolt = true ∧ s.bolt.latRun = some 1 ∧ s.bolt.latSent = 256 ∧ s.bolt.latAt + msPs ≤ s.clock) ∧
    (∀ ok, let s : State := { master with bolt := { latMaster := some (0, ok, 9) }, clock := 100 * msPs }
      s.bolt.latMaster = some (0, ok, 9) ∧ 0 + 100 * msPs ≤ s.clock) ∧
    ((withMsg inside (sweepMsg 3 0)).takeMessage 0 vcTick 0x03).any
      (fun (m, s') => uAt m.payload 4 1 == 0 && s'.inBolt) = true ∧
    ((withMsg inside (sweepMsg 3 1)).takeMessage 0 vcTick 0x03).any (fun (m, s') => uAt m.payload 4 1 == 1 && s'.inBolt) = true ∧
    (let s : State := { inside with bolt := { links := Vector.replicate 4 { measured := true }, latRun := some 0 } }
     ((withMsg s (sweepMsg 4 0)).takeMessage 0 vcTick 0x04).any (fun (m, s') =>
      s'.bolt.links[(0 : SeamId)].measured && s'.bolt.latRun == some (BitVec.ofNat 32 (uAt m.payload 0 4))) = true) ∧
    (∀ kind ∈ [0, 1, 2], ((withMsg inside (sweepMsg 5 kind)).takeResult 0 kind).any (fun (_, s') => s'.inBolt) = true) ∧
    ((withMsg master (sweepMsg 5 3)).takeResult 0 3).any (fun (_, s') => s'.isMaster) = true := by decide

theorem witness_CalibrationSweepCompletes :
    (let s : State := { master with bolt := { calWanted := true, calLast := some 0 }, clock := 60000 * msPs }
     s.running = true ∧ s.isMaster = true ∧ s.role ≠ 0 ∧ s.bolt.calWanted = true ∧ s.bolt.calMaster = none ∧
      s.bolt.calLast = some 0 ∧ 0 + 60000 * msPs ≤ s.clock) ∧
    (let s : State := { inside with bolt := { calRun := some (1, 0, 65536), calSides := [0], calFirst := some 0 }, intake := { nextSeq := 1048576 } }
     s.bolt.calRun = some (1, 0, 65536) ∧ s.bolt.calSums = none ∧ s.sumsLate = true) ∧
    (let s : State := { inside with bolt := { calRun := some (1, 0, 65536), calSums := some 0 }, clock := 1000 * msPs }
     s.bolt.calRun.isSome = true ∧ s.bolt.calDone = false ∧ s.bolt.calWest = none ∧ s.bolt.calSums = some 0 ∧
      0 + 1000 * msPs ≤ s.clock) ∧
    (∀ ok, let s : State := { master with bolt := { calMaster := some (ok, some 0) }, clock := 2000 * msPs }
      s.bolt.calMaster = some (ok, some 0) ∧ 0 + 2000 * msPs ≤ s.clock) ∧
    ((withMsg inside (sweepMsg 6 0)).takeSweep 0 0).any (fun (_, s') => s'.inBolt) = true ∧
    (let s : State := { inside with bolt := { calRun := some (0, 0, 65536) } }
     ((s.updSeam 1 fun p => { p with inbox := [sweepMsg 6 1] }).takeSweep 1 1).any
       (fun (m, s') => s'.bolt.calRun.map (·.1) == some (BitVec.ofNat 32 (uAt m.payload 0 4)) && !s'.bolt.calDone) = true ∧
     (∀ kind ∈ [3, 4], ((withMsg s (sweepMsg 6 kind)).takeSweep 0 kind).any
       (fun (m, s') => s'.bolt.calRun.map (·.1) == some (BitVec.ofNat 32 (uAt m.payload 0 4))) = true)) ∧
    ((withMsg master (sweepMsg 6 2)).takeSweep 0 2).any
      (fun (m, s') => BitVec.ofNat 32 (uAt m.payload 0 4) == s'.bolt.calUsed) = true ∧
    ((withMsg master (sweepMsg 6 5)).takeSweep 0 5).any (fun (_, s') => s'.isMaster) = true := by decide

/-- A halo message: line 0, present. -/
def haloMsg (type : Nat) : Message :=
  { vc := vcLine, type := type, payload := List.replicate 5 0 ++ [1] ++ List.replicate 42 0 }

/-- A member in the bolt whose line offset at port E is 3. -/
def beside (ring : List (Nat × HaloEntry)) : State :=
  { inside with
    bolt := { links := Vector.replicate 4 { delta := some 3 }, halo := Vector.replicate 2 { ring := ring } }
    pat := { intk := { depth := 8, width := 64 } } }

theorem witness_HaloLinesComplete :
    portSide 0 = some 1 ∧
    (∀ type ∈ [0x10, 0x11], let s := beside []
      ((withMsg s (haloMsg type)).takeMessage 0 vcLine type).any
        (fun (m, s') => (s'.bolt.links[(0 : SeamId)].place (BitVec.ofNat 40 (uAt m.payload 0 5))).2 == some 3) = true ∧
      s.writable 1 3 = true ∧ s.bolt.links[(0 : SeamId)].returning = false ∧ s.bolt.halo[(1 : Fin 2)].ring = [] ∧
      (beside [(3, { seq := 3, flags := 1 })]).writable 1 3 = false) ∧
    (∀ b, let s : State := { (beside []).updSeam 1 fun p => { p with failed := b } with
        bolt := { halo := Vector.replicate 2 { watch := [(5, 0)] } }, clock := 2 * 10 ^ 12 }
     s.bolt.halo[(0 : Fin 2)].watch = (5, 0) :: [] ∧ s.lineDeadline 0 0 ≤ s.clock ∧ s.writable 0 5 = true ∧
      ({ s with bolt := { halo := Vector.replicate 2 { ring := [(5, { seq := 5, flags := 1 })], watch := [(5, 0)] } } } :
        State).writable 0 5 = false) := by decide

/-- A member in the bolt with a history and segments held. -/
def keeper (segs : List Segment) : State :=
  { inside with pat := { hist := some roll }, history := { segs := segs } }

/-- A history message about the segment at 10, stamped q. -/
def histMsg (type q : Nat) : Message :=
  { vc := vcHist, type := type, payload := leBytes 6 10 ++ leBytes 6 q ++ List.replicate 100 0 }

theorem witness_BoltMessagesComplete :
    (let x : Segment := { start := 10, sealed_ := true, expiry := 210, stored := List.replicate 64 0 }
     (keeper [x]).pat.hist = some roll ∧
     ((withMsg (keeper [x]) (histMsg 0x30 209)).takeMessage 0 vcHist 0x30).any (fun (m, s') => s'.inBoltOn 0 &&
       s'.segment 0 (BitVec.ofNat 48 (uAt m.payload 0 6)) == some x && x.sealed_ && !x.absent && !x.damaged &&
         s'.commons.badParity.isEmpty && s'.hbm.errors.isEmpty && s'.homeBlocks roll 10 == some x.stored &&
         (s'.readHome roll 10 x.stored).1 == some x.stored &&
         ({ s' with commons := { badParity := [4096 * (2048 - s'.pat.historyLines)] } }.readHome roll 10 x.stored).1 == none &&
         !reached (BitVec.ofNat 48 (uAt m.payload 6 6)) (roll.expiryOf (BitVec.ofNat 48 (uAt m.payload 0 6)))) = true ∧
     ((withMsg (keeper [x]) (histMsg 0x30 210)).takeMessage 0 vcHist 0x30).any (fun (m, s') => s'.inBoltOn 0 &&
       reached (BitVec.ofNat 48 (uAt m.payload 6 6)) (roll.expiryOf (BitVec.ofNat 48 (uAt m.payload 0 6)))) = true) ∧
    ((withMsg (keeper []) (histMsg 0x30 5)).takeMessage 0 vcHist 0x30).any (fun (m, s') => s'.inBoltOn 0 &&
       s'.homeBlocks roll (BitVec.ofNat 48 (uAt m.payload 0 6)) == none) = true ∧
    portSegs 0 = some 2 ∧
    ((withMsg (keeper []) (histMsg 0x31 5)).takeMessage 0 vcHist 0x31).any (fun (m, s') => s'.inBoltOn 0 &&
       !reached s'.position (roll.expiryOf (BitVec.ofNat 48 (uAt m.payload 0 6))) &&
         s'.segment 2 (BitVec.ofNat 48 (uAt m.payload 0 6)) == none) = true ∧
    (∀ type ∈ [0x32, 0x33], ((withMsg (keeper []) (histMsg type 5)).takeMessage 0 vcHist type).any
      (fun (m, s') => s'.inBoltOn 0 && s'.segment 2 (BitVec.ofNat 48 (uAt m.payload 0 6)) == none) = true) ∧
    (let collector : State := { inside with levels := pinsAt 12 }
     let s := withMsg { collector with pat := { hist := some roll } } { vc := vcEvent, type := 0x20, payload := List.replicate 48 0 }
     s.pat.hist = some roll ∧ (s.takeMessage 0 vcEvent 0x20).any (fun (m, s') => s'.inBoltOn 0 && s'.role == 2 && s'.inBolt &&
       s'.events.lastOf.find? (·.1 == (Record.ofBytes m.payload).source) == none) = true ∧
     (({ s with events := { lastOf := [(0, 0)] } } : State).takeMessage 0 vcEvent 0x20).any (fun (m, s') => s'.inBoltOn 0 &&
       s'.role == 2 && s'.inBolt && s'.events.lastOf.find? (·.1 == (Record.ofBytes m.payload).source) == some (0, 0) &&
         decide (((Record.ofBytes m.payload).seqNo - 0).toInt ≤ 0) && (Record.ofBytes m.payload).type != 8) = true ∧
     (({ s with events := { lastOf := [(0, 0xFFFFFFFF)] } } : State).takeMessage 0 vcEvent 0x20).any (fun (m, s') =>
       s'.events.lastOf.find? (·.1 == (Record.ofBytes m.payload).source) == some (0, 0xFFFFFFFF) &&
         decide (0 < ((Record.ofBytes m.payload).seqNo - 0xFFFFFFFF).toInt)) = true ∧
     (let r := Record.ofBytes ([8] ++ List.replicate 12 0 ++ [1] ++ List.replicate 18 0)
      r.type = 8 ∧ r.sub = 1)) := by decide

theorem witness_DomainsComplete :
    (let s : State := { run with power := { run.power with votes := [] } }
     s.power.domains.find? (·.id == 0x20) = some { id := 0x20, st := .on } ∧ s.isOn 0x20 = true ∧ s.votedOn 0x20 = false ∧
      hystPassed (s.voteEntry 0x20).hyst 0 s.time.wall = true) ∧
    (∀ r, let s := run.updDom 0x20 fun d => { d with st := .entering r true }
      s.dom 0x20 = .entering r true ∧ ∀ q, seamOf 0x20 = some q → s.seams[q].link ≠ .up ∧ s.seams[q].inbox = []) ∧
    (let v : Vote := { client := .wake 1, domain := 0x20, retain := false }
     let s : State := { run with power := { votes := [v] } }
     v ∈ s.endWakes.power.votes ∧ v.client = .wake 1) ∧
    (∀ r, let s := run.updDom 0x20 fun d => { d with st := .waking r }
      s.dom 0x20 = .waking r ∧ s.mayTurnOn 0x20 = true ∧ ¬ (0x20 = domHbm ∧ s.hbm.lost = true)) ∧
    (let s : State := { run.updDom domHbm fun d => { d with st := .waking false } with hbm := { lost := true } }
     s.dom domHbm = .waking false ∧ s.mayTurnOn domHbm = true ∧ s.hbm.lost = true ∧
      s.power.votes.any (fun v => v.client == .reload) = false) := by decide

theorem witness_RestAndReloadComplete :
    (let s : State := { run with web := { stopped := true }, pat := { restMs := 1 }, time := { wall := msPs } }
     s.running = true ∧ s.web.stopped = true ∧ s.power.web = .run ∧ s.pat.restMs ≠ 0 ∧
      s.web.stopSince + s.pat.restMs * msPs ≤ s.time.wall) ∧
    (let s : State := { run with power := { run.power with web := .rest }, pat := { deepS := 1 }, time := { wall := 1000 * msPs } }
     s.running = true ∧ s.power.web = .rest ∧ s.pat.deepS ≠ 0 ∧
      s.power.restFrom + s.pat.deepS * 1000 * msPs ≤ s.time.wall) ∧
    (let s := ({ run with hbm := { lost := true } } : State).addVote .reload domFlash false
     s.hbm.lost = true ∧ s.isOn domFlash = true ∧ s.power.votes.any (fun v => v.client == .reload) = true ∧ s.adm.flashWaiting = false ∧
      s.loadOk (s.adm.slot.getD 0) = true ∧
      ({ s with pat := { table := [{ tag := tagWght, crc := 1 }] } } : State).loadOk 0 = false) ∧
    (run.isOn domHbm = true ∧ 536870911 < 2 ^ 29 ∧
      (run.panels.toList.any fun x => x.seq.outst.all (·.unit != .stream)) = true) := by decide

theorem witness_VoltageAndRegulatorComplete :
    (let s : State := { run with power := { run.power with vidTarget := 16 }, clock := usPs }
     s.adm.dev ≠ .inReset ∧ s.power.vidSince + usPs ≤ s.clock ∧ s.pins.vid < s.power.vidTarget) ∧
    (let s : State := { run with power := { run.power with vidTarget := 14 }, clock := usPs }
     s.power.vidSince + usPs ≤ s.clock ∧ s.power.vidTarget < s.pins.vid) ∧
    (let s : State := { run with power := { run.power with clockPending := true, vidTarget := 15 }, clock := 10 * usPs }
     s.power.locked = true ∧ s.power.clockPending = true ∧ s.pins.vid = s.power.vidTarget ∧
      s.power.vidSince + 10 * usPs ≤ s.clock) ∧
    (let s : State := { run with power := { regulator := .rising }, clock := 40 * usPs }
     s.power.regulator = .rising ∧ s.power.regSince + 40 * usPs ≤ s.clock) ∧
    (let s : State := { run with power := { regulator := .normal }, clock := msPs }
     s.power.regulator = .normal ∧ s.dom domEvent = .off ∧ s.power.regSince + msPs ≤ s.clock) ∧
    (run.running = true ∧ run.power.locked = true ∧ run.power.avsAbove + 1 < 100 ∧ run.power.trim = 0 ∧
      run.power.avsBelow + 1 < 10 ∧ run.power.avsNoted = false) ∧
    (let s : State := { run with power := { run.power with avsAbove := 99, avsBelow := 9, trim := 4 } }
     s.running = true ∧ s.power.locked = true ∧ 100 ≤ s.power.avsAbove + 1 ∧ 0 < s.power.trim ∧
      10 ≤ s.power.avsBelow + 1) ∧
    (let s : State := { run with power := { run.power with avsBelow := 9 } }
     s.running = true ∧ s.power.locked = true ∧ s.power.trim = 0 ∧ 10 ≤ s.power.avsBelow + 1 ∧
      s.power.avsNoted = false) := by decide

theorem witness_TemperatureCompletes :
    (run.adm.dev ≠ .inReset ∧ run.adm.dev ≠ .stopped ∧ (1840 : Int) ≤ 1840) ∧
    (let s : State := { run with power := { run.power with hot100 := 1 }, pins := { riskThermal := true } }
     (1600 : Int) ≤ 1600 ∧ 1 ≤ s.power.hot100 ∧ (1520 : Int) ≤ 1520 ∧ s.pins.riskThermal = true ∧
      (1599 : Int) < 1600 ∧ run.pins.riskThermal = false) ∧
    (let s : State := { run with power := { run.power with coolSince := some 0 }, clock := 10 * msPs }
     (1519 : Int) < 1520 ∧ s.power.coolSince = some 0 ∧ 0 + 10 * msPs ≤ s.clock) ∧
    ((1839 : Int) < 1840 ∧ ({ run with adm := { dev := .refused } } : State).running = false ∧
      ({ run with adm := { dev := .stopped } } : State).adm.dev = .stopped) ∧
    (∀ b, let s : State := { run with
        power := { run.power with hot105 := 1 }
        pat := { voteDegraded := 0, dlin := { slots := if b then [{ flags := 1 }] else [] } } }
     (1680 : Int) ≤ 1680 ∧ s.running = true ∧ 1 ≤ s.power.hot105 ∧ s.power.degradePending = false ∧
      s.power.degraded = false ∧ s.pat.hasDegraded = b) ∧
    (let s : State := { run with power := { run.power with degradePending := true } }
     s.running = true ∧ s.power.degradePending = true ∧ s.look.ledger.all (·.degraded) = true) := by decide

theorem witness_TimebaseCompletes :
    (∀ v, let s : State := { run with time := { xt32 := true, verified := v } }
     s.time.xt32 = true ∧ s.time.verified = v) ∧ run.time.xt32 = false ∧
    (let s (n : Nat) : State := { run with clock := n }
     run.time.verified = false ∧ run.time.xtFrom + 10 ^ 12 ≤ (s (10 ^ 12)).clock ∧
      (s (10 ^ 12 - 1)).clock < run.time.xtFrom + 10 ^ 12) := by decide

theorem witness_HoldUpCompletes :
    (run.adm.dev ≠ .inReset ∧ run.hold.st ≠ .absentByStrap ∧ run.hold.st ≠ .flushing) ∧
    (∀ n ∈ [0, 1], let s : State := { run with hold := { st := .flushing, low := n } }
     s.adm.dev ≠ .inReset ∧ s.hold.st ≠ .absentByStrap ∧ s.hold.st = .flushing ∧ s.hold.low = n) ∧
    (min 499 1200 < 500 ∧ 500 ≤ min 500 1200) ∧
    (let s : State := { run with hold := { st := .notReady, highSince := some 0 }, clock := 50 * msPs }
     s.running = true ∧ s.hold.st = .notReady ∧ s.hold.highSince = some 0 ∧ 0 + 50 * msPs ≤ s.clock) ∧
    (∀ x ∈ [(true, false), (false, false)],
      let s : State := { run with hold := { st := .armed, inputGood := x.1, seen := true }, clock := 50 * msPs }
      s.adm.dev ≠ .inReset ∧ s.hold.seen = true ∧ s.hold.winFrom + 50 * msPs ≤ s.clock ∧ s.hold.st = .armed ∧
        s.hold.inputGood = x.1 ∧ s.hold.removed = (false, x.2)) ∧
    (let s : State := { run with hold := { st := .armed, inputGood := true, seen := true, winLow := true }, clock := 50 * msPs }
     s.hold.seen = true ∧ s.hold.st = .armed ∧ s.hold.inputGood = true ∧ s.hold.removed = (false, true)) ∧
    (∀ g ∈ [HoldState.flushing, .flushed], let s : State := { run with hold := { st := g, inputGood := true }, clock := 10 * msPs }
      s.hold.st = g ∧ s.hold.inputGood = true ∧ s.flash.run = none ∧ s.hold.goodSince + 10 * msPs ≤ s.clock) := by decide

theorem witness_StrapsGiveAddressAndTrim :
    (∀ i ∈ [0, 1, 2, 3, 6], member.level i = some 4) ∧
    ({ member with levels := { member.levels with pin := List.replicate 10 { pass1 := some 15, pass2 := some 15 } } } : State).level 6 =
      some 15 ∧
    -32768 ≤ member.pat.sntl.threshold + 64 * member.sentinelTrim ∧
    member.pat.sntl.threshold + 64 * member.sentinelTrim ≤ 32767 := by decide

/-! ### One command at a time, against numbers of the spec -/

/-- A state with decoder d at a count. -/
def counted (s : State) (d : DecId) (n : Pos) : State :=
  { s with web := { s.web with enc := Vector.upd s.web.enc d fun e => { e with count := n } } }

/-- R9: one count backward from 0 is 2⁴⁸ − 1. -/
theorem test_edge_wraps :
    (after (.encoderEdge 0 { high := false, heldNs := 5 } { high := true, heldNs := 5 }) run).web.enc[(0 : DecId)].count = 0xFFFFFFFFFFFF#48 := by decide
/-- R9: A leads B forward. -/
theorem test_edge_forward : (after (.encoderEdge 0 { high := true, heldNs := 5 } { high := false, heldNs := 5 }) run).web.enc[(0 : DecId)].count = 1 := by decide
/-- R11: a level held for less than 5 ns moves nothing. -/
theorem test_edge_glitch : (after (.encoderEdge 0 { high := true, heldNs := 4 } { high := false, heldNs := 5 }) run).web.enc[(0 : DecId)].count = 0 := by decide
/-- R70: all supplies have been back for 1 ms when a reset exit starts admission again. -/
theorem test_supply_hold :
    let s : State := after (.supplyFault 1) run
    (after (.resetExit true 0) { s with clock := msPs - 1 }).adm.dev = .inReset ∧
    (after (.resetExit true 0) { s with clock := msPs }).adm.dev = .admitting := by decide
/-- R103: of a 1-4-4 read, 8 clocks of opcode and 8 of address come before the two in which FL_IO[3:0] are high. -/
theorem test_mode_clocks : (List.range 20).map (FlashCmd.slotRead.ioAt 0 · == .high) =
    List.replicate 16 false ++ [true, true] ++ List.replicate 2 false := by decide
/-- R140, log 117: the packet header that MIPI CSI-2 gives as an example, 0x37 with a word count of 0x01F0, has ECC 0x3F. -/
theorem test_header_ecc : headerEcc (0x37 + 256 * 0x01F0) = 0x3F ∧
    checkHeader 0x3F01F037 = .clean 0x01F037 ∧ checkHeader 0x3F01F036 = .corrected 0x01F037 := by decide
/-- R140, log 117: the example payload of MIPI CSI-2 has the checksum 0x00F0. -/
theorem test_payload_crc : csiCrc [0xFF, 0, 0, 2, 0xB9, 0xDC, 0xF3, 0x72, 0xBB, 0xD4, 0xB8, 0x5A, 0xC8, 0x75, 0xC2, 0x7C, 0x81,
    0xF8, 0x05, 0xDF, 0xFF, 0, 0, 1] = 0x00F0 := by decide +kernel
/-- R17: a pulse of 50 ns is latched. -/
theorem test_index : (after (.indexPulse 1 50) (counted run 1 77)).web.enc[(1 : DecId)].lastIndex = 77 := by decide
/-- R42: 9.1 kΩ beside a reference of 10 kΩ is level 8, and 1.2 kΩ, between two windows, is none. -/
theorem test_level : decodeLevel 182000 200000 = some 8 ∧ decodeLevel 24000 200000 = none := by decide
/-- R69: RST_N keeps the counters; PORST_N clears the timebase. -/
theorem test_resets :
    (after .rstAssert (counted run 0 9)).web.enc[(0 : DecId)].count = 9 ∧
    (after .porstAssert { run with time := { wall := 5 } }).time.wall = 0 := by decide
/-- R346: a due fire asserts its marker. -/
theorem test_marker_fires :
    (after (.markerFire 2) { run with markers := { fires := [{ marker := 2, stage := .due }] } }).markers.fires.map (·.stage) =
      [.pulse] := by decide
/-- R459: 115 °C stops the device. -/
theorem test_trip : (after (.temperatureSample (115 * 16)) run).pins.thermtrip = true ∧
    (after (.temperatureSample (115 * 16 - 1)) run).pins.thermtrip = false := by decide
/-- R457: VID moves one code a microsecond. -/
theorem test_vid : (after .vidStep { run with power := { run.power with vidTarget := 20 }, clock := usPs }).pins.vid = 16 := by decide
/-- R462: the regulator needs 40 µs. -/
theorem test_regulator :
    (after .regulatorNormalMode { run with power := { regulator := .rising }, clock := 40 * usPs - 1 }).power.regulator = .rising ∧
    (after .regulatorNormalMode { run with power := { regulator := .rising }, clock := 40 * usPs }).power.regulator = .normal := by decide
/-- R463: XT32 counts time once 32,768 cycles, a second, have verified it. -/
theorem test_xt32 : let s (n : Nat) := after .xt32Verified { run with clock := n }
    (s (10 ^ 12)).time.xt32 = true ∧ (s (10 ^ 12 - 1)).time.xt32 = false ∧
      (after .xt32Fail (s (10 ^ 12))).time.xt32 = false := by decide
/-- R342: the identity block is 32 bytes, after the status byte and before the CRC. -/
theorem test_identity : (after (.identity 0x5C) member).port.response.length = 35 ∧
    (after (.identity 0x5C) member).port.response.head? = some 0x5A ∧ (after (.identity 0x58) member).port.response = [] := by
  refine ⟨?_, ?_, ?_⟩ <;> rfl
/-- R341: 0x21 gives the low half and latches the high half. -/
theorem test_position_halves :
    let s := counted member 0 0x123456789ABC#48
    (after (.livePositionLowHalf 0x5C) s).port.response = [0x5A#8, 0xBC#8, 0x9A#8, 0x78#8] ∧
    (after (.livePositionHighHalf 0x5C) (after (.livePositionLowHalf 0x5C) s)).port.response =
      [0x5A#8, 0x56#8, 0x34#8, 0x12#8] := by decide
/-- R335: a sleeping event domain answers 0xC3. -/
theorem test_busy : (after (.readEvents 0x5C 1) asleep).port.response = [0xC3#8] := by decide
/-- R338: records returned and before T_end are released. -/
theorem test_drain :
    let s : State := { member with events := { queue := [{ ticket := 4, returned := true }, { ticket := 5, returned := true }], returned := some 5, nextTicket := 6 } }
    (after (.acknowledgeAndDrain 0x5C 5) s).events.queue.map (·.ticket) = [5] := by decide
/-- R358, R359: the lanes reversed, and a round trip of 93 SEAMCLK cycles, which is 595.2 ns. -/
theorem test_training :
    (after (.laneIdentify 0 [3, 2, 1, 0] 1) (link .identify id)).seams[(0 : SeamId)].reversed = true ∧
    (after (.roundTripMeasure 0 (List.replicate 16 93)) (link .measure id)).seams[(0 : SeamId)].rho = some 595 := by decide
/-- R372: no acknowledgement for 1 µs resends. -/
theorem test_go_back :
    (after (.retryTimeout 0) { link .up fun p => { p with retry := [{}] } with clock := usPs }).seams[(0 : SeamId)].goBacks = 1 := by decide
/-- R394: the follower moves one count. -/
theorem test_follower :
    (after .followerMove { follows with clock := 50000, bolt := { loaded := true, target := 0xFFFFFFFFFFFF#48 } }).bolt.follower =
      0xFFFFFFFFFFFF#48 := by decide
/-- R240: WAITK subtracts what it waited for, and does nothing before. -/
theorem test_waitk :
    let s (n : Nat) := (prog (0x51 * 2 ^ 56 + 2 * 2 ^ 30)).updPanel 0 fun x => { x with seq := { x.seq with tokens := [n] } }
    (after (.waitk 0) (s 3)).panels[(0 : PanelId)].seq.tokens = [1] ∧ (after (.waitk 0) (s 1)).panels[(0 : PanelId)].seq.pc = 0 := by decide
/-- R226: LOOP n − 1 in its field. -/
theorem test_loop :
    ((after (.loop 0) (prog (0x40 * 2 ^ 56 + 4 * 2 ^ 40 + 3 * 2 ^ 28))).panels[(0 : PanelId)].seq.loops.map (·.count)) = [5] := by decide
/-- R242: HALT stops the sequencer. -/
theorem test_halt : (after (.halt 0) (prog (0x7F * 2 ^ 56))).panels[(0 : PanelId)].seq.halted = true := by decide

/-- Panel 0 about to run a vector instruction on tiles 1 and 2 into tile 0, which hold the words given. -/
def vectors (w : Nat) (a b : List Nat) (fmt : Nat) : State :=
  let s := prog w
  { s with pat := { s.pat with tiles := (List.range 4).map fun i =>
      { fmt := fmt, base := 64 * i, ext := [1, 1, a.length, 1, 1], stride := [0, 0, 4, 0, 0] } } }.updPanel 0
    fun x => (x.writeScratch 64 (a.flatMap (leBytes 4))).writeScratch 128 (b.flatMap (leBytes 4))

/-- The words of tile 0. -/
def wordsOf (s : State) (n : Nat) : List Nat :=
  (List.range n).map fun i => leNat (Memory.readN 0 s.panels[(0 : PanelId)].scratch (4 * i) 4)

/-- R217: 1.5 + 2.25 = 3.75 in class 1. -/
theorem test_vadd : wordsOf (after (.vadd 0 []) (vectors (0x20 * 2 ^ 56 + 2 ^ 32 + 2 * 2 ^ 20 + 2 ^ 18) [0x3FC00000] [0x40100000] fmtFP32)) 1 =
    [0x40700000] := by decide
/-- R217: INT32 saturates. -/
theorem test_vadd_saturates : wordsOf (after (.vadd 0 []) (vectors (0x20 * 2 ^ 56 + 2 ^ 32 + 2 * 2 ^ 20) [0x7FFFFFFF, 0x80000000] [1, 0xFFFFFFFF] fmtI32)) 2 =
    [0x7FFFFFFF, 0x80000000] := by decide
/-- R217: the absolute value of the most negative INT32 saturates. -/
theorem test_vabs : wordsOf (after (.vabs 0 []) (vectors (0x25 * 2 ^ 56 + 2 ^ 32) [0x80000000, 0xFFFFFFFB] [] fmtI32)) 2 =
    [0x7FFFFFFF, 5] := by decide
/-- R219: 1/3 and √2, rounded once. -/
theorem test_vrcp_vsqrt :
    wordsOf (after (.vrcp 0 []) (vectors (0x2C * 2 ^ 56 + 2 ^ 32 + 2 ^ 18) [0x40400000] [] fmtFP32)) 1 = [0x3EAAAAAB] ∧
    wordsOf (after (.vsqrt 0 []) (vectors (0x2D * 2 ^ 56 + 2 ^ 32 + 2 ^ 18) [0x40000000] [] fmtFP32)) 1 = [0x3FB504F3] := by decide +kernel
/-- R219: 2^0.5 and log₂ 8. -/
theorem test_vexp2_vlog2 : fexp2 0x3F000000#32 = 0x3FB504F3#32 ∧ flog2 0x41000000#32 = 0x40400000#32 := by decide +kernel
/-- R222: the sum of a row. -/
theorem test_vsumr : wordsOf (after (.vsumr 0 []) (let s := vectors (0x38 * 2 ^ 56 + 2 ^ 32) [1, 2, 3, 4] [] fmtI32
    { s with pat := { s.pat with tiles := s.pat.tiles.modify 0 fun t => { t with ext := [1, 1, 1, 1, 1] } } })) 1 = [10] := by decide +kernel
/-- R208: the largest E4M3, and an E5M2 infinity. -/
theorem test_formats : toFloat fmtFP32 (decodeBits fmtE4M3 0x7E) = 0x43E00000 ∧ toFloat fmtFP32 (decodeBits fmtE5M2 0x7C) = 0x7F800000 := by decide +kernel

end Sys2Proof.Tests
end

/-! SUPPORT. What a command keeps, whichever it is: the commands' own lemmas, put together along the arms of exec. -/

namespace Sys2Proof.Machine

/-- R69, R9, R113: a command that neither resets, nor is an encoder edge, nor ends a step of admission keeps all that
`Kept` lists. -/
theorem exec_kept (c : Instr) (s : State) (reset : Claims.anyReset c = false) (edge : ∀ d a b, c ≠ .encoderEdge d a b)
    (adm : ∀ x, c ≠ .admissionStepComplete x) : KeptBy s (exec c s) := by
  cases c with
  | encoderEdge d a b => exact absurd rfl (edge d a b)
  | crossCheckSpan => exact execCrossCheckSpan_kept s
  | indexPulse d widthNs => exact execIndexPulse_kept d widthNs s
  | rateWindow => exact execRateWindow_kept s
  | webStopped => exact execWebStopped_kept s
  | webMoving => exact execWebMoving_kept s
  | horizonClosure tag => exact execHorizonClosure_kept tag s
  | markerFire m => exact execMarkerFire_kept m s
  | markerPulseEnd m => exact execMarkerPulseEnd_kept m s
  | fireArm => exact execFireArm_kept s
  | porstAssert => cases reset
  | rstAssert => cases reset
  | resetExit => cases reset
  | bootHoldRelease => exact execBootHoldRelease_kept s
  | pllLock => exact execPllLock_kept s
  | pllLockTimeout => cases reset
  | formationTimeout => exact execFormationTimeout_kept s
  | supplyFault => cases reset
  | brownOut => cases reset
  | statBlinkTimer => exact execStatBlinkTimer_kept s
  | flashOperationDone error => exact execFlashOperationDone_kept error s
  | flashBusyTimeout => exact execFlashBusyTimeout_kept s
  | frameStart c header => exact execFrameStart_kept c header s
  | frameEnd x => exact execFrameEnd_kept x s
  | lineStartPacket x => exact execLineStartPacket_kept x s
  | longPacket c k u => exact execLongPacket_kept c k u s
  | ignoredPacket c => exact execIgnoredPacket_kept c s
  | lineAssemblyTimeout => exact execLineAssemblyTimeout_kept s
  | lineJournaled => exact execLineJournaled_kept s
  | csiClockLoss c => exact execCsiClockLoss_kept c s
  | swathScreened => exact execSwathScreened_kept s
  | driftTrackerBlock x => exact execDriftTrackerBlock_kept x s
  | watchTick pixels => exact execWatchTick_kept pixels s
  | calibrationWindowEnd => exact execCalibrationWindowEnd_kept s
  | tableFreeze => exact execTableFreeze_kept s
  | tableCrcCheck damaged => exact execTableCrcCheck_kept damaged s
  | nop q => exact execNop_kept q s
  | loadt p u => exact execLoadt_kept p u s
  | storet p u => exact execStoret_kept p u s
  | streamw p u => exact execStreamw_kept p u s
  | drain p u => exact execDrain_kept p u s
  | mm p u => exact execMm_kept p u s
  | cimv p u => exact execCimv_kept p u s
  | vadd p u => exact execVadd_kept p u s
  | vsub p u => exact execVsub_kept p u s
  | vmul p u => exact execVmul_kept p u s
  | vmax p u => exact execVmax_kept p u s
  | vmin p u => exact execVmin_kept p u s
  | vabs p u => exact execVabs_kept p u s
  | vneg p u => exact execVneg_kept p u s
  | vcvt p u => exact execVcvt_kept p u s
  | vreq p u => exact execVreq_kept p u s
  | vlut p u => exact execVlut_kept p u s
  | vexp2 p u => exact execVexp2_kept p u s
  | vlog2 p u => exact execVlog2_kept p u s
  | vrcp p u => exact execVrcp_kept p u s
  | vsqrt p u => exact execVsqrt_kept p u s
  | vrsqrt p u => exact execVrsqrt_kept p u s
  | vdiv p u => exact execVdiv_kept p u s
  | vexp p u => exact execVexp_kept p u s
  | vsig p u => exact execVsig_kept p u s
  | vtanh p u => exact execVtanh_kept p u s
  | vgelu p u => exact execVgelu_kept p u s
  | vsilu p u => exact execVsilu_kept p u s
  | vrelu p u => exact execVrelu_kept p u s
  | vleaky p u => exact execVleaky_kept p u s
  | vsumr p u => exact execVsumr_kept p u s
  | vmaxr p u => exact execVmaxr_kept p u s
  | vsmax p u => exact execVsmax_kept p u s
  | vnorm p u => exact execVnorm_kept p u s
  | loop q => exact execLoop_kept q s
  | sigk q => exact execSigk_kept q s
  | tokenArrival q => exact execTokenArrival_kept q s
  | waitk q => exact execWaitk_kept q s
  | combine p u => exact execCombine_kept p u s
  | combineTreeComplete tree => exact execCombineTreeComplete_kept tree s
  | pin p => exact execPin_kept p s
  | free p => exact execFree_kept p s
  | streamFillComplete u => exact execStreamFillComplete_kept u s
  | vote q => exact execVote_kept q s
  | unvote q => exact execUnvote_kept q s
  | slot p => exact execSlot_kept p s
  | slotSpanEnd p => exact execSlotSpanEnd_kept p s
  | verdict p u => exact execVerdict_kept p u s
  | halt q => exact execHalt_kept q s
  | pllsw => exact execPllsw_kept s
  | waite => exact execWaite_kept s
  | stage u => exact execStage_kept u s
  | commit => exact execCommit_kept s
  | viewFillComplete tag u => exact execViewFillComplete_kept tag u s
  | spanStart g => exact execSpanStart_kept g s
  | spanEnd g => exact execSpanEnd_kept g s
  | segmentSeal start => exact execSegmentSeal_kept start s
  | segmentExpiry start => exact execSegmentExpiry_kept start s
  | homeSegmentDrop start => exact execHomeSegmentDrop_kept start s
  | readEvents station n => exact execReadEvents_kept station n s
  | acknowledgeAndDrain station tEnd => exact execAcknowledgeAndDrain_kept station tEnd s
  | readStatus station page => exact execReadStatus_kept station page s
  | identity station => exact execIdentity_kept station s
  | livePositionLowHalf station => exact execLivePositionLowHalf_kept station s
  | livePositionHighHalf station => exact execLivePositionHighHalf_kept station s
  | atomicPositionSnapshot station => exact execAtomicPositionSnapshot_kept station s
  | transactionCutShort sent lastBits clocked => exact execTransactionCutShort_kept sent lastBits clocked s
  | heldRecordEntry => exact execHeldRecordEntry_kept s
  | linkSignalDetect q => exact execLinkSignalDetect_kept q s
  | laneLock q inverted => exact execLaneLock_kept q inverted s
  | laneIdentify q lanes partner => exact execLaneIdentify_kept q lanes partner s
  | laneDeskew q skewPs => exact execLaneDeskew_kept q skewPs s
  | roundTripMeasure q trips => exact execRoundTripMeasure_kept q trips s
  | linkUp q => exact execLinkUp_kept q s
  | trainingTimeout q => exact execTrainingTimeout_kept q s
  | flitSlot q => exact execFlitSlot_kept q s
  | dataFlit q f => exact execDataFlit_kept q f s
  | nullFlit q f => exact execNullFlit_kept q f s
  | retryTimeout q => exact execRetryTimeout_kept q s
  | retryBudgetExpiry q => exact execRetryBudgetExpiry_kept q s
  | sleep q f => exact execSleep_kept q f s
  | sleepAck q f => exact execSleepAck_kept q f s
  | stay q f => exact execStay_kept q f s
  | wake q f => exact execWake_kept q f s
  | electricalIdleEntry q => exact execElectricalIdleEntry_kept q s
  | laneLockLost q => exact execLaneLockLost_kept q s
  | signalLost q => exact execSignalLost_kept q s
  | creditStall q vc => exact execCreditStall_kept q vc s
  | failureIdleEnd q => exact execFailureIdleEnd_kept q s
  | seamclkLoss => exact execSeamclkLoss_kept s
  | hello q => exact execHello_kept q s
  | helloPeriodic q => exact execHelloPeriodic_kept q s
  | tickSend => exact execTickSend_kept s
  | tick q => exact execTick_kept q s
  | correctionStep => exact execCorrectionStep_kept s
  | followerMove => exact execFollowerMove_kept s
  | tickLoss => exact execTickLoss_kept s
  | latencySweepStart => exact execLatencySweepStart_kept s
  | latencyStart q => exact execLatencyStart_kept q s
  | linkProbeSend => exact execLinkProbeSend_kept s
  | linkProbe q => exact execLinkProbe_kept q s
  | latencyEcho q => exact execLatencyEcho_kept q s
  | latencyEchoTimeout => exact execLatencyEchoTimeout_kept s
  | latencyReport q => exact execLatencyReport_kept q s
  | latencyCollectionEnd => exact execLatencyCollectionEnd_kept s
  | latencyCommit q => exact execLatencyCommit_kept q s
  | latencyAbort q => exact execLatencyAbort_kept q s
  | latencyRequest q => exact execLatencyRequest_kept q s
  | calibrationStart q => exact execCalibrationStart_kept q s
  | calibrationSumsDone => exact execCalibrationSumsDone_kept s
  | calibrationFactor q => exact execCalibrationFactor_kept q s
  | calibrationReport q => exact execCalibrationReport_kept q s
  | calibrationCollectionEnd => exact execCalibrationCollectionEnd_kept s
  | calibrationCommit q => exact execCalibrationCommit_kept q s
  | calibrationAbort q => exact execCalibrationAbort_kept q s
  | calibrationRequest q => exact execCalibrationRequest_kept q s
  | haloLine q => exact execHaloLine_kept q s
  | replayLine q => exact execReplayLine_kept q s
  | eventRecord q => exact execEventRecord_kept q s
  | segmentRead q => exact execSegmentRead_kept q s
  | segmentReply q => exact execSegmentReply_kept q s
  | gone q => exact execGone_kept q s
  | evictionNotice q => exact execEvictionNotice_kept q s
  | lineDeadline east => exact execLineDeadline_kept east s
  | hbmRepairComplete ok => exact execHbmRepairComplete_kept ok s
  | streamLineRefill => exact execStreamLineRefill_kept s
  | hysteresisExpiry domain => exact execHysteresisExpiry_kept domain s
  | domainOn domain => exact execDomainOn_kept domain s
  | restDelayExpiry => exact execRestDelayExpiry_kept s
  | deepRestDelayExpiry => exact execDeepRestDelayExpiry_kept s
  | timebaseAlarm owner => exact execTimebaseAlarm_kept owner s
  | hbmReloadComplete => cases reset
  | vidStep => exact execVidStep_kept s
  | regulatorNormalMode => exact execRegulatorNormalMode_kept s
  | regulatorLowPower => exact execRegulatorLowPower_kept s
  | avsSample m => exact execAvsSample_kept m s
  | temperatureSample t => exact execTemperatureSample_kept t s
  | degradedSwitchComplete => exact execDegradedSwitchComplete_kept s
  | xt32Fail => exact execXt32Fail_kept s
  | xt32Verified => exact execXt32Verified_kept s
  | refclkLoss => cases reset
  | hbmPllLoss => cases reset
  | powerFail => exact execPowerFail_kept s
  | inputRestored => cases reset
  | holdVSample mv vinMv dq meanUa => exact execHoldVSample_kept mv vinMv dq meanUa s
  | holdupArm => exact execHoldupArm_kept s
  | holdupWindow => exact execHoldupWindow_kept s
  | periodicCommit => exact execPeriodicCommit_kept s
  | vaonInPowerUp => cases reset
  | admissionStepComplete x => exact absurd rfl (adm x)
  | lowStateEntryComplete domain => exact execLowStateEntryComplete_kept domain s
  | tableBuildComplete => exact execTableBuildComplete_kept s
  | calibrationSweepStart => exact execCalibrationSweepStart_kept s
  | calibrationFactorTimeout => exact execCalibrationFactorTimeout_kept s
  | flushStepTimeout => exact execFlushStepTimeout_kept s
  | seamclkReturn => exact execSeamclkReturn_kept s
  | vidSettled => exact execVidSettled_kept s
  | housekeepingBurst word u => exact execHousekeepingBurst_kept word u s

/-- R35, R69, R71: a reset, or a command that may bring one about, keeps what `Based` lists. -/
theorem exec_based_of_reset (c : Instr) (s : State) (reset : Claims.anyReset c = true) : BasedBy s (exec c s) := by
  cases c with
  | porstAssert => exact execPorstAssert_based s
  | rstAssert => exact execRstAssert_based s
  | resetExit testN junction => exact execResetExit_based testN junction s
  | pllLockTimeout => exact execPllLockTimeout_based s
  | supplyFault supply => exact execSupplyFault_based supply s
  | brownOut => exact execBrownOut_based s
  | hbmReloadComplete flashError => exact execHbmReloadComplete_based flashError s
  | refclkLoss => exact execRefclkLoss_based s
  | hbmPllLoss => exact execHbmPllLoss_based s
  | inputRestored => exact execInputRestored_based s
  | vaonInPowerUp => exact execVaonInPowerUp_based s
  | _ => cases reset

/-- Every command keeps what `Based` lists: the queue, the model's clock, burned fuses and the canonical form of the stores.
Resets, encoder edges and steps of admission have laws of their own; every other command keeps more. -/
theorem exec_based (c : Instr) (s : State) : BasedBy s (exec c s) := by
  by_cases reset : Claims.anyReset c = true
  · exact exec_based_of_reset c s reset
  by_cases edge : ∃ d a b, c = .encoderEdge d a b
  · obtain ⟨d, a, b, rfl⟩ := edge
    exact execEncoderEdge_based d a b s
  by_cases adm : ∃ x, c = .admissionStepComplete x
  · obtain ⟨x, rfl⟩ := adm
    exact (execAdmissionStepComplete_steady x s).basedBy
  exact (exec_kept c s (Bool.eq_false_iff.mpr reset) (fun d a b e => edge ⟨d, a, b, e⟩) fun x e => adm ⟨x, e⟩).basedBy

/-- Settles O6: the queue and the model's clock are among what every command keeps (log 4). -/
theorem commandsKeepTheQueueAndTheClock : Obligations.CommandsKeepTheQueueAndTheClock := by
  unfold Obligations.CommandsKeepTheQueueAndTheClock
  intro c s t h
  have kept : Based s t := (exec_based c s).of_next h
  exact ⟨kept.pending, kept.clock⟩

end Sys2Proof.Machine

/-! SUPPORT. Which commands leave the thimble's counters and timebase as they were: all but the resets of the whole
device and, for its own counter, a decoder's edge. -/

namespace Sys2Proof.Machine

/-- R9, R13, R69: what a reset outside the thimble leaves of it: the position counters and the wall timebase. -/
structure ThimbleKept (s t : State) : Prop where
  counts : t.web.counts = s.web.counts
  wall : t.time.wall = s.time.wall

theorem ThimbleKept.refl (s : State) : ThimbleKept s s := ⟨rfl, rfl⟩

theorem ThimbleKept.trans {s t u : State} (h : ThimbleKept s t) (k : ThimbleKept t u) : ThimbleKept s u :=
  ⟨k.counts.trans h.counts, k.wall.trans h.wall⟩

theorem Steady.thimble {s t : State} (h : Steady s t) : ThimbleKept s t := ⟨h.counts, h.wall⟩

theorem Kept.thimble {s t : State} (h : Kept s t) : ThimbleKept s t := h.steady.thimble

theorem ThimbleKept.ite {c : Prop} [Decidable c] {s a b : State} (h : ThimbleKept s a) (k : ThimbleKept s b) :
    ThimbleKept s (if c then a else b) := by
  split
  · exact h
  · exact k

/-- A command that acts under a condition keeps the thimble where its action does. -/
theorem ThimbleKept.of_when {c : Bool} {s t : State} {f : State → State} (h : ThimbleKept s (f s))
    (e : when c s f = .next t) : ThimbleKept s t := by
  cases e
  exact h.ite (ThimbleKept.refl s)

/-- Counters kept as a pair are kept for each decoder. -/
theorem count_eq_of_counts_eq {s t : State} (h : t.web.counts = s.web.counts) (d : DecId) :
    t.web.enc[d].count = s.web.enc[d].count := by
  obtain ⟨h0, h1⟩ := Prod.mk.inj h
  fin_cases d
  · exact h0
  · exact h1

/-- R9: an operation that keeps what `Kept` lists keeps each position counter. -/
theorem Kept.count {s t : State} (h : Kept s t) (d : DecId) : t.web.enc[d].count = s.web.enc[d].count :=
  count_eq_of_counts_eq h.counts d

theorem State.cutBurn_thimble (s : State) : ThimbleKept s s.cutBurn := by
  unfold State.cutBurn
  exact ThimbleKept.ite ⟨rfl, rfl⟩ (ThimbleKept.refl s)

theorem State.breakOff_thimble (s : State) : ThimbleKept s s.breakOff :=
  (State.cutBurn_thimble s).trans (State.cutOp_kept _).thimble

/-- R69: a reset of what is outside the thimble leaves the counters and the timebase running. -/
theorem State.resetOutside_thimble (s : State) (cause detail : Nat) : ThimbleKept s (s.resetOutside cause detail) :=
  (State.breakOff_thimble s).trans ⟨rfl, rfl⟩

theorem execRstAssert_thimble {s t : State} (h : execRstAssert s = .next t) : ThimbleKept s t := by
  have pin : ThimbleKept s { s with pins := { s.pins with rstN := false } } := ⟨rfl, rfl⟩
  cases h
  exact (pin.trans (State.resetOutside_thimble ..)).ite pin

theorem execSupplyFault_thimble {supply : Fin 4} {s t : State} (h : execSupplyFault supply s = .next t) :
    ThimbleKept s t := by
  have held : ThimbleKept s s.holdSupply := (State.holdSupply_kept s).thimble
  refine ThimbleKept.of_when ?_ h
  exact (held.trans (State.resetOutside_thimble ..)).ite held

theorem execRefclkLoss_thimble {s t : State} (h : execRefclkLoss s = .next t) : ThimbleKept s t :=
  ThimbleKept.of_when (State.resetOutside_thimble ..) h

theorem execHbmPllLoss_thimble {s t : State} (h : execHbmPllLoss s = .next t) : ThimbleKept s t :=
  ThimbleKept.of_when (State.resetOutside_thimble ..) h

theorem execInputRestored_thimble {s t : State} (h : execInputRestored s = .next t) : ThimbleKept s t :=
  ThimbleKept.of_when (State.resetOutside_thimble ..) h

theorem execPllLockTimeout_thimble {s t : State} (h : execPllLockTimeout s = .next t) : ThimbleKept s t := by
  have refused : ThimbleKept s (s.refusePlatform 1 0).settle :=
    ((State.refusePlatform_steady ..).trans (State.settle_kept _).steady).thimble
  refine ThimbleKept.of_when ?_ h
  exact refused.ite ((State.resetOutside_thimble ..).ite (ThimbleKept.refl s))

theorem execHbmReloadComplete_thimble {flashError : Bool} {s t : State}
    (h : execHbmReloadComplete flashError s = .next t) : ThimbleKept s t := by
  have reloaded : ThimbleKept s s.reloaded.settle := ((State.reloaded_kept s).trans (State.settle_kept _)).thimble
  refine ThimbleKept.of_when ?_ h
  exact (ThimbleKept.refl s).ite (reloaded.ite (State.resetOutside_thimble ..))

theorem State.releaseTrip_thimble (s : State) (junction : Int) : ThimbleKept s (s.releaseTrip junction) := by
  unfold State.releaseTrip
  exact ThimbleKept.ite ⟨rfl, rfl⟩ (ThimbleKept.refl s)

theorem execResetExit_thimble {testN : Bool} {junction : Int} {s t : State}
    (h : execResetExit testN junction s = .next t) : ThimbleKept s t := by
  refine ThimbleKept.of_when ?_ h
  refine ThimbleKept.ite (ThimbleKept.trans ?_ (State.stopAgain_kept _).thimble)
    (ThimbleKept.trans ?_ (State.startAdmission_kept _).thimble)
  all_goals
    refine ThimbleKept.trans ?_ (State.exitRecord_kept _).thimble
    refine ThimbleKept.trans ?_ (State.releaseTrip_thimble _ junction)
    exact ⟨rfl, rfl⟩

/-- R13, R69: of the commands that may reset, only those that reset the whole device touch the counters and the
timebase. -/
theorem exec_thimble_of_reset {c : Instr} {s t : State} (reset : Claims.anyReset c = true)
    (whole : Claims.wholeReset c = false) (h : exec c s = .next t) : ThimbleKept s t := by
  cases c with
  | porstAssert => cases whole
  | vaonInPowerUp => cases whole
  | brownOut => cases whole
  | rstAssert => exact execRstAssert_thimble h
  | resetExit testN junction => exact execResetExit_thimble h
  | pllLockTimeout => exact execPllLockTimeout_thimble h
  | supplyFault supply => exact execSupplyFault_thimble h
  | hbmReloadComplete flashError => exact execHbmReloadComplete_thimble h
  | refclkLoss => exact execRefclkLoss_thimble h
  | hbmPllLoss => exact execHbmPllLoss_thimble h
  | inputRestored => exact execInputRestored_thimble h
  | _ => cases reset

/-- R9, R13, R69: a command that neither is an encoder edge nor resets the whole device keeps the counters and the
timebase. -/
theorem exec_thimble {c : Instr} {s t : State} (whole : Claims.wholeReset c = false)
    (edge : ∀ d a b, c ≠ .encoderEdge d a b) (h : exec c s = .next t) : ThimbleKept s t := by
  by_cases reset : Claims.anyReset c = true
  · exact exec_thimble_of_reset reset whole h
  by_cases adm : ∃ x, c = .admissionStepComplete x
  · obtain ⟨x, rfl⟩ := adm
    exact ((execAdmissionStepComplete_steady x s).of_next h).thimble
  exact ((exec_kept c s (Bool.eq_false_iff.mpr reset) edge fun x e => adm ⟨x, e⟩).of_next h).thimble

end Sys2Proof.Machine

/-! SUPPORT. What an encoder edge and an index pulse do to the decoders: an equation per case of the command. -/

namespace Sys2Proof.Machine

/-- Changes at one place of a vector that give it the same element give the same vector. -/
theorem Vector.upd_congr {α : Type} {n : Nat} {v : Vector α n} {i : Fin n} {f g : α → α} (h : f v[i] = g v[i]) :
    Vector.upd v i f = Vector.upd v i g := by
  unfold Vector.upd
  rw [h]

/-- Two changes at one place of a vector are one. -/
@[simp] theorem Vector.upd_upd {α : Type} {n : Nat} (v : Vector α n) (i : Fin n) (f g : α → α) :
    Vector.upd (Vector.upd v i f) i g = Vector.upd v i fun x => g (f x) := by
  simp [Vector.upd]

/-- R9: a transition is none exactly where neither A nor B changes. -/
theorem quadStep_eq_same_iff {bLeads a b a' b' : Bool} : quadStep bLeads a b a' b' = .same ↔ a' = a ∧ b' = b := by
  revert bLeads a b a' b'
  decide

/-- R12: a transition is illegal exactly where both A and B change. -/
theorem quadStep_eq_illegal_iff {bLeads a b a' b' : Bool} :
    quadStep bLeads a b a' b' = .illegal ↔ a' ≠ a ∧ b' ≠ b := by
  revert bLeads a b a' b'
  decide

/-- R9: the table of the states: in the forward cycle of "A leads B" the next state is (¬B, A), the one before it
(B, ¬A). -/
theorem quadStep_table (bLeads a b : Bool) :
    quadStep bLeads a b (!b) a = .legal (!bLeads) ∧ quadStep bLeads a b b (!a) = .legal bLeads := by
  revert bLeads a b
  decide

/-- R9: decoder d with the levels of A and B that it takes. -/
def State.takeLevels (s : State) (d : DecId) (a b : Bool) : State :=
  { s with web := { s.web with enc := Vector.upd s.web.enc d fun e => { e with a := a, b := b } } }

theorem State.takeLevels_enc (s : State) (d : DecId) (a b : Bool) :
    (s.takeLevels d a b).web.enc = Vector.upd s.web.enc d fun e => { e with a := a, b := b } := rfl

theorem State.takeLevels_counts (s : State) (d : DecId) (a b : Bool) :
    (s.takeLevels d a b).web.counts = s.web.counts :=
  upd_counts d (f := fun e => { e with a := a, b := b }) fun _ => rfl

/-- R11: an edge that leaves both levels as they were changes nothing. -/
theorem execEncoderEdge_unchanged {d : DecId} {pa pb : PinLevel} {s : State}
    (ha : takenLevel s.web.enc[d].a pa = s.web.enc[d].a) (hb : takenLevel s.web.enc[d].b pb = s.web.enc[d].b) :
    execEncoderEdge d pa pb s = .next s :=
  if_pos (by rw [ha, hb, beq_self_eq_true, beq_self_eq_true]; rfl)

section

variable {d : DecId} {pa pb : PinLevel} {s : State} {a b : Bool} {q : Quad}
  (ha : takenLevel s.web.enc[d].a pa = a) (hb : takenLevel s.web.enc[d].b pb = b)
  (hq : quadStep s.web.bLeads s.web.enc[d].a s.web.enc[d].b a b = q)

include ha hb hq

/-- R13: while PORST_N holds the counters an edge that changes a level is taken and counts nothing. -/
theorem execEncoderEdge_held (ne : q ≠ .same) (porst : s.pins.porstN = false) :
    execEncoderEdge d pa pb s = .next (s.takeLevels d a b) := by
  subst ha hb hq
  have changed := mt quadStep_eq_same_iff.mpr ne
  unfold execEncoderEdge
  dsimp only
  rw [if_neg (by simpa using changed), if_pos (by rw [porst]; rfl)]
  rfl

/-- R9: a legal transition. -/
theorem execEncoderEdge_legal {f : Bool} (legal : q = .legal f) (porst : s.pins.porstN = true) :
    execEncoderEdge d pa pb s = .next ((s.takeLevels d a b).legalEdge d f).settle := by
  subst ha hb hq
  have changed := mt quadStep_eq_same_iff.mpr (legal.trans_ne nofun)
  unfold execEncoderEdge
  dsimp only
  rw [if_neg (by simpa using changed), if_neg (by rw [porst]; nofun), legal]
  rfl

/-- R12: an illegal transition. -/
theorem execEncoderEdge_illegal (illegal : q = .illegal) (porst : s.pins.porstN = true) :
    execEncoderEdge d pa pb s = .next ((s.takeLevels d a b).illegalEdge d).settle := by
  subst ha hb hq
  have changed := mt quadStep_eq_same_iff.mpr (illegal.trans_ne nofun)
  unfold execEncoderEdge
  dsimp only
  rw [if_neg (by simpa using changed), if_neg (by rw [porst]; nofun), illegal]
  rfl

end

/-- R9: a legal edge counts on its decoder, whose edge times it may move (log 105), and on nothing else. -/
theorem State.legalEdge_enc (s : State) (d : DecId) (f : Bool) :
    ∃ times : EdgeClock, (s.legalEdge d f).web.enc =
      Vector.upd s.web.enc d fun e => { e with count := countStep e.count f, edges := times } := by
  unfold State.legalEdge
  dsimp only
  split
  · dsimp only
    exact ⟨_, Vector.upd_congr (by rfl)⟩
  · split <;> simp only [State.countEvent_enc, Vector.upd_upd] <;> exact ⟨_, Vector.upd_congr (by rfl)⟩

/-- R12: an illegal transition counts on its decoder's illegal-transition count and adds 2 counts of uncertainty. -/
theorem State.illegalEdge_enc (s : State) (d : DecId) :
    (s.illegalEdge d).web.enc = Vector.upd s.web.enc d fun e => { e with
      illegal := if e.illegal == 0xFFFF#16 then e.illegal else e.illegal + 1
      events := (s.web.travel, 2) :: e.events.filter fun x => decide (s.web.travel - x.1 < 2 ^ 24) } := by
  unfold State.illegalEdge
  dsimp only
  split <;> simp only [State.checkSlip_enc, State.addUncertainty, Vector.upd_upd]

/-- R9: the decoders after an edge: that of the other decoder is as it was. -/
theorem execEncoderEdge_other {d d' : DecId} {pa pb : PinLevel} {s t : State} (ne : d' ≠ d)
    (h : execEncoderEdge d pa pb s = .next t) : t.web.enc[d'] = s.web.enc[d'] := by
  generalize ha : takenLevel s.web.enc[d].a pa = a
  generalize hb : takenLevel s.web.enc[d].b pb = b
  have taken : (s.takeLevels d a b).web.enc[d'] = s.web.enc[d'] := Vector.upd_other _ _ _ _ ne
  cases hq : quadStep s.web.bLeads s.web.enc[d].a s.web.enc[d].b a b with
  | same =>
    obtain ⟨rfl, rfl⟩ := quadStep_eq_same_iff.mp hq
    obtain rfl := Host.Outcome.next.inj ((execEncoderEdge_unchanged ha hb).symm.trans h)
    rfl
  | legal f =>
    cases hp : s.pins.porstN with
    | false =>
      obtain rfl := Host.Outcome.next.inj ((execEncoderEdge_held ha hb hq nofun hp).symm.trans h)
      exact taken
    | true =>
      obtain rfl := Host.Outcome.next.inj ((execEncoderEdge_legal ha hb hq rfl hp).symm.trans h)
      obtain ⟨times, counted⟩ := State.legalEdge_enc (s.takeLevels d a b) d f
      rw [State.settle_web, counted, Vector.upd_other _ _ _ _ ne, taken]
  | illegal =>
    cases hp : s.pins.porstN with
    | false =>
      obtain rfl := Host.Outcome.next.inj ((execEncoderEdge_held ha hb hq nofun hp).symm.trans h)
      exact taken
    | true =>
      obtain rfl := Host.Outcome.next.inj ((execEncoderEdge_illegal ha hb hq rfl hp).symm.trans h)
      rw [State.settle_web, State.illegalEdge_enc, Vector.upd_other _ _ _ _ ne, taken]

/-- Settles O8: an edge of the other decoder leaves this one's counter, and every other command that does not reset the
whole device leaves both (R9, R13). -/
theorem countersMoveByTheirEdgesAlone : Obligations.CountersMoveByTheirEdgesAlone := by
  unfold Obligations.CountersMoveByTheirEdgesAlone
  intro c s t d whole own h
  by_cases edge : ∃ d' a b, c = .encoderEdge d' a b
  · obtain ⟨d', a, b, rfl⟩ := edge
    have ne : d ≠ d' := fun e => own a b (by rw [e])
    rw [execEncoderEdge_other ne h]
  · exact count_eq_of_counts_eq (exec_thimble whole (fun d a b e => edge ⟨d, a, b, e⟩) h).counts d

/-- Settles O15: the equations of ENCODER_EDGE, with what a legal edge does to its decoder (R9, R11, R13). -/
theorem legalEdgesMoveTheCounterByOne : Obligations.LegalEdgesMoveTheCounterByOne := by
  unfold Obligations.LegalEdgesMoveTheCounterByOne
  refine ⟨quadStep_table, ?_⟩
  intro d pa pb s a b
  refine ⟨execEncoderEdge_unchanged, fun f hq => ⟨fun hp => ?_, fun hp => ?_⟩⟩
  · have next := execEncoderEdge_legal (a := a) (b := b) rfl rfl hq rfl hp
    obtain ⟨times, counted⟩ := State.legalEdge_enc (s.takeLevels d a b) d f
    refine ⟨_, next, ?_, ?_, ?_, ?_, fun d' ne => execEncoderEdge_other ne next⟩
    all_goals rw [State.settle_web, counted, State.takeLevels_enc, Vector.upd_same, Vector.upd_same]
    rfl
  · exact ⟨_, execEncoderEdge_held (a := a) (b := b) rfl rfl hq nofun hp,
      count_eq_of_counts_eq (State.takeLevels_counts ..)⟩

/-- R12: the illegal-transition count is up by one, but for its maximum. -/
theorem illegal_count_toNat (n : BitVec 16) :
    (if n == 0xFFFF#16 then n else n + 1).toNat = min 0xFFFF (n.toNat + 1) := by
  split
  · next h =>
    rw [eq_of_beq h]
    rfl
  · next h =>
    have below : n ≠ 0xFFFF#16 := fun e => h (beq_iff_eq.mpr e)
    bv_omega

/-- Settles O16: what an illegal transition does to its decoder (R12). -/
theorem illegalTransitionsAddUncertainty : Obligations.IllegalTransitionsAddUncertainty := by
  unfold Obligations.IllegalTransitionsAddUncertainty
  intro d pa pb s hp heldA heldB ne_a ne_b
  have ha : takenLevel s.web.enc[d].a pa = pa.high := if_neg (not_lt.mpr heldA)
  have hb : takenLevel s.web.enc[d].b pb = pb.high := if_neg (not_lt.mpr heldB)
  have next := execEncoderEdge_illegal ha hb (quadStep_eq_illegal_iff.mpr ⟨ne_a, ne_b⟩) rfl hp
  have own : ((s.takeLevels d pa.high pb.high).illegalEdge d).settle.web.enc[d] = { s.web.enc[d] with
      a := pa.high, b := pb.high
      illegal := if s.web.enc[d].illegal == 0xFFFF#16 then s.web.enc[d].illegal else s.web.enc[d].illegal + 1
      events := (s.web.travel, 2) ::
        s.web.enc[d].events.filter fun x => decide (s.web.travel - x.1 < 2 ^ 24) } := by
    rw [State.settle_web, State.illegalEdge_enc, State.takeLevels_enc, Vector.upd_same, Vector.upd_same]
    rfl
  refine ⟨_, next, ?_, ?_, ?_, ?_, ?_, fun x old recent => ?_, fun d' ne => execEncoderEdge_other ne next⟩
  all_goals rw [own]
  · exact illegal_count_toNat _
  · rfl
  · exact List.mem_cons_of_mem _ (List.mem_filter.mpr ⟨old, decide_eq_true recent⟩)

end Sys2Proof.Machine

/-! SUPPORT. The reset state, the web's events and its rate windows. -/

namespace Sys2Proof.Machine

/-- R13: both decoders of the reset state are clear. -/
theorem State.reset_enc (d : DecId) : State.reset.web.enc[d] = {} := Vector.getElem_replicate _

/-- Log 2, 3: the stores of the reset state list no cell. -/
theorem State.reset_memWf : State.reset.memWf := ⟨rfl, rfl, rfl, reset_panels_memWf⟩

/-- Settles O3 (R13, R35, R71, R463; log 1, 2, 3). -/
theorem resetStateIsThePowerOnExit : Obligations.ResetStateIsThePowerOnExit := by
  unfold Obligations.ResetStateIsThePowerOnExit
  refine ⟨rfl, rfl, rfl, fun d => ?_, rfl, rfl, rfl, rfl, State.reset_memWf⟩
  rw [State.reset_enc]
  exact ⟨rfl, rfl, rfl, rfl⟩

/-- A command acts where its condition holds. -/
theorem when_of_true {c : Bool} {s : State} {f : State → State} (h : c = true) : when c s f = .next (f s) := by
  rw [when, if_pos h]

/-- R16: the next span begins with both decoders' present counters. -/
def State.nextSpan (s : State) : State :=
  { s with web := { s.web with spanSource := s.sourceCounter, spanOther := s.web.enc[s.other].count } }

/-- R16: the end of a span begins the next, and a difference above T is charged to the source and reported. -/
theorem execCrossCheckSpan_eq {s : State} (run : s.running = true) (cross : s.pat.intk.other = 1)
    (span : 65536 ≤ (posDiff s.web.spanSource s.sourceCounter).natAbs) :
    execCrossCheckSpan s = .next (if s.pat.intk.tol < s.spanDifference.natAbs then
      (((s.nextSpan.addUncertainty s.nextSpan.source s.spanDifference.natAbs).faultRecord 1 s.nextSpan.other.val
        (unsigned 32 (clampInt (-2 ^ 31) (2 ^ 31 - 1) s.spanDifference) +
          2 ^ 32 * (s.pat.intk.tol % 2 ^ 32))).checkSlip).settle
      else s.nextSpan) := by
  refine (when_of_true (by simp [run, cross, span])).trans ?_
  simp only [decide_eq_true_eq, Int.ofNat_lt]
  rfl

/-- R17: a latched index pulse moves the last-index position of its decoder, and may add uncertainty. -/
theorem State.latchIndex_enc (s : State) (d : DecId) :
    ∃ events : List (Nat × Nat), (s.latchIndex d).web.enc = Vector.upd s.web.enc d fun e => { e with
      lastIndex := e.count, indexSeen := true, events := events } := by
  unfold State.latchIndex
  dsimp only
  split
  · split <;>
      simp only [State.checkSlip_enc, (State.faultRecord_quiet ..).web, State.addUncertainty, Vector.upd_upd] <;>
      exact ⟨_, Vector.upd_congr (by rfl)⟩
  · dsimp only
    exact ⟨_, Vector.upd_congr (by rfl)⟩

/-- R11: an index pulse below 5 ns is rejected. -/
theorem execIndexPulse_narrow {w : Nat} (d : DecId) (s : State) (narrow : w < 5) : execIndexPulse d w s = .next s :=
  if_pos (by simp [pulseNs, narrow])

/-- R17, log 8: whether an index pulse from 5 ns to 50 ns is latched is free. -/
theorem execIndexPulse_between {w : Nat} (d : DecId) {s : State} (least : 5 ≤ w) (short : w < 50)
    (porst : s.pins.porstN = true) :
    execIndexPulse d w s = .next
      (if Config.shortPulse s.free then (({ s with free := s.free + 1 }).latchIndex d).settle
        else { s with free := s.free + 1 }) := by
  unfold execIndexPulse
  rw [if_neg (by simp [pulseNs, not_lt.mpr least, porst]), if_pos short]
  rfl

/-- R17: an index pulse of 50 ns is latched. -/
theorem execIndexPulse_wide {w : Nat} (d : DecId) {s : State} (wide : 50 ≤ w) (porst : s.pins.porstN = true) :
    execIndexPulse d w s = .next (s.latchIndex d).settle := by
  have least : 5 ≤ w := by omega
  unfold execIndexPulse
  rw [if_neg (by simp [pulseNs, not_lt.mpr least, porst]), if_neg (not_lt.mpr wide)]

/-- R28, R452: after S without a counting edge the web-stopped state begins. -/
theorem execWebStopped_eq {s : State} (run : s.running = true) (moving : s.web.stopped = false)
    (still : s.edges.lastWall + s.pat.dlin.stopUs * usPs ≤ s.time.wall) :
    execWebStopped s = .next
      ((({ s with web := { s.web with
        stopped := true, stopEntry := s.sourceCounter, stopSince := s.time.wall } }.statusPos 5 0).controlEvent
          3).raiseEntry 2).settle := by
  unfold execWebStopped
  rw [when_of_true (by simp [run, moving, still])]

/-- R28, R449, R452: after R counts the web-stopped state ends. -/
theorem execWebMoving_eq {s : State} (run : s.running = true) (stopped : s.web.stopped = true)
    (moved : s.pat.dlin.restart ≤ (posDiff s.web.stopEntry s.sourceCounter).natAbs) :
    execWebMoving s = .next
      (((({ s with web := { s.web with stopped := false } }.statusPos 6 0).controlEvent 4).raiseEntry
        3).motionWake).settle := by
  unfold execWebMoving
  rw [when_of_true (by simp [run, stopped, moved])]

/-- R429: the closing cause of the horizon by the window's state. -/
theorem Window.horizonCause_eq (w : Window) :
    w.horizonCause = if w.st = .held ∨ w.st = .replayReady then 3 else 2 := by
  simp [Window.horizonCause]

/-- R23, R429, log 134: a window that the position has passed at p_e + H is closed, in the stopped state too. -/
theorem execHorizonClosure_eq {s : State} {tag : Tag} {w : Window}
    (found : s.look.ledger.find? (·.tag == tag) = some w)
    (on : s.running = true ∨ (s.sinceReady = true ∧ s.adm.dev = .stopped))
    (passed : posDiff s.position (w.pe + BitVec.ofNat 48 s.pat.dlin.horizon) ≤ 0) :
    execHorizonClosure tag s = .next (s.closeWindow tag 4 w.horizonCause 0 w.ownFlags).settle := by
  unfold execHorizonClosure
  rw [found]
  exact when_of_true (by simpa [passed] using on)

/-- Settles O17: the equations of the web's events (R16, R17, R23, R28, R429, R449, R452; log 8, 17, 134). -/
theorem webEventsComplete : Obligations.WebEventsComplete := by
  unfold Obligations.WebEventsComplete
  intro s
  refine ⟨?crossCheck, ?indexPulse, ?stopped, ?moving, ?horizon⟩
  case crossCheck =>
    intro run cross span
    have next := execCrossCheckSpan_eq run cross span
    exact ⟨fun within => next.trans (congrArg _ (if_neg (not_lt.mpr within))),
      fun beyond => next.trans (congrArg _ (if_pos beyond))⟩
  case indexPulse =>
    intro d w
    refine ⟨fun wide porst => ?_, execIndexPulse_between d, execIndexPulse_narrow d s⟩
    obtain ⟨events, latched⟩ := State.latchIndex_enc s d
    refine ⟨_, execIndexPulse_wide d wide porst, ?_, ?_, ?_⟩
    · rw [State.settle_web, latched, Vector.upd_same]
    · rw [State.settle_web, latched, Vector.upd_same]
    · exact ((State.latchIndex_kept s d).trans (State.settle_kept _)).count
  case stopped =>
    intro run moving still
    exact execWebStopped_eq run moving still
  case moving =>
    intro run stopped moved
    exact execWebMoving_eq run stopped moved
  case horizon =>
    intro tag w found on passed
    rw [← Window.horizonCause_eq]
    exact execHorizonClosure_eq found on passed

/-- R26: an over-rate window raises RATE_RISK and holds its episode on; its STATUS records change nothing else. -/
theorem State.overRate_quiet (s : State) (counts lines : Nat) (overC overL : Bool) :
    Quiet { s with
      pins := { s.pins with riskRate := true }
      web := { s.web with
        episode := true, goodWindows := 0
        overspeedSeen := (s.web.episode && s.web.overspeedSeen) || overC
        lineOverSeen := (s.web.episode && s.web.lineOverSeen) || overL } } (s.overRate counts lines overC overL) := by
  unfold State.overRate
  simp only [Bool.not_not]
  split
  · exact (Quiet.ite (State.status_quiet ..) (Quiet.refl _)).trans (State.status_quiet ..)
  · exact Quiet.ite (State.status_quiet ..) (Quiet.refl _)

/-- R26: the count rate of the window that ends is over its limit. -/
def State.overCounts (s : State) : Bool := decide (s.pat.dlin.cMax < s.web.rateEdges * 1000)

/-- R26: the line rate of the window that ends is over its limit. -/
def State.overLines (s : State) : Bool := decide (s.pat.dlin.lMax < s.web.rateLines * 1000)

/-- R26: the next rate window begins. -/
def State.nextWindow (s : State) : State := { s with web := s.web.nextWindow }

section

variable {s : State} (run : s.running = true) (ended : s.web.rateStart + msPs ≤ s.time.wall)

include run ended

/-- R26: the end of a window over a limit. -/
theorem execRateWindow_over (fast : s.overCounts = true ∨ s.overLines = true) :
    execRateWindow s = .next
      (s.nextWindow.overRate s.web.rateEdges s.web.rateLines s.overCounts s.overLines).settle := by
  have beyond : (s.overCounts || s.overLines) = true := by simpa using fast
  unfold execRateWindow
  rw [when_of_true (by simp [run, ended])]
  exact congrArg (fun t : State => Host.Outcome.next t.settle) (if_pos beyond)

variable (counts : s.overCounts = false) (lines : s.overLines = false)

include counts lines

/-- R26: the end of a window within both limits, outside an episode. -/
theorem execRateWindow_within (outside : s.web.episode = false) : execRateWindow s = .next s.nextWindow.settle := by
  have good : ¬ (s.overCounts || s.overLines) = true := by simp [counts, lines]
  have quiet : ¬ s.web.episode = true := by simp [outside]
  unfold execRateWindow
  rw [when_of_true (by simp [run, ended])]
  exact congrArg (fun t : State => Host.Outcome.next t.settle) ((if_neg good).trans (if_neg quiet))

/-- R26: the end of a window within both limits, in an episode that goes on. -/
theorem execRateWindow_counted (episode : s.web.episode = true) (more : s.web.goodWindows + 1 < 100) :
    execRateWindow s = .next ({ s.nextWindow with web := { s.nextWindow.web with
      goodWindows := s.web.goodWindows + 1 } }).settle := by
  have good : ¬ (s.overCounts || s.overLines) = true := by simp [counts, lines]
  unfold execRateWindow
  rw [when_of_true (by simp [run, ended])]
  exact congrArg (fun t : State => Host.Outcome.next t.settle)
    ((if_neg good).trans ((if_pos episode).trans (if_neg (not_le.mpr more))))

/-- R26: the hundredth window within both limits ends the episode: STATUS 0x04 forms, then RATE_RISK is released. -/
theorem execRateWindow_last (episode : s.web.episode = true) (last : 100 ≤ s.web.goodWindows + 1) :
    ∃ u, Quiet { s.nextWindow with web := { s.nextWindow.web with episode := false, goodWindows := 0 } } u ∧
      execRateWindow s = .next ({ u with pins := { u.pins with riskRate := false } }).settle := by
  have good : ¬ (s.overCounts || s.overLines) = true := by simp [counts, lines]
  refine ⟨_, State.statusPos_quiet _ 4 0, ?_⟩
  unfold execRateWindow
  rw [when_of_true (by simp [run, ended])]
  exact congrArg (fun t : State => Host.Outcome.next t.settle)
    ((if_neg good).trans ((if_pos episode).trans (if_pos last)))

end

/-- Settles O18: the equations of RATE_WINDOW (R26). -/
theorem rateWindowCompletes : Obligations.RateWindowCompletes := by
  unfold Obligations.RateWindowCompletes
  intro s run ended w overC overL
  refine ⟨fun fast => ?_, execRateWindow_within run ended, execRateWindow_counted run ended,
    fun counts lines episode last => ?_⟩
  · have risk := State.overRate_quiet s.nextWindow s.web.rateEdges s.web.rateLines s.overCounts s.overLines
    refine ⟨_, execRateWindow_over run ended fast, ?_⟩
    rw [State.settle_pins, State.settle_web, risk.pins, risk.web]
    exact ⟨rfl, rfl, rfl, rfl, rfl, rfl⟩
  · obtain ⟨u, formed, next⟩ := execRateWindow_last run ended counts lines episode last
    refine ⟨_, next, ?_⟩
    rw [State.settle_pins, State.settle_web]
    exact ⟨rfl, congrArg Web.episode formed.web⟩

end Sys2Proof.Machine

/-! SUPPORT. Which commands leave FAULT_N, THERMTRIP_N, the held markers, the straps, the pattern and the fuses as they
were. -/

namespace Sys2Proof.Machine

/-- R46, R62, R348: a command that neither resets nor ends a step of admission keeps all that `Kept` lists but the
counters. -/
theorem exec_counted {c : Instr} {s t : State} (reset : Claims.anyReset c = false)
    (adm : ∀ x, c ≠ .admissionStepComplete x) (h : exec c s = .next t) : Counted s t := by
  by_cases edge : ∃ d a b, c = .encoderEdge d a b
  · obtain ⟨d, a, b, rfl⟩ := edge
    exact execEncoderEdge_counted h
  · exact ((exec_kept c s reset (fun d a b e => edge ⟨d, a, b, e⟩) adm).of_next h).counted

/-- Settles O9: the steps of admission keep both too (R62, R348). -/
theorem faultPinAndHeldMarkersStayUntilAReset : Obligations.FaultPinAndHeldMarkersStayUntilAReset := by
  unfold Obligations.FaultPinAndHeldMarkersStayUntilAReset
  intro c s t reset h
  by_cases adm : ∃ x, c = .admissionStepComplete x
  · obtain ⟨x, rfl⟩ := adm
    have kept : Steady s t := (execAdmissionStepComplete_steady x s).of_next h
    exact ⟨kept.fault, kept.inhibited⟩
  · have kept : Counted s t := exec_counted reset (fun x e => adm ⟨x, e⟩) h
    exact ⟨kept.fault, kept.inhibited⟩

/-- Settles O11: the straps, the pattern and the fuses are among what a command outside admission keeps (R46, R113,
R442). -/
theorem strapsAndPatternChangeInAdmissionAlone : Obligations.StrapsAndPatternChangeInAdmissionAlone := by
  unfold Obligations.StrapsAndPatternChangeInAdmissionAlone
  intro c s t reset adm h
  have kept : Counted s t := exec_counted reset adm h
  exact ⟨kept.levels, kept.pat, kept.fuses⟩

/-- R64: THERMTRIP_N, where it is asserted, stays asserted. -/
structure TripKept (s t : State) : Prop where
  trip : s.pins.thermtrip = true → t.pins.thermtrip = true

theorem TripKept.refl (s : State) : TripKept s s := ⟨id⟩

theorem TripKept.trans {s t u : State} (h : TripKept s t) (k : TripKept t u) : TripKept s u := ⟨k.trip ∘ h.trip⟩

theorem Steady.tripKept {s t : State} (h : Steady s t) : TripKept s t := ⟨h.trip⟩

theorem Kept.tripKept {s t : State} (h : Kept s t) : TripKept s t := ⟨h.trip⟩

theorem TripKept.ite {c : Prop} [Decidable c] {s a b : State} (h : TripKept s a) (k : TripKept s b) :
    TripKept s (if c then a else b) := by
  split
  · exact h
  · exact k

theorem TripKept.of_when {c : Bool} {s t : State} {f : State → State} (h : TripKept s (f s))
    (e : when c s f = .next t) : TripKept s t := by
  cases e
  exact h.ite (TripKept.refl s)

theorem State.cutBurn_tripKept (s : State) : TripKept s s.cutBurn := by
  unfold State.cutBurn
  exact TripKept.ite ⟨id⟩ ⟨id⟩

/-- R98: what a reset breaks off is no cause to release THERMTRIP_N. -/
theorem State.breakOff_tripKept (s : State) : TripKept s s.breakOff :=
  (State.cutBurn_tripKept s).trans (State.cutOp_kept _).tripKept

/-- R64, R69: a reset of what is outside the thimble holds THERMTRIP_N. -/
theorem State.resetOutside_tripKept (s : State) (cause detail : Nat) : TripKept s (s.resetOutside cause detail) :=
  (State.breakOff_tripKept s).trans ⟨id⟩

/-- R64, R461: a reset of the whole device holds THERMTRIP_N until its exit. -/
theorem TripKept.resetAll {s t : State} (h : TripKept s t) : TripKept s t.resetAll :=
  (h.trans (State.breakOff_tripKept t)).trans ⟨id⟩

theorem execRstAssert_tripKept {s t : State} (h : execRstAssert s = .next t) : TripKept s t := by
  have pin : TripKept s { s with pins := { s.pins with rstN := false } } := ⟨id⟩
  cases h
  exact (pin.trans (State.resetOutside_tripKept ..)).ite pin

theorem execSupplyFault_tripKept {supply : Fin 4} {s t : State} (h : execSupplyFault supply s = .next t) :
    TripKept s t := by
  have held : TripKept s s.holdSupply := ⟨id⟩
  refine TripKept.of_when ?_ h
  exact (held.trans (State.resetOutside_tripKept ..)).ite held

theorem execRefclkLoss_tripKept {s t : State} (h : execRefclkLoss s = .next t) : TripKept s t :=
  TripKept.of_when (State.resetOutside_tripKept ..) h

theorem execHbmPllLoss_tripKept {s t : State} (h : execHbmPllLoss s = .next t) : TripKept s t :=
  TripKept.of_when (State.resetOutside_tripKept ..) h

theorem execInputRestored_tripKept {s t : State} (h : execInputRestored s = .next t) : TripKept s t :=
  TripKept.of_when (State.resetOutside_tripKept ..) h

theorem execPllLockTimeout_tripKept {s t : State} (h : execPllLockTimeout s = .next t) : TripKept s t := by
  have refused : TripKept s (s.refusePlatform 1 0).settle :=
    ((State.refusePlatform_steady ..).trans (State.settle_kept _).steady).tripKept
  refine TripKept.of_when ?_ h
  exact refused.ite ((State.resetOutside_tripKept ..).ite (TripKept.refl s))

theorem execHbmReloadComplete_tripKept {flashError : Bool} {s t : State}
    (h : execHbmReloadComplete flashError s = .next t) : TripKept s t := by
  have reloaded : TripKept s s.reloaded.settle := ((State.reloaded_kept s).trans (State.settle_kept _)).tripKept
  refine TripKept.of_when ?_ h
  exact (TripKept.refl s).ite (reloaded.ite (State.resetOutside_tripKept ..))

/-- R64, R461: of the commands that may reset, only a reset exit may release THERMTRIP_N. -/
theorem exec_tripKept_of_reset {c : Instr} {s t : State} (reset : Claims.anyReset c = true)
    (exit : ∀ testN j, c ≠ .resetExit testN j) (h : exec c s = .next t) : TripKept s t := by
  cases c with
  | resetExit testN j => exact absurd rfl (exit testN j)
  | porstAssert =>
    cases h
    exact (TripKept.refl s).resetAll
  | vaonInPowerUp =>
    cases h
    exact TripKept.resetAll ⟨id⟩
  | brownOut =>
    cases h
    exact TripKept.resetAll ⟨id⟩
  | rstAssert => exact execRstAssert_tripKept h
  | supplyFault supply => exact execSupplyFault_tripKept h
  | pllLockTimeout => exact execPllLockTimeout_tripKept h
  | hbmReloadComplete flashError => exact execHbmReloadComplete_tripKept h
  | refclkLoss => exact execRefclkLoss_tripKept h
  | hbmPllLoss => exact execHbmPllLoss_tripKept h
  | inputRestored => exact execInputRestored_tripKept h
  | _ => cases reset

/-- Settles O10: no command but a reset exit releases THERMTRIP_N, be it a reset, a step of admission or another (R64,
R461). -/
theorem thermalTripStaysUntilAResetExit : Obligations.ThermalTripStaysUntilAResetExit := by
  unfold Obligations.ThermalTripStaysUntilAResetExit
  intro c s t exit h
  by_cases reset : Claims.anyReset c = true
  · exact (exec_tripKept_of_reset reset exit h).trip
  by_cases adm : ∃ x, c = .admissionStepComplete x
  · obtain ⟨x, rfl⟩ := adm
    exact ((execAdmissionStepComplete_steady x s).of_next h).trip
  have kept : Counted s t := exec_counted (Bool.eq_false_iff.mpr reset) (fun x e => adm ⟨x, e⟩) h
  exact kept.trip

end Sys2Proof.Machine

/-! SUPPORT. The straps and the end of step 1: what the levels select, and the order of the strap problems. -/

namespace Sys2Proof.Machine

/-- R44: no pin decodes to a level that is reserved on it. -/
theorem State.level_not_reserved {s : State} {i l : Nat} (h : s.level i = some l) : reservedLevel i l = false := by
  unfold State.level at h
  split at h
  · split at h
    · split at h
      · cases h
      · next free =>
        cases h
        exact Bool.eq_false_iff.mpr free
    · cases h
  · cases h

/-- R47: the address that the levels of LVL_A to LVL_D give. -/
theorem State.address_eq {s : State} {a b c d : Nat} (ha : s.level 0 = some a) (hb : s.level 1 = some b)
    (hc : s.level 2 = some c) (hd : s.level 3 = some d) :
    s.address = BitVec.ofNat 16 ((16 * c + d) * 256 + (16 * a + b)) := by
  simp [State.address, ha, hb, hc, hd]

/-- R51: LVL_G below 8 trims by its level, from 8 on by its level less 16. -/
theorem State.sentinelTrim_eq {s : State} {l : Nat} (h : s.level 6 = some l) :
    s.sentinelTrim = if l < 8 then (l : Int) else (l : Int) - 16 := by
  simp [State.sentinelTrim, h]

/-- A value within the bounds is not clamped. -/
theorem clampInt_of_mem {lo hi v : Int} (least : lo ≤ v) (most : v ≤ hi) : clampInt lo hi v = v := by
  rw [clampInt, if_neg (not_lt.mpr least), if_neg (not_lt.mpr most)]

/-- Settles O60: the address fields follow from the levels, of which LVL_C has no more than 8 (R44, R47); the trim is the
level as four bits signed (R51). -/
theorem strapsGiveAddressAndTrim : Obligations.StrapsGiveAddressAndTrim := by
  unfold Obligations.StrapsGiveAddressAndTrim
  intro s
  refine ⟨fun a b c d ha hb hc hd a16 b16 d16 => ?address, fun l hl l16 => ⟨fun low => ?low, fun high => ?high, ?trimmed⟩⟩
  case address =>
    have free := State.level_not_reserved hc
    have c8 : c < 8 := by simpa [reservedLevel] using free
    have value : s.address.toNat = (16 * c + d) * 256 + (16 * a + b) := by
      rw [State.address_eq ha hb hc hd, BitVec.toNat_ofNat]
      omega
    rw [value]
    omega
  case low => rw [State.sentinelTrim_eq hl, if_pos (by omega)]
  case high => rw [State.sentinelTrim_eq hl, if_neg (by omega)]
  case trimmed => exact clampInt_of_mem

/-- R72: the code of the first check that fails. -/
theorem firstCode_cons (p : Bool) (c : Nat) (l : List (Bool × Nat)) :
    firstCode ((p, c) :: l) = if p = true then some c else firstCode l := by
  cases p <;> rfl

/-- R40, R72: a powered step of admission ends, step 1 no earlier than the end of pass 2. -/
theorem execAdmissionStepComplete_eq {x : StepInput} {s : State} (dev : s.adm.dev = .admitting)
    (on : s.stepPowered = true) (passed : s.adm.step = 1 → s.adm.since + 11 * msPs ≤ s.clock) :
    execAdmissionStepComplete x s = .next (s.endStep x).settle := by
  have ended : (s.adm.step != 1 || decide (s.adm.since + 11 * msPs ≤ s.clock)) = true := by
    simpa [← imp_iff_not_or] using passed
  unfold execAdmissionStepComplete
  rw [if_neg (by simp [State.levelsDue, dev]), when_of_true (by rw [dev, on, ended]; rfl)]

/-- R72: what ends in step 1. -/
theorem State.endStep_one {s : State} (step : s.adm.step = 1) (x : StepInput) : s.endStep x = s.endStep1 x := by
  simp only [State.endStep, step]

/-- R41, R43, R44, R55, R57: a strap problem refuses step 1. -/
theorem State.endStep1_of_code {x : StepInput} {s : State} {c : Nat} (h : (s.readLevels x).strapCode x.vddioMv = some c) :
    s.endStep1 x = (s.readLevels x).refuse c := by
  unfold State.endStep1
  dsimp only
  rw [h]
  rfl

/-- R58: with no strap problem BOOT_HOLD decides what follows step 1. -/
theorem State.endStep1_of_none {x : StepInput} {s : State} (h : (s.readLevels x).strapCode x.vddioMv = none) :
    s.endStep1 x = if x.bootHold then (s.readLevels x).startFlash
      else { s.readLevels x with adm := { (s.readLevels x).adm with dev := .bootHold } } := by
  unfold State.endStep1
  dsimp only
  rw [h]
  rfl

section

variable {r : State} {mv : Nat}

/-- R57: TEST_N low at the reset exit or at the end of pass 2 comes first. -/
theorem State.strapCode_test (test : (r.levels.test1 && r.levels.test2) = false) : r.strapCode mv = some 0x3F := by
  rw [State.strapCode, firstCode_cons, if_pos (by rw [test]; rfl)]

variable (test : (r.levels.test1 && r.levels.test2) = true)

include test

/-- R41: a bad LVL_REF comes second. -/
theorem State.strapCode_ref (ref : r.levels.refFault = true) : r.strapCode mv = some 0x3C := by
  simp [State.strapCode, firstCode_cons, test, ref]

variable (ref : r.levels.refFault = false)

include ref

/-- R43: a pin in strap fault comes third. -/
theorem State.strapCode_fault (fault : r.levels.pin.any (·.fault) = true) : r.strapCode mv = some 0x3E := by
  rw [State.strapCode, firstCode_cons, if_neg (by simp [test]), firstCode_cons, if_neg (by simp [ref]), firstCode_cons,
    if_pos fault]

variable (sound : r.levels.pin.any (·.fault) = false)

include sound

/-- R44, R55: without a strap fault a reserved level comes first, and the flash supply last. -/
theorem State.strapCode_sound : r.strapCode mv =
    if ((List.range 10).any fun i => (r.level i).isNone) = true then some 0x3D
    else if vddioOk r.flashClass mv = false then some 0x3B else none := by
  rw [State.strapCode, firstCode_cons, if_neg (by simp [test]), firstCode_cons, if_neg (by simp [ref]), firstCode_cons,
    if_neg (by simp [sound]), firstCode_cons, firstCode_cons]
  simp [firstCode]

end

/-- Settles O21: each bad reading refuses with the first code of its order (R41, R43, R44, R55, R57, R58). -/
theorem strapProblemsRefuse : Obligations.StrapProblemsRefuse := by
  unfold Obligations.StrapProblemsRefuse
  intro x s dev step on passed r
  have ends : exec (.admissionStepComplete x) s = .next (s.endStep1 x).settle := by
    rw [← State.endStep_one step x]
    exact execAdmissionStepComplete_eq dev on fun _ => passed
  have refuses {c : Nat} (h : r.strapCode x.vddioMv = some c) :
      exec (.admissionStepComplete x) s = .next (r.refuse c).settle :=
    ends.trans (by rw [State.endStep1_of_code h])
  refine ⟨fun low => ?test, fun test ref => ?ref, fun test ref fault => ?fault, fun test ref sound unread => ?reserved,
    fun test ref sound read supply => ?supply, fun sound => ?passes⟩
  case test =>
    obtain ⟨exit, pass2⟩ : r.levels.test1 = true ∧ r.levels.test2 = false := by simpa using low
    exact refuses (State.strapCode_test (by rw [exit, pass2]; rfl))
  case ref => exact refuses (State.strapCode_ref (by simpa using test) ref)
  case fault => exact refuses (State.strapCode_fault (by simpa using test) ref fault)
  case reserved =>
    refine refuses ((State.strapCode_sound (by simpa using test) ref sound).trans (if_pos ?_))
    simpa using unread
  case supply =>
    refine refuses ((State.strapCode_sound (by simpa using test) ref sound).trans ?_)
    rw [if_neg (by simpa using read), if_pos supply]
  case passes => exact ends.trans (by rw [State.endStep1_of_none sound])

end Sys2Proof.Machine


/-! SUPPORT. Admission's steps, holds and timeouts, and the flash: an equation per command. -/

namespace Sys2Proof.Machine

/-- R58: the boot hold ends in step 2. -/
theorem execBootHoldRelease_eq {s : State} (held : s.adm.dev = .bootHold) :
    execBootHoldRelease s = .next s.startFlash.settle := by
  unfold execBootHoldRelease
  rw [when_of_true (by rw [held]; rfl)]

/-- R72: step 2 is the device's as the flash controller is voted on. -/
theorem State.startFlash_adm (s : State) : s.startFlash.adm = { s.adm with dev := .admitting, step := 2 } := by
  unfold State.startFlash
  rw [(State.addVote_quiet ..).adm]

/-- R93: formation ends without a bolt half a second into step 12. -/
theorem execFormationTimeout_eq {s : State} (dev : s.adm.dev = .admitting) (step : s.adm.step = 12)
    (role : s.role ≠ 0) (master : s.isMaster = false) (late : s.bolt.formFrom + 500 * msPs ≤ s.clock) :
    execFormationTimeout s = .next
      (let r := if s.bolt.mode == 3 && s.bolt.reason == 5 then 5 else 9
       (({ s with bolt := { s.bolt with mode := 3, reason := r, usable := 0 } }.raiseReady.boltRecord 2 r 0xFFFF
        0).helloAll).settle) := by
  unfold execFormationTimeout
  rw [when_of_true (by simp [dev, step, role, master, late])]

/-- R72: what ends in step 4. -/
theorem State.endStep_four {s : State} (step : s.adm.step = 4) (x : StepInput) : s.endStep x = s.endStep4 := by
  simp only [State.endStep, step]

/-- R83: step 4 of a compatible seal pattern starts the burn. -/
theorem State.endStep4_seal {s : State} (idle : s.adm.burning = false) (compatible : s.compatCode = none)
    (sealing : s.pat.head.flags % 2 = 1) : s.endStep4 = s.startBurn := by
  unfold State.endStep4
  rw [if_neg (by rw [idle]; nofun), compatible]
  exact if_pos (by rw [sealing]; rfl)

/-- R83: the further end of step 4 completes the burn. -/
theorem State.endStep4_burning {s : State} (burning : s.adm.burning = true) : s.endStep4 = s.burn := if_pos burning

/-- Settles O22: the equations of the steps, the boot hold and the formation timeout, and step 4 of a seal pattern (R35,
R58, R72, R83, R93; log 66). -/
theorem admissionCompletes : Obligations.AdmissionCompletes := by
  unfold Obligations.AdmissionCompletes
  intro s
  refine ⟨fun x dev on other => ?step, fun held => ?hold, execFormationTimeout_eq, fun x dev step on => ?sealing⟩
  case step => exact execAdmissionStepComplete_eq dev on fun first => absurd first other
  case hold =>
    refine ⟨execBootHoldRelease_eq held, ?_, ?_⟩ <;> rw [State.startFlash_adm]
  case sealing =>
    have ends : exec (.admissionStepComplete x) s = .next s.endStep4.settle := by
      rw [← State.endStep_four step x]
      exact execAdmissionStepComplete_eq dev on fun first => by omega
    exact ⟨fun idle compatible sealing => ends.trans (by rw [State.endStep4_seal idle compatible sealing]; rfl),
      fun burning => ends.trans (by rw [State.endStep4_burning burning]; rfl)⟩

/-- A command whose condition does not hold changes nothing (log 16). -/
theorem when_of_false {c : Bool} {s : State} {f : State → State} (h : c = false) : when c s f = .next s := by
  rw [when, if_neg (Bool.eq_false_iff.mp h)]

/-- R66, R505: the blink timers step once 25 ms have passed. -/
theorem execStatBlinkTimer_due {s : State} (due : s.pins.blinkAt + 25 * msPs ≤ s.time.wall) :
    execStatBlinkTimer s = .next { s with pins := { s.pins with
      blink := s.pins.blink + 1, blinkAt := s.pins.blinkAt + 25 * msPs } } :=
  when_of_true (decide_eq_true due)

/-- R66, R505: before that they stand. -/
theorem execStatBlinkTimer_early {s : State} (early : s.time.wall < s.pins.blinkAt + 25 * msPs) :
    execStatBlinkTimer s = .next s :=
  when_of_false (decide_eq_false (not_le.mpr early))

/-- R105: an operation on the powered flash ends. -/
theorem execFlashOperationDone_eq {s : State} (error : Bool) (on : s.isOn domFlash = true) :
    execFlashOperationDone error s = .next (s.operationDone error).flashNext.settle :=
  when_of_true on

/-- R105: an erase or program that is busy too long. -/
theorem execFlashBusyTimeout_eq {s : State} {r : CommitRun} {o : FlashOp} (on : s.isOn domFlash = true)
    (late : s.operationLate = some (r, o)) :
    execFlashBusyTimeout s = .next (s.operationTimeout r o).flashNext.settle := by
  unfold execFlashBusyTimeout
  rw [late]
  exact when_of_true on

/-- R481: the period that the lines have reached is noted. -/
def State.notePeriod (s : State) : State := { s with flash := { s.flash with periodAt := s.periodNow } }

/-- R481: the end of a period commits while commits are periodic. -/
theorem execPeriodicCommit_eq {s : State} (run : s.running = true) (lines : s.intake.nextSeq ≠ 0)
    (first : s.periodNow ≠ 0) (new : s.periodNow ≠ s.flash.periodAt) :
    execPeriodicCommit s = .next (if s.notePeriod.periodic then
      (s.notePeriod.requestCommit (if s.notePeriod.recordDirty then .record else .counter)).settle
      else s.notePeriod) :=
  when_of_true (by rw [run, bne_iff_ne.mpr lines, bne_iff_ne.mpr first, bne_iff_ne.mpr new]; rfl)

/-- R103: a command takes eight clocks for its opcode and its address on its lanes before the clocks between address and
data. -/
theorem FlashCmd.ioAt_eq_high_iff {c : FlashCmd} {cls n : Nat} :
    c.ioAt cls n = .high ↔ (c.form cls).addrLanes = 4 ∧ 8 + (c.form cls).addrBits / (c.form cls).addrLanes ≤ n ∧
      n < 8 + (c.form cls).addrBits / (c.form cls).addrLanes + min 2 (c.form cls).dummy := by
  unfold FlashCmd.ioAt
  dsimp only
  have opcode : 8 ≤ 8 + (c.form cls).addrBits / (c.form cls).addrLanes := Nat.le_add_right ..
  generalize 8 + (c.form cls).addrBits / (c.form cls).addrLanes = a at opcode ⊢
  split_ifs <;> simp only [false_iff, true_iff] <;> omega

/-- R54: a 1-4-4 read has two clocks and more between address and data. -/
theorem two_le_dummyClocks (cls : Nat) : 2 ≤ dummyClocks cls := by
  unfold dummyClocks
  split <;> omega

/-- R103: only a 1-4-4 read has its address on four lanes. -/
theorem FlashCmd.addrLanes_eq_one {c : FlashCmd} (other : c ≠ .slotRead) (cls : Nat) : (c.form cls).addrLanes = 1 := by
  cases c with
  | slotRead => exact absurd rfl other
  | _ => rfl

/-- R54, R103: the clocks 16 and 17 of a 1-4-4 read drive FL_IO[3:0] high. -/
theorem FlashCmd.slotRead_high_iff {cls n : Nat} : FlashCmd.slotRead.ioAt cls n = .high ↔ n = 16 ∨ n = 17 := by
  have two := two_le_dummyClocks cls
  rw [FlashCmd.ioAt_eq_high_iff]
  simp only [FlashCmd.form, true_and]
  omega

/-- R102: the commands with data on four lanes are the reads of the slots and of the areas. -/
theorem FlashCmd.dataLanes_eq_one {c : FlashCmd} (slot : c ≠ .slotRead) (area : c ≠ .areaRead) (cls : Nat) :
    (c.form cls).dataLanes = 1 := by
  cases c with
  | slotRead => exact absurd rfl slot
  | areaRead => exact absurd rfl area
  | _ => rfl

/-- R102: without lock every command runs at FRC. -/
theorem State.flashKhz_unlocked {s : State} (unlocked : s.power.locked = false) (c : FlashCmd) :
    s.flashKhz c = 48000 := by
  rw [State.flashKhz, unlocked]
  rfl

/-- R102: with lock the commands with data on four lanes run at the flash clock, the others at a third of it. -/
theorem State.flashKhz_locked {s : State} (locked : s.power.locked = true) (c : FlashCmd) :
    s.flashKhz c = if (c.form 0).dataLanes = 4 then 999 * s.flashMhz else 333 * s.flashMhz := by
  rw [State.flashKhz, locked]
  rfl

/-- R251: an instruction of the control sequencer that has an effect. -/
theorem controlIssue_eq {s : State} {effect : Stitch → Option (State → State)} {ins : Stitch} {g : State → State}
    (fetched : s.fetchControl = some ins) (effects : effect ins = some g) :
    controlIssue s effect = .next (g (Claims.stepped s)).settle := by
  unfold controlIssue
  simp only [fetched, effects]
  rfl

/-- R251, R481: COMMIT requests a record commit. -/
theorem execCommit_eq {s : State} (fetched : s.fetchControl = some .commit) :
    execCommit s = .next ((Claims.stepped s).requestCommit .record).settle := by
  unfold execCommit
  rw [controlIssue_eq fetched rfl]

/-- R226, R251, R480: STAGE takes the loop indices with which it issues. -/
theorem execStage_eq {s : State} {f id : Nat} (u : List Upset) (fetched : s.fetchControl = some (.stage f id)) :
    execStage u s = .next ((Claims.stepped s).stageTile u s.control.seq.loops f id).settle := by
  unfold execStage
  dsimp only
  rw [controlIssue_eq fetched rfl]

/-- Settles O24: the equations of the blink timers, the flash operations, the commits and STAGE, and the pins and clocks of
the flash (R54, R66, R102, R103, R105, R251, R480, R481, R505). -/
theorem flashAndCommitsComplete : Obligations.FlashAndCommitsComplete := by
  unfold Obligations.FlashAndCommitsComplete
  intro s
  refine ⟨execStatBlinkTimer_due, execStatBlinkTimer_early, fun error on => execFlashOperationDone_eq error on,
    fun r o => execFlashBusyTimeout_eq, fun run lines first new => ?period, fun cls n => FlashCmd.slotRead_high_iff,
    fun c cls n other high => ?pins, State.flashKhz_unlocked, fun locked => ?clock, fun fetched => ?commit,
    fun f id u fetched => ?stage⟩
  case period =>
    have next := execPeriodicCommit_eq run lines first new
    exact ⟨fun periodic => next.trans (congrArg _ (if_pos periodic)),
      fun armed => next.trans (congrArg _ (if_neg (Bool.eq_false_iff.mp armed)))⟩
  case pins =>
    have lanes := (FlashCmd.ioAt_eq_high_iff.mp high).1
    rw [FlashCmd.addrLanes_eq_one other] at lanes
    cases lanes
  case clock =>
    refine ⟨State.flashKhz_locked locked .slotRead, State.flashKhz_locked locked .areaRead, fun c slot area => ?_⟩
    rw [State.flashKhz_locked locked, FlashCmd.dataLanes_eq_one slot area]
    rfl
  case commit => exact execCommit_eq fetched
  case stage => exact execStage_eq u fetched

end Sys2Proof.Machine


/-! SUPPORT. What records, votes and the clocks leave of the temperature's part of the power state. -/

namespace Sys2Proof.Machine

/-- R459, R460: what temperature samples look at and change, but for the 100 °C cause: the reading, the samples at or above
105 °C, and how far the degraded switch has come. -/
structure Heat where
  junction : Int
  hot105 : Nat
  degradePending : Bool
  degraded : Bool

/-- The temperature's part of a power state. -/
def Power.heat (p : Power) : Heat := ⟨p.junction, p.hot105, p.degradePending, p.degraded⟩

/-- The operation leaves the temperature's part of the power state as it was. -/
structure HeatKept (s t : State) : Prop where
  same : t.power.heat = s.power.heat

theorem HeatKept.refl (s : State) : HeatKept s s := ⟨rfl⟩

theorem HeatKept.trans {s t u : State} (h : HeatKept s t) (k : HeatKept t u) : HeatKept s u :=
  ⟨k.same.trans h.same⟩

/-- As `HeatKept.trans`, the later part first. -/
theorem HeatKept.after {s t u : State} (k : HeatKept t u) (h : HeatKept s t) : HeatKept s u := h.trans k

theorem HeatKept.ite {c : Prop} [Decidable c] {s a b : State} (h : HeatKept s a) (k : HeatKept s b) :
    HeatKept s (if c then a else b) := by
  split
  · exact h
  · exact k

theorem HeatKept.foldl {α : Type} {f : State → α → State} (h : ∀ s x, HeatKept s (f s x)) (s : State) (l : List α) :
    HeatKept s (l.foldl f s) := by
  induction l generalizing s with
  | nil => exact HeatKept.refl _
  | cons a l ih => exact (h s a).trans (ih _)

theorem HeatKept.junction {s t : State} (h : HeatKept s t) : t.power.junction = s.power.junction :=
  congrArg Heat.junction h.same

theorem HeatKept.hot105 {s t : State} (h : HeatKept s t) : t.power.hot105 = s.power.hot105 :=
  congrArg Heat.hot105 h.same

theorem HeatKept.degradePending {s t : State} (h : HeatKept s t) : t.power.degradePending = s.power.degradePending :=
  congrArg Heat.degradePending h.same

theorem HeatKept.degraded {s t : State} (h : HeatKept s t) : t.power.degraded = s.power.degraded :=
  congrArg Heat.degraded h.same

/-! ### Records -/

theorem State.queueEvent_heat (s : State) (q : SeamId) (dest src : Addr) (r : Record) :
    HeatKept s (s.queueEvent q dest src r) := by
  unfold State.queueEvent
  exact HeatKept.ite ⟨rfl⟩ ⟨rfl⟩

theorem State.relay_heat (s : State) (r : Record) : HeatKept s (s.relay r) := by
  unfold State.relay
  refine HeatKept.ite ?_ (HeatKept.refl s)
  split
  · exact HeatKept.ite (State.queueEvent_heat ..) ⟨rfl⟩
  · exact HeatKept.refl s

theorem State.tryLoss_heat (s : State) : HeatKept s s.tryLoss := by
  unfold State.tryLoss
  exact HeatKept.ite ((State.relay_heat ..).after ⟨rfl⟩) (HeatKept.refl s)

theorem State.enterRecord_heat (s : State) (r : Record) : HeatKept s (s.enterRecord r) := by
  refine HeatKept.trans ?_ (State.tryLoss_heat _)
  unfold State.enterOne
  exact HeatKept.ite ⟨rfl⟩ ((State.relay_heat ..).after ⟨rfl⟩)

/-- R324: forming a record changes nothing of the temperature's part of the power state. -/
theorem State.submit_heat (s : State) (r : Record) : HeatKept s (s.submit r) := by
  unfold State.submit
  exact HeatKept.ite (HeatKept.refl s) (HeatKept.ite (State.enterRecord_heat ..) ⟨rfl⟩)

theorem State.statusPos_heat (s : State) (cause small : Nat) : HeatKept s (s.statusPos cause small) :=
  State.submit_heat ..

theorem State.markRecord_heat (s : State) (sub marker : Nat) (target : Pos) (covered : Nat) (tag : Tag) :
    HeatKept s (s.markRecord sub marker target covered tag) :=
  State.submit_heat ..

theorem State.faultId_heat (s : State) : HeatKept s s.faultId.2 := by
  unfold State.faultId
  split <;> exact ⟨rfl⟩

theorem State.formFault_heat (s : State) (cause unit detail : Nat) : HeatKept s (s.formFault cause unit detail).2 := by
  have formed (r : Record) := (State.faultId_heat s).trans (State.submit_heat s.faultId.2 r)
  unfold State.formFault
  exact HeatKept.ite ((formed _).trans ⟨rfl⟩) (formed _)

theorem State.detect_heat (s : State) (cause unit detail loc : Nat) :
    HeatKept s (s.detect cause unit detail loc).2 := by
  unfold State.detect
  split
  · exact HeatKept.ite ⟨rfl⟩ ⟨rfl⟩
  · have formed := State.formFault_heat s cause unit detail
    exact HeatKept.ite (formed.trans ⟨rfl⟩) formed

theorem State.noteDrops_heat (s : State) : HeatKept s s.noteDrops := by
  unfold State.noteDrops
  split
  · exact (State.detect_heat ..).after ⟨rfl⟩
  · exact HeatKept.refl s

theorem State.discardFires_heat (s : State) : HeatKept s s.discardFires := by
  have cut (l : List Fire) (s : State) :
      HeatKept s (l.foldl (fun s f => s.markRecord 1 f.marker f.target 1 f.tag) s) :=
    HeatKept.foldl (fun _ _ => State.markRecord_heat ..) _ _
  have inactive : HeatKept s { s with markers := { fires := [], inhibited := true } } := ⟨rfl⟩
  unfold State.discardFires
  exact (inactive.trans (cut _ _)).ite ((inactive.trans (cut _ _)).trans (State.markRecord_heat ..))

/-! ### Votes -/

theorem State.retrainPort_heat (s : State) (id : Nat) : HeatKept s (s.retrainPort id) := by
  unfold State.retrainPort
  split <;> exact ⟨rfl⟩

theorem State.wakeDomain_heat (s : State) (id : Nat) : HeatKept s (s.wakeDomain id) := by
  unfold State.wakeDomain
  refine HeatKept.ite (HeatKept.refl s) ?_
  split
  · exact State.retrainPort_heat ..
  · exact HeatKept.refl s
  · exact HeatKept.ite ⟨rfl⟩ ⟨rfl⟩
  · exact HeatKept.refl s
  · exact HeatKept.ite ⟨rfl⟩ ⟨rfl⟩

theorem State.addVote_heat (s : State) (c : Client) (id : Nat) (retain : Bool) : HeatKept s (s.addVote c id retain) := by
  have taken (v : Vote) : HeatKept s (if s.power.votes.contains v then s
      else { s with power := { s.power with votes := s.power.votes ++ [v] } }) := HeatKept.ite ⟨rfl⟩ ⟨rfl⟩
  unfold State.addVote
  exact (taken _).ite ((taken _).trans (State.wakeDomain_heat ..))

theorem State.dropVote_heat (s : State) (c : Client) (id : Nat) (retain : Bool) :
    HeatKept s (s.dropVote c id retain) := by
  have retained (t : State) : HeatKept t (t.dropRetained id) := HeatKept.ite ⟨rfl⟩ ⟨rfl⟩
  have hysteresis (t : State) : HeatKept t (t.startHysteresis id) := HeatKept.ite ⟨rfl⟩ ⟨rfl⟩
  unfold State.dropVote
  refine HeatKept.ite (HeatKept.ite ?_ ?_) (HeatKept.refl s)
  · exact (retained _).after ⟨rfl⟩
  · exact (hysteresis _).after ⟨rfl⟩

theorem State.eventVotes_heat (s : State) : HeatKept s s.eventVotes := by
  have busy : HeatKept s (if s.eventBusy then s.addVote .event domEvent false else s.dropVote .event domEvent false) :=
    HeatKept.ite (State.addVote_heat ..) (State.dropVote_heat ..)
  unfold State.eventVotes
  exact HeatKept.ite (busy.trans (State.addVote_heat ..)) (busy.trans (State.dropVote_heat ..))

/-! ### The control sequencer and the clocks -/

theorem State.startControl_heat (s : State) (pc : Nat) : HeatKept s (s.startControl pc) := by
  unfold State.startControl
  exact (State.addVote_heat ..).after ⟨rfl⟩

theorem State.startPending_heat (s : State) : HeatKept s s.startPending := by
  unfold State.startPending
  refine HeatKept.ite ?_ (HeatKept.refl s)
  split
  · dsimp only
    split
    · exact (State.startControl_heat ..).after ⟨rfl⟩
    · exact ⟨rfl⟩
  · exact HeatKept.refl s

theorem State.resumeWaite_heat (s : State) : HeatKept s s.resumeWaite := by
  unfold State.resumeWaite
  split
  · exact (State.addVote_heat ..).after ⟨rfl⟩
  · exact HeatKept.refl s

theorem State.continueControl_heat (s : State) : HeatKept s s.continueControl := by
  unfold State.continueControl
  refine HeatKept.ite (HeatKept.trans ?_ (State.startPending_heat _)) (HeatKept.refl s)
  split
  · exact HeatKept.ite (HeatKept.refl s) (State.resumeWaite_heat s)
  · exact HeatKept.refl s

theorem State.endWakes_heat (s : State) : HeatKept s s.endWakes := HeatKept.foldl (fun _ _ => State.dropVote_heat ..) _ _

theorem State.settleClocks_heat (s : State) : HeatKept s s.settleClocks := by
  have request : HeatKept s s.requestPll := HeatKept.ite ⟨rfl⟩ ⟨rfl⟩
  unfold State.settleClocks
  refine ⟨?_⟩
  dsimp only
  split
  · exact request.same
  · split <;> rfl

/-- What follows a command leaves the temperature's part of the power state as it was. -/
theorem State.settle_heat (s : State) : HeatKept s s.settle := by
  have restored (t : State) : HeatKept t t.checkRestored := HeatKept.ite ⟨rfl⟩ ⟨rfl⟩
  exact (((((State.noteDrops_heat s).trans (State.continueControl_heat _)).trans (State.endWakes_heat _)).trans
    (State.eventVotes_heat _)).trans (restored _)).trans (State.settleClocks_heat _)

end Sys2Proof.Machine


/-! SUPPORT. The reset exit: an equation per outcome, and what each leaves. -/

namespace Sys2Proof.Machine

theorem Quiet.levels {s t : State} (h : Quiet s t) : t.levels = s.levels := by rw [h.same]

/-- R35, R57, R70: the device as both reset pins are high, with THERMTRIP_N yet to be decided. -/
def State.leaveReset (s : State) (testN : Bool) (junction : Int) : State :=
  { s with
    pins := { s.pins with porstN := true, rstN := true }
    web := { s.web with lost := false }
    levels := { s.levels with test1 := testN }
    power := { s.power with junction := junction, supplyFrom := none } }

/-- R461: a reset of the whole device, with a junction below 105 °C at its exit. -/
def State.tripEnds (s : State) (junction : Int) : Prop :=
  (s.wake.cause = 1 ∨ s.wake.cause = 4) ∧ junction < 105 * 16

/-- R461: the device with THERMTRIP_N high. -/
def State.tripReleased (s : State) : State := { s with pins := { s.pins with thermtrip := false } }

/-- R461: THERMTRIP_N is released. -/
theorem State.releaseTrip_of_tripEnds {s : State} {junction : Int} (ends : s.tripEnds junction) :
    s.releaseTrip junction = s.tripReleased := by
  obtain ⟨cause, cool⟩ := ends
  exact if_pos (by simpa only [Bool.and_eq_true, Bool.or_eq_true, beq_iff_eq, decide_eq_true_eq] using ⟨cause, cool⟩)

/-- R461: THERMTRIP_N is held. -/
theorem State.releaseTrip_of_not_tripEnds {s : State} {junction : Int} (held : ¬ s.tripEnds junction) :
    s.releaseTrip junction = s :=
  if_neg (by simpa only [Bool.and_eq_true, Bool.or_eq_true, beq_iff_eq, decide_eq_true_eq, State.tripEnds] using held)

/-- R70: a supply fault holds the reset until it has been over for 1 ms. -/
theorem State.suppliesBack_of_fault {s : State} {t : Nat} (fault : s.power.supplyFrom = some t) :
    s.suppliesBack = decide (t + msPs ≤ s.clock) := by
  rw [State.suppliesBack, fault, Option.all_some]

/-- R70: nothing holds the reset of a supply fault, or nothing has for 1 ms. -/
theorem State.suppliesBack_of {s : State}
    (back : s.power.supplyFrom = none ∨ ∃ t, s.power.supplyFrom = some t ∧ t + msPs ≤ s.clock) :
    s.suppliesBack = true := by
  obtain free | ⟨t, fault, passed⟩ := back
  · rw [State.suppliesBack, free, Option.all_none]
  · rw [State.suppliesBack_of_fault fault]
    exact decide_eq_true passed

/-- R70: until then a reset exit changes nothing. -/
theorem execResetExit_held {testN : Bool} {j : Int} {s : State} {t : Nat} (fault : s.power.supplyFrom = some t)
    (early : s.clock < t + msPs) : execResetExit testN j s = .next s := by
  have held : s.suppliesBack = false := by
    rw [State.suppliesBack_of_fault fault]
    exact decide_eq_false (not_le.mpr early)
  exact when_of_false (by rw [held, Bool.and_false])

/-- R71, R453, R515: what a reset exit that starts admission leaves. -/
def State.admitted (s : State) (testN : Bool) (j : Int) : State :=
  { s with
    pins := { s.pins with porstN := true, rstN := true }
    web := { s.web with lost := false }
    levels := { s.levels with test1 := testN }
    wake := { s.wake with
      pos := s.position, atClock := s.clock, wakeWall := s.time.wall, awaiting := [], brownOut := false }
    adm := { s.adm with dev := .admitting, since := s.clock }
    power := { Power.atExit s.clock with junction := j, vidSince := s.power.vidSince } }

section

variable {testN : Bool} {j : Int} {s : State} (dev : s.adm.dev = .inReset) (back : s.suppliesBack = true)

include dev back

theorem execResetExit_eq : execResetExit testN j s = .next
    (if ((s.leaveReset testN j).releaseTrip j).exitRecord.pins.thermtrip
      then ((s.leaveReset testN j).releaseTrip j).exitRecord.stopAgain
      else ((s.leaveReset testN j).releaseTrip j).exitRecord.startAdmission) :=
  when_of_true (by rw [dev, back]; rfl)

/-- R461: a trip that the exit releases does not keep admission from starting. -/
theorem execResetExit_releases (ends : s.tripEnds j) :
    execResetExit testN j s = .next (s.tripReleased.admitted testN j) := by
  rw [execResetExit_eq dev back, State.releaseTrip_of_tripEnds (s := s.leaveReset testN j) ends]
  rfl

/-- R71: with no trip latched admission starts. -/
theorem execResetExit_admits (low : s.pins.thermtrip = false) :
    execResetExit testN j s = .next (s.admitted testN j) := by
  by_cases ends : s.tripEnds j
  · have same : s.tripReleased = s := by
      unfold State.tripReleased
      rw [← low]
    rw [execResetExit_releases dev back ends, same]
  · rw [execResetExit_eq dev back, State.releaseTrip_of_not_tripEnds (s := s.leaveReset testN j) ends]
    exact congrArg _ (if_neg (Bool.eq_false_iff.mp low))

/-- R461: a trip that is still latched returns the device to the stopped state. -/
theorem execResetExit_stops (latched : s.pins.thermtrip = true) (held : ¬ s.tripEnds j) :
    execResetExit testN j s = .next (s.leaveReset testN j).exitRecord.stopAgain := by
  rw [execResetExit_eq dev back, State.releaseTrip_of_not_tripEnds (s := s.leaveReset testN j) held]
  exact congrArg _ (if_pos latched)

end

/-- R461: the stopped state, before its vote for the event domain. -/
def State.stopped (s : State) : State :=
  { s with
    adm := { s.adm with dev := .stopped, since := s.clock }
    pins := { s.pins with fault := true }
    markers := { s.markers with inhibited := true } }

theorem State.stopAgain_quiet (s : State) : Quiet s.stopped s.stopAgain :=
  (State.addVote_quiet ..).trans (State.settleClocks_quiet _)

theorem State.stopAgain_heat (s : State) : HeatKept s s.stopAgain :=
  ((State.addVote_heat s.stopped ..).trans (State.settleClocks_heat _)).after ⟨rfl⟩

/-- Settles O14: admission starts with no trip latched or with one that the exit releases; otherwise the stopped state
returns (R35, R62, R70, R71, R461). -/
theorem resetExitStartsAdmission : Obligations.ResetExitStartsAdmission := by
  unfold Obligations.ResetExitStartsAdmission
  intro testN j s dev
  refine ⟨fun t fault early => execResetExit_held fault early, fun supplies => ?_⟩
  have back := State.suppliesBack_of supplies
  refine ⟨execResetExit_admits dev back, ?_⟩
  cases trip : s.pins.thermtrip with
  | false =>
    exact ⟨_, execResetExit_admits dev back trip, rfl, rfl, rfl, rfl, fun _ => rfl, rfl, fun _ => ⟨rfl, rfl⟩, id,
      nofun, nofun⟩
  | true =>
    by_cases ends : s.tripEnds j
    · exact ⟨_, execResetExit_releases dev back ends, rfl, rfl, rfl, rfl, fun _ => rfl, rfl, nofun, id,
        fun _ _ _ => ⟨rfl, rfl⟩, fun _ held => absurd ends held⟩
    · have quiet := State.stopAgain_quiet (s.leaveReset testN j).exitRecord
      refine ⟨_, execResetExit_stops dev back trip ends, ?_⟩
      rw [(State.stopAgain_heat _).junction, quiet.pins, quiet.levels, quiet.web, quiet.adm, quiet.markers]
      exact ⟨rfl, rfl, rfl, rfl, fun _ => rfl, rfl, nofun, id, fun _ cause cool => absurd ⟨cause, cool⟩ ends,
        fun _ _ => ⟨trip, rfl, rfl, rfl⟩⟩

end Sys2Proof.Machine


/-! SUPPORT. A temperature sample: what it makes of the thermal cause of RATE_RISK, the thermal stop and the degraded
switch. -/

namespace Sys2Proof.Machine

/-- R459: how many samples in a row have been at or above 100 °C. -/
def State.hotCount (s : State) (t : Int) : Nat := if 1600 ≤ t then s.power.hot100 + 1 else 0

/-- R459: since when the samples have been below 95 °C. -/
def State.coolFrom (s : State) (t : Int) : Option Nat :=
  if t < 1520 then some (s.power.coolSince.getD s.clock) else none

/-- R459: the second sample in a row at or above 100 °C. -/
def State.riskRises (s : State) (t : Int) : Prop := 1600 ≤ t ∧ 1 ≤ s.power.hot100

/-- R459: samples below 95 °C for 10 ms. -/
def State.riskEnds (s : State) (t : Int) : Prop := t < 1520 ∧ s.power.coolSince.getD s.clock + 10 * msPs ≤ s.clock

/-- R459: the sample counted, with the thermal cause of RATE_RISK as it is from here on. -/
def State.withRisk (s : State) (t : Int) (r : Bool) : State :=
  { s with
    pins := { s.pins with riskThermal := r }
    power := { s.power with hot100 := s.hotCount t, coolSince := s.coolFrom t } }

theorem State.two_le_hotCount {s : State} {t : Int} : 2 ≤ s.hotCount t ↔ s.riskRises t := by
  unfold State.hotCount State.riskRises
  split <;> omega

theorem State.coolFrom_over_iff {s : State} {t : Int} :
    ((s.coolFrom t).map fun c => decide (c + 10 * msPs ≤ s.clock)).getD false = true ↔ s.riskEnds t := by
  unfold State.coolFrom State.riskEnds
  by_cases cool : t < 1520
  · rw [if_pos cool, Option.map_some, Option.getD_some, decide_eq_true_iff, and_iff_right cool]
  · rw [if_neg cool, Option.map_none, Option.getD_none]
    exact iff_of_false nofun fun ends => cool ends.1

/-- R459: a reading raises the thermal cause of RATE_RISK, ends it or leaves it as it was; each change forms a record. -/
theorem State.thermalRisk_cases (s : State) (t : Int) :
    (s.riskRises t ∧ s.pins.riskThermal = false ∧
      s.thermalRisk t = (s.withRisk t true).statusPos 0x14 (unsigned 16 t)) ∨
    (s.riskEnds t ∧ s.pins.riskThermal = true ∧
      s.thermalRisk t = (s.withRisk t false).statusPos 0x15 (unsigned 16 t)) ∨
    ((s.riskRises t → s.pins.riskThermal = true) ∧ (s.riskEnds t → s.pins.riskThermal = false) ∧
      s.thermalRisk t = s.withRisk t s.pins.riskThermal) := by
  have branches : s.thermalRisk t =
      if 2 ≤ s.hotCount t ∧ (!s.pins.riskThermal) = true then (s.withRisk t true).statusPos 0x14 (unsigned 16 t)
      else if (s.pins.riskThermal && ((s.coolFrom t).map fun c => decide (c + 10 * msPs ≤ s.clock)).getD false) = true
        then (s.withRisk t false).statusPos 0x15 (unsigned 16 t)
      else s.withRisk t s.pins.riskThermal := rfl
  have first : 2 ≤ s.hotCount t ∧ (!s.pins.riskThermal) = true ↔ s.riskRises t ∧ s.pins.riskThermal = false :=
    and_congr State.two_le_hotCount (Iff.of_eq (Bool.not_eq_true' _))
  have second := (Bool.and_eq_true_iff ..).trans (and_congr (Iff.refl (s.pins.riskThermal = true))
    (State.coolFrom_over_iff (s := s) (t := t)))
  by_cases rises : s.riskRises t ∧ s.pins.riskThermal = false
  · exact .inl ⟨rises.1, rises.2, branches.trans (if_pos (first.mpr rises))⟩
  replace branches := branches.trans (if_neg (mt first.mp rises))
  by_cases ends : s.pins.riskThermal = true ∧ s.riskEnds t
  · exact .inr (.inl ⟨ends.2, ends.1, branches.trans (if_pos (second.mpr ends))⟩)
  refine .inr (.inr ⟨fun hot => ?_, fun cool => ?_, branches.trans (if_neg (mt second.mp ends))⟩)
  · exact Bool.eq_true_of_not_eq_false fun low => rises ⟨hot, low⟩
  · exact Bool.eq_false_iff.mpr fun high => ends ⟨high, cool⟩

/-- R459: the thermal cause of RATE_RISK after a reading, which changes nothing else but the samples and the record. -/
theorem State.thermalRisk_quiet (s : State) (t : Int) :
    ∃ r, Quiet (s.withRisk t r) (s.thermalRisk t) ∧ (s.riskRises t → r = true) ∧ (s.riskEnds t → r = false) ∧
      (¬ s.riskRises t → ¬ s.riskEnds t → r = s.pins.riskThermal) := by
  obtain ⟨rises, low, next⟩ | ⟨ends, high, next⟩ | ⟨rises, ends, next⟩ := s.thermalRisk_cases t
  · refine ⟨true, next ▸ State.statusPos_quiet .., fun _ => rfl, fun ends => ?_, fun cold => absurd rises cold⟩
    have hot := rises.1
    have cool := ends.1
    omega
  · refine ⟨false, next ▸ State.statusPos_quiet .., fun rises => ?_, fun _ => rfl, fun _ on => absurd ends on⟩
    have hot := rises.1
    have cool := ends.1
    omega
  · exact ⟨s.pins.riskThermal, next ▸ Quiet.refl _, rises, ends, fun _ _ => rfl⟩

theorem State.thermalRisk_heat (s : State) (t : Int) : HeatKept s (s.thermalRisk t) := by
  have counted (r : Bool) : HeatKept s (s.withRisk t r) := ⟨rfl⟩
  obtain ⟨_, _, next⟩ | ⟨_, _, next⟩ | ⟨_, _, next⟩ := s.thermalRisk_cases t <;> rw [next]
  · exact (counted true).trans (State.statusPos_heat ..)
  · exact (counted false).trans (State.statusPos_heat ..)
  · exact counted _

/-! ### The thermal stop -/

/-- R348: the markers are inactive from here on; what that discards changes nothing else but records. -/
theorem State.discardFires_quiet (s : State) :
    Quiet { s with markers := { fires := [], inhibited := true } } s.discardFires := by
  have cut (l : List Fire) (s : State) :
      Quiet s (l.foldl (fun s f => s.markRecord 1 f.marker f.target 1 f.tag) s) :=
    Quiet.foldl (fun _ _ => State.markRecord_quiet ..) _ _
  unfold State.discardFires
  exact (cut _ _).ite ((cut _ _).trans (State.markRecord_quiet ..))

/-- R346, R461: the markers are held inactive; from READY on the fires held are recorded. -/
def State.holdMarkers (s : State) : State :=
  if s.sinceReady then s.discardFires else { s with markers := { s.markers with inhibited := true } }

theorem State.holdMarkers_inhibited (s : State) : s.holdMarkers.markers.inhibited = true := by
  unfold State.holdMarkers
  split
  · rw [s.discardFires_quiet.markers]
  · rfl

theorem State.holdMarkers_pins (s : State) : s.holdMarkers.pins = s.pins := by
  unfold State.holdMarkers
  split
  · rw [s.discardFires_quiet.pins]
  · rfl

theorem State.holdMarkers_heat (s : State) : HeatKept s s.holdMarkers := s.discardFires_heat.ite ⟨rfl⟩

/-- R461: the thermal stop counted and recorded, with FAULT_N asserted and the markers held. -/
def State.noteStop (s : State) (why : Nat) : State :=
  (((s.bump 17 1).statusPos 0x18 why).assertFault).holdMarkers

/-- R461: the stopped state, before its votes change. -/
def State.trip (s : State) (why : Nat) : State :=
  { s with
    pins := { s.pins with thermtrip := true }
    adm := { s.adm with dev := .stopped }
    wake := { s.wake with cause := 0x06, detail := why } }

theorem State.noteStop_heat (s : State) (why : Nat) : HeatKept s (s.noteStop why) := by
  have counted : HeatKept s (s.bump 17 1) := ⟨rfl⟩
  have asserted (t : State) : HeatKept t t.assertFault := ⟨rfl⟩
  exact ((counted.trans (State.statusPos_heat ..)).trans (asserted _)).trans (State.holdMarkers_heat _)

/-- R461: every vote but the event domain's is withdrawn. -/
def State.keepEventVote (s : State) : State :=
  (((s.power.votes.filter fun v => v.domain != domEvent).foldl
    (fun s v => s.dropVote v.client v.domain v.retain) s).addVote .admission domEvent false).settle

theorem State.thermalStop_eq (s : State) (why : Nat) : s.thermalStop why = ((s.noteStop why).trip why).keepEventVote := rfl

theorem State.keepEventVote_quiet (s : State) : Quiet s s.keepEventVote := by
  unfold State.keepEventVote
  refine (Quiet.trans ?_ (State.addVote_quiet ..)).trans (State.settle_quiet _)
  exact Quiet.foldl (fun _ _ => State.dropVote_quiet ..) _ _

theorem State.keepEventVote_heat (s : State) : HeatKept s s.keepEventVote := by
  unfold State.keepEventVote
  refine (HeatKept.trans ?_ (State.addVote_heat ..)).trans (State.settle_heat _)
  exact HeatKept.foldl (fun _ _ => State.dropVote_heat ..) _ _

theorem State.thermalStop_quiet (s : State) (why : Nat) : Quiet ((s.noteStop why).trip why) (s.thermalStop why) := by
  rw [State.thermalStop_eq]
  exact State.keepEventVote_quiet _

theorem State.thermalStop_heat (s : State) (why : Nat) : HeatKept s (s.thermalStop why) := by
  have trips : HeatKept (s.noteStop why) ((s.noteStop why).trip why) := ⟨rfl⟩
  rw [State.thermalStop_eq]
  exact ((s.noteStop_heat why).trans trips).trans (State.keepEventVote_heat _)

/-- R461: THERMTRIP_N and FAULT_N are asserted; RATE_RISK is as it was. -/
theorem State.thermalStop_pins (s : State) (why : Nat) :
    (s.thermalStop why).pins = { s.pins with fault := true, thermtrip := true } := by
  rw [(s.thermalStop_quiet why).pins]
  unfold State.trip State.noteStop
  dsimp only
  rw [State.holdMarkers_pins, State.assertFault, (State.statusPos_quiet ..).pins]
  rfl

theorem State.thermalStop_dev (s : State) (why : Nat) : (s.thermalStop why).adm.dev = .stopped := by
  rw [(s.thermalStop_quiet why).adm]
  rfl

theorem State.thermalStop_inhibited (s : State) (why : Nat) : (s.thermalStop why).markers.inhibited = true := by
  rw [(s.thermalStop_quiet why).markers]
  exact State.holdMarkers_inhibited _

/-! ### The sample -/

/-- R459, R486: a reading noted, with what it makes of the thermal cause and of the samples at or above 105 °C. -/
def State.sampled (s : State) (t : Int) : State :=
  { (s.notePeak t).thermalRisk t with power := { ((s.notePeak t).thermalRisk t).power with
    hot105 := if 1680 ≤ t then s.power.hot105 + 1 else 0 } }

/-- R459: what a reading leaves but for the power state and records: the thermal cause of RATE_RISK alone changes. -/
theorem State.sampled_eq (s : State) (t : Int) :
    ∃ r, (s.sampled t).pins = { s.pins with riskThermal := r } ∧ (s.riskRises t → r = true) ∧
      (s.riskEnds t → r = false) ∧ (¬ s.riskRises t → ¬ s.riskEnds t → r = s.pins.riskThermal) := by
  obtain ⟨r, quiet, facts⟩ := (s.notePeak t).thermalRisk_quiet t
  exact ⟨r, quiet.pins, facts⟩

theorem State.sampled_adm (s : State) (t : Int) : (s.sampled t).adm = s.adm := by
  obtain ⟨r, quiet, -⟩ := (s.notePeak t).thermalRisk_quiet t
  exact quiet.adm

theorem State.sampled_pat (s : State) (t : Int) : (s.sampled t).pat = s.pat := by
  obtain ⟨r, quiet, -⟩ := (s.notePeak t).thermalRisk_quiet t
  exact quiet.pat

theorem State.sampled_running (s : State) (t : Int) : (s.sampled t).running = s.running := by
  rw [State.running, State.sampled_adm, State.running]

/-- R459: the reading and the samples at or above 105 °C; how far the degraded switch has come is as it was. -/
theorem State.sampled_heat (s : State) (t : Int) : (s.sampled t).power.heat =
    ⟨t, if 1680 ≤ t then s.power.hot105 + 1 else 0, s.power.degradePending, s.power.degraded⟩ := by
  have kept := (s.notePeak t).thermalRisk_heat t
  simp only [State.sampled, Power.heat, kept.junction, kept.degradePending, kept.degraded]
  rfl

/-- R459, R460: the degraded switch pending; only a record forms beside it. -/
theorem State.startSwitch_quiet (s : State) :
    Quiet { s with power := { s.power with degradePending := true } } s.startSwitch :=
  State.statusPos_quiet ..

theorem State.startSwitch_heat (s : State) :
    s.startSwitch.power.heat = { s.power.heat with degradePending := true } :=
  (State.statusPos_heat { s with power := { s.power with degradePending := true } } 0x16 _).same

/-- R50, R459, R460: at 105 °C a device goes on, starts the switch, or stops. -/
theorem State.overheat_cases (s : State) :
    s.overheat = s ∨ s.overheat = s.startSwitch ∨ s.overheat = s.thermalStop 2 := by
  unfold State.overheat
  split
  · exact .inl rfl
  · split
    · exact .inr (.inl rfl)
    · exact .inr (.inr rfl)

/-- R459, R460: the second sample at or above 105 °C of a device that runs its normal schedule. -/
theorem State.overheat_eq {s : State} (run : s.running = true) (hot : 2 ≤ s.power.hot105)
    (idle : s.power.degradePending = false) (normal : s.power.degraded = false) :
    s.overheat = if s.pat.hasDegraded then s.startSwitch else s.thermalStop 2 :=
  if_neg (by simp [run, not_lt.mpr hot, idle, normal])

theorem State.overheat_junction (s : State) : s.overheat.power.junction = s.power.junction := by
  obtain goes | switches | stops := s.overheat_cases
  · rw [goes]
  · rw [switches]
    exact congrArg Heat.junction s.startSwitch_heat
  · rw [stops, (s.thermalStop_heat 2).junction]

theorem State.overheat_risk (s : State) : s.overheat.pins.riskThermal = s.pins.riskThermal := by
  obtain goes | switches | stops := s.overheat_cases
  · rw [goes]
  · rw [switches, s.startSwitch_quiet.pins]
  · rw [stops, State.thermalStop_pins]

/-- R459 to R461: what the device does about a reading that it has noted. -/
def State.answerHeat (s : State) (t : Int) : State :=
  if s.adm.dev = .stopped then s.settle else if 1840 ≤ t then s.thermalStop 1 else s.overheat.settle

theorem State.answerHeat_junction (s : State) (t : Int) : (s.answerHeat t).power.junction = s.power.junction := by
  unfold State.answerHeat
  split
  · exact s.settle_heat.junction
  split
  · exact (s.thermalStop_heat 1).junction
  · rw [(State.settle_heat _).junction, State.overheat_junction]

theorem State.answerHeat_risk (s : State) (t : Int) : (s.answerHeat t).pins.riskThermal = s.pins.riskThermal := by
  unfold State.answerHeat
  split
  · rw [State.settle_pins]
  split
  · rw [State.thermalStop_pins]
  · rw [State.settle_pins, State.overheat_risk]

/-- R461: from 115 °C on a device that is not stopped stops. -/
theorem State.answerHeat_trip {s : State} {t : Int} (on : s.adm.dev ≠ .stopped) (hot : 1840 ≤ t) :
    s.answerHeat t = s.thermalStop 1 :=
  (if_neg on).trans (if_pos hot)

theorem State.answerHeat_below {s : State} {t : Int} (on : s.adm.dev ≠ .stopped) (below : t < 1840) :
    s.answerHeat t = s.overheat.settle :=
  (if_neg on).trans (if_neg (not_le.mpr below))

/-- Log 73: a stopped device, and below 115 °C one that runs no pattern, does nothing more about a reading. -/
theorem State.answerHeat_rest {s : State} {t : Int} (rest : s.adm.dev = .stopped ∨ (t < 1840 ∧ s.running = false)) :
    s.answerHeat t = s.settle := by
  by_cases stopped : s.adm.dev = .stopped
  · exact if_pos stopped
  · obtain ⟨below, still⟩ := rest.resolve_left stopped
    have goes : s.overheat = s := if_pos (by rw [still]; rfl)
    rw [State.answerHeat_below stopped below, goes]

/-- R459 to R461, log 73: a reading in any state but reset. -/
theorem execTemperatureSample_eq {t : Int} {s : State} (out : s.adm.dev ≠ .inReset) :
    execTemperatureSample t s = .next ((s.sampled t).answerHeat t) := by
  have kept : ((s.notePeak t).thermalRisk t).power.hot105 = s.power.hot105 :=
    ((s.notePeak t).thermalRisk_heat t).hot105
  unfold execTemperatureSample State.answerHeat State.sampled
  rw [when_of_true (bne_iff_ne.mpr out)]
  simp only [kept, beq_iff_eq]

/-- R460: the switch completes once the panels are quiet. -/
theorem execDegradedSwitchComplete_eq {s : State} (run : s.running = true) (pending : s.power.degradePending = true)
    (closed : s.power.pll = false ∨ (s.look.ledger.all (·.degraded)) = true) :
    execDegradedSwitchComplete s = .next
      (let w := s.endNormalSpans
       if !w.power.pll || w.panelsQuiet then w.degrade else w).settle := by
  have ready : (!s.power.pll || s.look.ledger.all (·.degraded)) = true := by
    rwa [Bool.or_eq_true, Bool.not_eq_true']
  exact when_of_true (by rw [run, pending, ready]; rfl)

/-- R459: the thermal cause of RATE_RISK after a sample. -/
theorem State.answered_risk (x : Int) (s : State) : ∃ r, ((s.sampled x).answerHeat x).pins.riskThermal = r ∧
    (s.riskRises x → r = true) ∧ (s.riskEnds x → r = false) ∧
      (¬ s.riskRises x → ¬ s.riskEnds x → r = s.pins.riskThermal) := by
  obtain ⟨r, pins, facts⟩ := s.sampled_eq x
  exact ⟨r, by rw [State.answerHeat_risk, pins], facts⟩

section

variable {x : Int} {s : State}

/-- R461: from 115 °C on a device that is not stopped trips. -/
theorem State.answered_trip (hot : 1840 ≤ x) (on : s.adm.dev ≠ .stopped) :
    (s.sampled x).answerHeat x = (s.sampled x).thermalStop 1 :=
  State.answerHeat_trip (by rwa [State.sampled_adm]) hot

/-- R459, R460: two samples of 105 °C and less than 115 °C in the normal schedule. -/
theorem State.answered_hot (hot : 1680 ≤ x) (below : x < 1840) (run : s.running = true) (second : 1 ≤ s.power.hot105)
    (idle : s.power.degradePending = false) (normal : s.power.degraded = false) :
    (s.sampled x).answerHeat x =
      (if s.pat.hasDegraded then (s.sampled x).startSwitch else (s.sampled x).thermalStop 2).settle := by
  have heat := s.sampled_heat x
  have count : 2 ≤ (s.sampled x).power.hot105 := by
    have counted : (s.sampled x).power.hot105 = s.power.hot105 + 1 := (congrArg Heat.hot105 heat).trans (if_pos hot)
    omega
  have on : (s.sampled x).adm.dev ≠ .stopped := by
    rw [State.sampled_adm, beq_iff_eq.mp run]
    nofun
  rw [State.answerHeat_below on below, State.overheat_eq (by rwa [State.sampled_running]) count
    ((congrArg Heat.degradePending heat).trans idle) ((congrArg Heat.degraded heat).trans normal), State.sampled_pat]

/-- Log 73: a sample that a device only notes. -/
theorem execTemperatureSample_rest (out : s.adm.dev ≠ .inReset)
    (rest : s.adm.dev = .stopped ∨ (x < 1840 ∧ s.running = false)) :
    execTemperatureSample x s = .next (s.sampled x).settle := by
  rw [execTemperatureSample_eq out, State.answerHeat_rest (by rwa [State.sampled_adm, State.sampled_running])]

end

/-- Settles O56: what a sample makes of the thermal cause, the trip, and the start and the end of the degraded switch (R50,
R459 to R461; log 73). -/
theorem temperatureCompletes : Obligations.TemperatureCompletes := by
  unfold Obligations.TemperatureCompletes
  intro x s out
  refine ⟨⟨(s.sampled x).answerHeat x, execTemperatureSample_eq out, ?junction, ?risk⟩, fun rest => ?rest,
    execDegradedSwitchComplete_eq⟩
  case junction => exact (State.answerHeat_junction ..).trans (congrArg Heat.junction (s.sampled_heat x))
  case risk =>
    obtain ⟨r, answer, rises, ends, stays⟩ := State.answered_risk x s
    rw [answer]
    refine ⟨fun hot second => rises ⟨hot, second⟩, fun warm on => ?_, fun cool off => ?_,
      fun c cold since passed => ends ⟨cold, by rwa [since]⟩, fun hot on => ?_,
      fun hot below run second idle normal => ?_⟩
    · by_cases hot : s.riskRises x
      · exact rises hot
      · exact (stays hot fun cold => absurd cold.1 (not_lt.mpr warm)).trans on
    · by_cases cold : s.riskEnds x
      · exact ends cold
      · exact (stays (fun hot => absurd hot.1 (not_le.mpr cool)) cold).trans off
    · rw [State.answered_trip hot on, State.thermalStop_pins]
      exact ⟨rfl, State.thermalStop_dev .., State.thermalStop_inhibited ..⟩
    · rw [State.answered_hot hot below run second idle normal, State.settle_pins, State.settle_adm]
      refine ⟨fun lacks => ?_, fun has => ?_⟩
      · rw [lacks, if_neg nofun, State.thermalStop_pins]
        exact ⟨rfl, State.thermalStop_dev ..⟩
      · rw [has, if_pos rfl, (State.settle_heat _).degradePending, (State.startSwitch_quiet _).adm]
        refine ⟨congrArg Heat.degradePending (State.startSwitch_heat _), ?_⟩
        exact (congrArg Admission.dev (s.sampled_adm x)).trans (beq_iff_eq.mp run)
  case rest => exact execTemperatureSample_rest out rest

end Sys2Proof.Machine


/-! SUPPORT. Burned fuses and the wall timebase over every command, and what the resets leave: a fuse burn and a flash
operation broken off, and all that is neither thimble nor flash at its reset values. -/

namespace Sys2Proof.Machine

/-! ### Fuses and timebase -/

/-- A step is the front command on the state with the queue's rest or, with none waiting, one nanosecond (log 4). -/
theorem step_cases {s t : State} (h : step s = .next t) :
    (∃ c rest, s.pending = c :: rest ∧ exec c { s with pending := rest } = .next t) ∨ (s.pending = [] ∧ t = s.tick) := by
  unfold step at h
  split at h
  next c rest front => exact .inl ⟨c, rest, front, h⟩
  next empty => exact .inr ⟨empty, (Host.Outcome.next.inj h).symm⟩

/-- Settles O5: burned fuses are among what every command keeps, and the passing of time does not touch them (R83). -/
theorem noStepClearsAFuse : Obligations.NoStepClearsAFuse := by
  unfold Obligations.NoStepClearsAFuse
  intro s t h
  obtain ⟨c, rest, -, ran⟩ | ⟨-, rfl⟩ := step_cases h
  · have kept : Based { s with pending := rest } t := (exec_based c _).of_next ran
    exact ⟨kept.flag, kept.key⟩
  · exact ⟨id, fun _ => id⟩

/-- Settles O7: an encoder edge keeps all but the counters, and every other command that does not reset the whole device
keeps the thimble (R69, R463). -/
theorem commandsKeepTheWallTimebase : Obligations.CommandsKeepTheWallTimebase := by
  unfold Obligations.CommandsKeepTheWallTimebase
  intro c s t whole h
  by_cases edge : ∃ d a b, c = .encoderEdge d a b
  · obtain ⟨d, a, b, rfl⟩ := edge
    have kept : Counted s t := execEncoderEdge_counted h
    exact kept.wall
  · exact (exec_thimble whole (fun d a b e => edge ⟨d, a, b, e⟩) h).wall

/-! ### What a reset breaks off -/

/-- R98: t is s but for what a burn or a flash operation cut short may have done (log 41, log 66): the free values taken,
bits of the key digest and the flash's contents. -/
structure CutShort (s t : State) : Prop where
  same : t = { s with
    free := t.free, fuses := { s.fuses with key := t.fuses.key }, flash := { s.flash with mem := t.flash.mem } }

theorem CutShort.refl (s : State) : CutShort s s := ⟨rfl⟩

theorem CutShort.trans {s t u : State} (h : CutShort s t) (k : CutShort t u) : CutShort s u := by
  refine ⟨?_⟩
  rw [k.same, h.same]

theorem CutShort.ite {c : Prop} [Decidable c] {s a b : State} (h : CutShort s a) (k : CutShort s b) :
    CutShort s (if c then a else b) := by
  split
  · exact h
  · exact k

theorem State.cutBurn_cutShort (s : State) : CutShort s s.cutBurn := by
  unfold State.cutBurn
  exact CutShort.ite ⟨rfl⟩ (CutShort.refl s)

theorem State.mayApply_cutShort (s : State) (o : FlashOp) : CutShort s (s.mayApply o) := by
  unfold State.mayApply
  exact CutShort.ite ⟨rfl⟩ ⟨rfl⟩

theorem State.cutOp_cutShort (s : State) : CutShort s s.cutOp := by
  unfold State.cutOp
  cases s.flash.late with
  | none =>
    dsimp only
    split
    · split
      · exact State.mayApply_cutShort ..
      · exact CutShort.refl s
    · exact CutShort.refl s
  | some o =>
    have late := State.mayApply_cutShort s o
    dsimp only
    split
    · split
      · exact late.trans (State.mayApply_cutShort ..)
      · exact late
    · exact late

theorem State.breakOff_cutShort (s : State) : CutShort s s.breakOff :=
  (State.cutBurn_cutShort s).trans (State.cutOp_cutShort _)

section

variable {s t : State} (h : CutShort s t)

include h

theorem CutShort.pending : t.pending = s.pending := by rw [h.same]

theorem CutShort.web : t.web = s.web := by rw [h.same]

theorem CutShort.time : t.time = s.time := by rw [h.same]

theorem CutShort.pins : t.pins = s.pins := by rw [h.same]

theorem CutShort.bolt : t.bolt = s.bolt := by rw [h.same]

theorem CutShort.power : t.power = s.power := by rw [h.same]

theorem CutShort.hold : t.hold = s.hold := by rw [h.same]

/-- Log 66: a burn cut short leaves the seal flag as it was. -/
theorem CutShort.flag : t.fuses.flag = s.fuses.flag := by rw [h.same]

end

/-- With no burn under way none is broken off. -/
theorem State.cutBurn_of_idle {s : State} (idle : s.adm.burning = false) : s.cutBurn = s :=
  if_neg (Bool.eq_false_iff.mp idle)

theorem State.cutBurn_flash (s : State) : s.cutBurn.flash = s.flash := by
  unfold State.cutBurn
  split <;> rfl

/-- With no operation under way none is broken off. -/
theorem State.cutOp_of_idle {s : State} (late : s.flash.late = none) (run : s.flash.run = none) : s.cutOp = s := by
  unfold State.cutOp
  rw [late]
  dsimp only
  rw [run]

/-- R83, R98: only a burn under way can change a fuse. -/
theorem State.breakOff_fuses {s : State} (idle : s.adm.burning = false) : s.breakOff.fuses = s.fuses := by
  rw [State.breakOff, State.cutBurn_of_idle idle]
  exact (State.cutOp_kept s).fuses

/-- R98, R105: only an operation under way can change the flash. -/
theorem State.breakOff_mem {s : State} (late : s.flash.late = none) (run : s.flash.run = none) :
    s.breakOff.flash.mem = s.flash.mem := by
  have flash := s.cutBurn_flash
  rw [State.breakOff, State.cutOp_of_idle (by rw [flash, late]) (by rw [flash, run]), flash]

/-! ### Resets -/

/-- R13, R35, R462: the resets of the whole device differ only in the brown-out latch that they begin with. -/
theorem exec_of_wholeReset {c : Instr} (s : State) (whole : Claims.wholeReset c = true) :
    ∃ w : LastWake, exec c s = .next ({ s with wake := w }).resetAll := by
  cases c with
  | porstAssert => exact ⟨s.wake, rfl⟩
  | vaonInPowerUp => exact ⟨_, rfl⟩
  | brownOut => exact ⟨_, rfl⟩
  | _ => cases whole

/-- R13: a reset of the whole device clears each decoder; its pins keep their levels. -/
theorem State.resetAll_enc (s : State) (d : DecId) :
    s.resetAll.web.enc[d] = { a := s.web.enc[d].a, b := s.web.enc[d].b } := by
  rw [← s.breakOff_cutShort.web]
  exact Vector.getElem_map _ _

/-- R83: with no burn under way a reset of the whole device keeps the fuses. -/
theorem State.resetAll_fuses {s : State} (idle : s.adm.burning = false) : s.resetAll.fuses = s.fuses :=
  State.breakOff_fuses idle

/-- R98: with no operation under way a reset of the whole device keeps the flash. -/
theorem State.resetAll_mem {s : State} (late : s.flash.late = none) (run : s.flash.run = none) :
    s.resetAll.flash.mem = s.flash.mem :=
  State.breakOff_mem late run

/-- Settles O12: each of the three is a reset of the whole device, which takes over no more than the encoder's levels, the
fuses and the flash (R69, R71, R98; log 3, 41, 66). -/
theorem wholeDeviceResetsClearTheThimble : Obligations.WholeDeviceResetsClearTheThimble := by
  unfold Obligations.WholeDeviceResetsClearTheThimble
  intro c s whole
  obtain ⟨w, resets⟩ := exec_of_wholeReset s whole
  refine ⟨_, resets, fun d => ?_, rfl, rfl, rfl, rfl, rfl, rfl, fun idle => State.resetAll_fuses idle,
    fun late run => State.resetAll_mem late run, rfl, rfl, rfl, rfl, rfl, rfl, (State.breakOff_cutShort _).pending⟩
  rw [State.resetAll_enc]
  exact ⟨rfl, rfl, rfl, rfl, rfl, rfl⟩

/-- R69: RST_N resets what is outside the thimble. -/
theorem execRstAssert_eq {s : State} (porst : s.pins.porstN = true) :
    execRstAssert s = .next (({ s with pins := { s.pins with rstN := false } }).resetOutside 2 0) :=
  congrArg _ (if_pos porst)

/-- R70: a supply fault acts as RST_N and notes when it began. -/
theorem execSupplyFault_eq {s : State} (f : Fin 4) (run : s.running = true) :
    execSupplyFault f s = .next (s.holdSupply.resetOutside 3 (f.val + 1)) :=
  (when_of_true (by rw [run]; rfl)).trans (congrArg _ (if_pos run))

/-- R471: the loss of REFCLK acts as a supply fault. -/
theorem execRefclkLoss_eq {s : State} (run : s.running = true) (locked : s.power.locked = true) :
    execRefclkLoss s = .next (s.resetOutside 3 5) :=
  when_of_true (by rw [run, locked]; rfl)

/-- R471: the loss of the HBM PLL's lock acts as a supply fault. -/
theorem execHbmPllLoss_eq {s : State} (run : s.running = true) (on : s.isOn domHbm = true) :
    execHbmPllLoss s = .next (s.resetOutside 3 6) :=
  when_of_true (by rw [run, on]; rfl)

/-- Settles O13: the four equations, and a reset outside the thimble takes over the thimble, the flash and the fuses, which
only an operation broken off can change (R69, R70, R71, R98, R471; log 41, 66). -/
theorem resetPinKeepsTheThimble : Obligations.ResetPinKeepsTheThimble := by
  unfold Obligations.ResetPinKeepsTheThimble
  intro s
  refine ⟨fun porst => ⟨_, execRstAssert_eq porst, rfl, ?pin, rfl⟩,
    fun f run => ⟨_, execSupplyFault_eq f run, ?supply, rfl⟩, execRefclkLoss_eq, execHbmPllLoss_eq,
    fun cause detail => ?kept⟩
  case pin => exact congrArg Pins.rstN (State.breakOff_cutShort _).pins
  case supply => exact congrArg Power.supplyFrom (State.breakOff_cutShort s.holdSupply).power
  case kept =>
    have cut := s.breakOff_cutShort
    exact ⟨fun d => (congrArg (fun w : Web => w.enc[d]) cut.web :), cut.time, (congrArg BoltState.follower cut.bolt :),
      (congrArg Pins.thermtrip cut.pins :), (congrArg HoldUp.k cut.hold :), (congrArg HoldUp.sram cut.hold :), cut.flag,
      State.breakOff_fuses, State.breakOff_mem, rfl, rfl, rfl, rfl, rfl, rfl, rfl, rfl, rfl, rfl⟩

end Sys2Proof.Machine


/-! SUPPORT. The PLL's lock and its timeout, and the tables: an equation per command. -/

namespace Sys2Proof.Machine

/-! ### The PLL -/

/-- R456: the device as its PLL locks; admission moves the control sequencer to it. -/
def State.lockPll (s : State) : State :=
  { s with
    power := { s.power with locked := true }
    control := { s.control with wantPll := s.control.wantPll || s.adm.dev == Device.admitting } }

section

variable {s : State} (on : s.power.pll = true) (unlocked : s.power.locked = false)

include on unlocked

/-- R74, R457: lock starts the core clock, and the control sequencer that waits for it joins the PLL once it runs. -/
theorem execPllLock_eq :
    execPllLock s = .next ((if s.lockPll.startCore.power.clockPending then s.lockPll.startCore
      else s.lockPll.startCore.joinPll).controlEvent 0).settle :=
  when_of_true (by rw [on, unlocked]; rfl)

/-- R457, R466: with VID still to settle the control sequencer goes on waiting. -/
theorem execPllLock_waits (waits : s.lockPll.startCore.power.clockPending = true) :
    execPllLock s = .next (s.lockPll.startCore.controlEvent 0).settle := by
  rw [execPllLock_eq on unlocked, if_pos waits]

/-- R251, R457: lock that starts the core clock moves it to the PLL. -/
theorem execPllLock_joins (runs : s.lockPll.startCore.power.clockPending = false) :
    execPllLock s = .next (s.lockPll.startCore.joinPll.controlEvent 0).settle := by
  rw [execPllLock_eq on unlocked, if_neg (Bool.eq_false_iff.mp runs)]

variable (late : s.power.pllSince + msPs ≤ s.clock)

include late

/-- R74: admission is refused after 1 ms without lock. -/
theorem execPllLockTimeout_admitting (dev : s.adm.dev = .admitting) :
    execPllLockTimeout s = .next (s.refusePlatform 1 0).settle :=
  (when_of_true (by rw [on, unlocked, decide_eq_true late]; rfl)).trans (congrArg _ (if_pos (by rw [dev]; rfl)))

/-- R471: a running device resets as for the loss of REFCLK. -/
theorem execPllLockTimeout_running (dev : s.adm.dev = .running) :
    execPllLockTimeout s = .next (s.resetOutside 3 5) :=
  (when_of_true (by rw [on, unlocked, decide_eq_true late]; rfl)).trans
    (congrArg _ ((if_neg (by rw [dev]; nofun)).trans (if_pos (by rw [State.running, dev]; rfl))))

end

/-- R457, R466: the core clock waits exactly where, from READY on, VID has yet to settle. -/
theorem State.startCore_clockPending_iff (s : State) : s.startCore.power.clockPending = true ↔
    s.sinceReady = true ∧ ¬ (s.pins.vid = s.power.vidTarget ∧ s.power.vidSince + 10 * usPs ≤ s.clock) := by
  unfold State.startCore
  dsimp only
  split
  next runs =>
    simp only [Bool.or_eq_true, Bool.not_eq_true', Bool.and_eq_true, beq_iff_eq, decide_eq_true_eq] at runs
    exact iff_of_false nofun fun ⟨ready, moving⟩ =>
      runs.elim (fun before => absurd ready (Bool.eq_false_iff.mp before)) moving
  next waits =>
    simp only [Bool.or_eq_true, Bool.not_eq_true', Bool.and_eq_true, beq_iff_eq, decide_eq_true_eq, not_or,
      Bool.not_eq_false] at waits
    exact iff_of_true rfl waits

/-- Settles O23: the equations of the lock and of its timeout (R74, R251, R456, R457, R466, R471). -/
theorem pllCompletes : Obligations.PllCompletes := by
  unfold Obligations.PllCompletes
  intro s on unlocked
  exact ⟨⟨execPllLock_waits on unlocked, execPllLock_joins on unlocked, State.startCore_clockPending_iff s.lockPll⟩,
    execPllLockTimeout_admitting on unlocked, execPllLockTimeout_running on unlocked⟩

/-! ### The tables -/

/-- R295: at P_f counting closes and the build begins. -/
theorem execTableFreeze_eq {s : State} {pf : Pos} (run : s.running = true) (counting : s.tables.counting = true)
    (known : s.tables.pf = some pf) (passed : reached s.position pf = true) :
    execTableFreeze s = .next
      (({ s with tables := { s.tables with counting := false, building := true } }).addVotes .build buildDomains
        false).settle :=
  when_of_true (by rw [run, counting, known]; exact passed)

/-- R295: the end of the build freezes the tables. -/
theorem execTableBuildComplete_eq {s : State} (run : s.running = true) (building : s.tables.building = true) :
    execTableBuildComplete s = .next
      (({ s with tables := { s.tables with
        store := s.tables.store.map CodeTable.freeze
        building := false
        keptDefaults := (s.tables.store.map CodeTable.freeze).countP CodeTable.keptDefault } }).dropVotes .build
          buildDomains false).settle :=
  when_of_true (by rw [run, building]; rfl)

/-- R302: a table whose stored bits no longer carry its CRC. -/
def CodeTable.bad (c : CodeTable) : Bool := c.made && (c.damaged || lensCrc c.lens != c.crc)

/-- R302, R418, log 45: the FAULT record of a table by its tensor id, and FAULT_N. -/
def State.reportTable (s : State) (c : CodeTable) : State := (s.detect 5 0 c.tid c.tid).2.assertFault

/-- R302: the check reports every table that the upsets have changed. -/
theorem execTableCrcCheck_eq {s : State} (damaged : List Nat) (run : s.running = true) :
    execTableCrcCheck damaged s = .next
      (((damaged.foldl State.damageTable s).tables.store.filter CodeTable.bad).foldl State.reportTable
        (damaged.foldl State.damageTable s)).settle :=
  when_of_true run

/-- R418: with a table to report FAULT_N ends asserted. -/
theorem foldl_reportTable_fault {l : List CodeTable} (some : l ≠ []) (s : State) :
    (l.foldl State.reportTable s).pins.fault = true := by
  obtain ⟨l, c, rfl⟩ := (List.eq_nil_or_concat l).resolve_left some
  rw [List.concat_eq_append, List.foldl_concat]
  rfl

/-- R90, R183, log 46: the end of the window, which on a cold start switches in what was gathered and commits it. -/
def State.endCalibration (s : State) : State :=
  if s.adm.warm then { s with tables := { s.tables with windowOpen := false } }
  else ({ s with
    tables := { s.tables with windowOpen := false }
    sentinel := { s.sentinel with arrays := s.sentinel.arrays.map CimArray.switchTrims } }).adoptStaged.requestCommit
      .record

/-- R413: the master's calibration sweep is to follow. -/
def State.wantCalibration (s : State) : State :=
  if s.isMaster && s.role != 0 then { s with bolt := { s.bolt with calWanted := true } } else s

/-- R90, R251, R413: the window's end is told to the control program and to the master's calibration sweep. -/
theorem execCalibrationWindowEnd_eq {s : State} (run : s.running = true) (opened : s.tables.windowOpen = true)
    (ended : s.windowOver = true) :
    execCalibrationWindowEnd s = .next ((s.endCalibration.wantCalibration.controlEvent 2).raiseEntry 4).settle := by
  unfold execCalibrationWindowEnd
  rw [when_of_true (by rw [run, opened, ended]; rfl)]
  rfl

/-- Settles O28: the equations of the four commands, and FAULT_N after a check that finds a bad table (R90, R295, R302,
R413; log 44, 45, 46). -/
theorem tablesComplete : Obligations.TablesComplete := by
  unfold Obligations.TablesComplete
  intro s run
  refine ⟨fun pf => execTableFreeze_eq run, execTableBuildComplete_eq run, fun damaged => ?check,
    fun opened ended => ?window⟩
  case check =>
    have checked := execTableCrcCheck_eq damaged run
    refine ⟨checked, fun bad => ⟨_, checked, ?_⟩⟩
    rw [State.settle_pins]
    exact foldl_reportTable_fault bad _
  case window => exact execCalibrationWindowEnd_eq run opened ended

end Sys2Proof.Machine


/-! SUPPORT. The values of the checksums that the spec writes out. A byte step is eight bit steps from the checksum
xored with the byte, so from the zero checksum it shows the polynomial; the check values come from running the nine
byte steps. -/

namespace Sys2Proof.Machine

/-- R7: a value as n bytes has n of them. -/
@[simp] theorem leBytes_length (n v : Nat) : (leBytes n v).length = n := by
  induction n generalizing v with
  | zero => rfl
  | succ n ih => exact congrArg (· + 1) (ih (v / 256))

/-- R336: the response stands unchanged before its CRC. -/
theorem withCrc_take (bs : List Byte) : (withCrc bs).take bs.length = bs := List.take_left

/-- R336: the CRC takes 2 bytes. -/
theorem withCrc_length (bs : List Byte) : (withCrc bs).length = bs.length + 2 := by
  rw [withCrc, List.length_append, leBytes_length]

/-- R107: a byte goes into the low bits and then through eight bit steps. -/
theorem crc32Byte_eq_foldl (c : BitVec 32) (b : Byte) :
    crc32Byte c b = (List.range 8).foldl (fun c _ => crc32Bit c) (c ^^^ b.setWidth 32) := rfl

/-- R336: a byte goes into the high bits and then through eight bit steps. -/
theorem crc16Byte_eq_foldl (c : BitVec 16) (b : Byte) :
    crc16Byte c b = (List.range 8).foldl (fun c _ => crc16Bit c) (c ^^^ (b.setWidth 16 <<< 8)) := rfl

/-- R107: from the zero checksum a byte step is eight bit steps on the byte itself. -/
theorem crc32Byte_zero (b : Byte) :
    crc32Byte 0 b = (List.range 8).foldl (fun c _ => crc32Bit c) (b.setWidth 32) :=
  (crc32Byte_eq_foldl 0 b).trans (congrArg (List.foldl _ · _) BitVec.zero_xor)

/-- R336: from the zero checksum a byte step is eight bit steps on the byte in the high bits. -/
theorem crc16Byte_zero (b : Byte) :
    crc16Byte 0 b = (List.range 8).foldl (fun c _ => crc16Bit c) (b.setWidth 16 <<< 8) :=
  (crc16Byte_eq_foldl 0 b).trans (congrArg (List.foldl _ · _) BitVec.zero_xor)

/-- R107: the initial value and the final xor cancel when no byte comes between them. -/
theorem crc32_nil : crc32 [] = 0x00000000#32 := BitVec.xor_self

/-- R107: the CRC-32 of the ASCII digits 1 to 9. -/
theorem crc32_digits :
    crc32 [0x31#8, 0x32#8, 0x33#8, 0x34#8, 0x35#8, 0x36#8, 0x37#8, 0x38#8, 0x39#8] = 0xCBF43926#32 := by
  simp [crc32, crc32Byte, crc32Bit]

/-- R336: the CRC-16 of the ASCII digits 1 to 9. -/
theorem crc16_digits :
    crc16 [0x31#8, 0x32#8, 0x33#8, 0x34#8, 0x35#8, 0x36#8, 0x37#8, 0x38#8, 0x39#8] = 0x29B1#16 := by
  simp [crc16, crc16Byte, crc16Bit]

/-- Settles O59: the values of the two checksums, and the CRC-16 after its bytes (R107, R336). -/
theorem checksumsHaveTheirValues : Obligations.ChecksumsHaveTheirValues := by
  unfold Obligations.ChecksumsHaveTheirValues
  exact ⟨crc32_nil, crc32_digits, crc32Byte_zero, fun _ => ⟨rfl, crc16_digits, crc16Byte_zero, fun _ => rfl,
    fun bs => ⟨withCrc_take bs, withCrc_length bs⟩⟩⟩

end Sys2Proof.Machine


/-! SUPPORT. Intake's packets: the three short packets and long packets by their checked headers, frames, parts, and the
journalling of closed lines. -/

namespace Sys2Proof.Machine

/-! ### Short packets -/

section

variable {s : State} {c : CsiId} {b : BitVec 32} {h t : Nat} {f : State → BitVec 16 → State}

/-- R141: a packet that the port ignores is counted. -/
theorem execIgnoredPacket_eq (on : s.portOn c = true) : execIgnoredPacket c s = .next (s.countIgnored c) :=
  when_of_true on

/-- R140, R145, R148: the three commands read one packet, each by its data type and effect. -/
theorem exec_of_mem_shortPackets {x : Nat × (CsiId → BitVec 32 → Instr) × (CsiId → State → BitVec 16 → State)}
    (read : x ∈ Claims.shortPackets) (c : CsiId) (b : BitVec 32) (s : State) :
    exec (x.2.1 c b) s = s.takeShort ⟨c, b⟩ x.1 (x.2.2 c) := by
  simp only [Claims.shortPackets, List.mem_cons, List.not_mem_nil, or_false] at read
  obtain rfl | rfl | rfl := read <;> rfl

/-- R140, R141: a short packet of the port's channel and of the type has its effect, and another one is counted as
ignored. -/
theorem State.shortPacket_answers {r : Result} (answer : r = .next (s.shortPacket c t h f)) :
    (headerChannel h = (s.pat.intkPort c.val).vc ∧ headerType h = t →
      r = .next (f s (BitVec.ofNat 16 (headerCount h)))) ∧
    (¬ (headerChannel h = (s.pat.intkPort c.val).vc ∧ headerType h = t) → r = .next (s.countIgnored c)) :=
  ⟨fun mine => answer.trans (congrArg _ (if_pos mine)), fun other => answer.trans (congrArg _ (if_neg other))⟩

/-- R140: a header without an error. -/
theorem State.takeShort_clean (on : s.portOn c = true) (header : checkHeader b = .clean h) :
    s.takeShort ⟨c, b⟩ t f = .next (s.shortPacket c t h f) :=
  (when_of_true on).trans (by rw [header])

/-- R152: a corrected header is counted first. -/
theorem State.takeShort_corrected (on : s.portOn c = true) (header : checkHeader b = .corrected h) :
    s.takeShort ⟨c, b⟩ t f = .next ((s.countCorrected c).shortPacket c t h f) :=
  (when_of_true on).trans (by rw [header])

/-- R150, R152: with a header that cannot be corrected the packet is a damaged part. -/
theorem State.takeShort_uncorrectable (on : s.portOn c = true) (header : checkHeader b = .uncorrectable) :
    s.takeShort ⟨c, b⟩ t f = .next (s.takePart c { cls := .damaged 4 }) :=
  (when_of_true on).trans (by rw [header])

end

/-! ### Frames and line starts -/

section

variable {s : State} {c : CsiId}

/-- R145: the port within the frame that a frame start names; its frame until now is the one before. -/
def State.enterFrame (s : State) (c : CsiId) (n : BitVec 16) : State :=
  s.updCsi c fun p =>
    { p with
      ordinal := if p.waiting then 0 else p.ordinal + 1
      closed := if p.open_ then none else p.closed
      prevNo := if p.waiting then 0 else p.frameNo
      waiting := false, open_ := true, frameNo := n, index := 0, lineStart := none }

/-- R147: the ports are aligned again where the number of a new frame does not fit those of the other ports. -/
def State.checkNumbers (s : State) (c : CsiId) : State := if s.numbersDiffer c then s.realign else s

/-- R145, R146: the first frame after an alignment closes the lines of the frames before it; the port has
none of its own. -/
theorem State.startFrame_fresh (fresh : s.intake.port[c].waiting = true) (n : BitVec 16) :
    s.startFrame c n = (((s.enterFrame c n).closeLines fun l =>
      (s.enterFrame c n).frameAfter l.frame (s.enterFrame c n).intake.port[c].frame).checkNumbers c).settle := by
  unfold State.startFrame
  rw [fresh]
  rfl

/-- R145, R146: a later frame closes the lines of the port's frame until now too, which the port leaves. -/
theorem State.startFrame_next (aligned : s.intake.port[c].waiting = false) (n : BitVec 16) :
    s.startFrame c n = ((((s.enterFrame c n).closeLines fun l =>
      (s.enterFrame c n).sameFrame l.frame s.intake.port[c].frame ||
        (s.enterFrame c n).frameAfter l.frame (s.enterFrame c n).intake.port[c].frame).leaveFrames c
      s.intake.port[c].frame (s.enterFrame c n).intake.port[c].frame).checkNumbers c).settle := by
  unfold State.startFrame
  rw [aligned]
  rfl

/-- R145: a port that receives takes lines when it is aligned and within a frame. -/
theorem State.portTakes_of (on : s.portOn c = true) (opened : s.intake.port[c].open_ = true)
    (aligned : s.intake.port[c].waiting = false) : s.portTakes c = true := by
  rw [State.portTakes, on, opened, aligned]
  rfl

/-- R145, R147: the port outside its frame, whose line count it keeps. -/
def State.leaveFrame (s : State) (c : CsiId) : State :=
  s.updCsi c fun p =>
    { p with open_ := false, closed := some (p.frameNo.toNat, p.ordinal, p.index), lineStart := none }

/-- R147: the ports are aligned again where another closed the frame with another line count. -/
def State.checkCounts (s : State) (c : CsiId) : State := if s.countsDiffer c then s.realign else s

/-- R145, R147: a frame end closes the port's frame. -/
theorem State.endFrame_taken (takes : s.portTakes c = true) :
    s.endFrame c = ((s.leaveFrame c).checkCounts c).settle := by
  rw [State.endFrame, if_neg (by rw [takes]; decide)]
  rfl

/-- R145, R147: outside a frame no frame end has an effect. -/
theorem State.endFrame_outside (outside : s.portTakes c = false) : s.endFrame c = s := by
  rw [State.endFrame, outside]
  rfl

/-- R20, R148: a line start stamps the port's next line. -/
theorem State.lineStarts_taken (takes : s.portTakes c = true) :
    s.lineStarts c = s.takeStamp.2.updCsi c fun p => { p with lineStart := some s.takeStamp.1 } := by
  unfold State.lineStarts
  rw [takes]
  rfl

/-- R145, R147: outside a frame no line start has an effect. -/
theorem State.lineStarts_outside (outside : s.portTakes c = false) : s.lineStarts c = s := by
  rw [State.lineStarts, outside]
  rfl

end

/-- Settles O25: short packets by their headers, and what each of the three does (R140, R141, R145, R147, R148, R152;
log 37, 132). -/
theorem shortPacketsComplete : Obligations.ShortPacketsComplete := by
  unfold Obligations.ShortPacketsComplete
  intro c s on
  refine ⟨execIgnoredPacket_eq on, fun x read b h => ?headers, fun n => ⟨fun fresh => State.startFrame_fresh fresh n,
    fun aligned => State.startFrame_next aligned n⟩, fun opened aligned => State.endFrame_taken
      (State.portTakes_of on opened aligned), State.lineStarts_taken, fun outside =>
        ⟨State.endFrame_outside outside, State.lineStarts_outside outside⟩⟩
  case headers =>
    rw [exec_of_mem_shortPackets read]
    exact ⟨fun clean => State.shortPacket_answers (State.takeShort_clean on clean),
      fun corrected => State.shortPacket_answers (State.takeShort_corrected on corrected),
      State.takeShort_uncorrectable on⟩

/-! ### Long packets and parts -/

section

variable {s : State} {c : CsiId} {k : LongPacket} {h : Nat}

/-- R140, R141, R150: a long packet of the port's channel and type is the part that its word count, payload and check
make, and another one is counted as ignored. -/
theorem State.takePacket_answers {r : Result} (answer : r = .next (s.takePacket c k h)) :
    ((s.pat.intkPort c.val).takes h = true → r = .next (s.takePart c
      (classify s.pat.bits (s.pat.intkPort c.val).pixels (headerCount h) k.payload (payloadOk k h)))) ∧
    ((s.pat.intkPort c.val).takes h = false → r = .next (s.countIgnored c)) :=
  ⟨fun mine => answer.trans (congrArg _ (if_pos mine)),
    fun other => answer.trans (congrArg _ (if_neg (Bool.eq_false_iff.mp other)))⟩

/-- R262: the upsets that strike the commons as the packet comes. -/
def State.commonsUpsets (s : State) (u : List Upset) : State := s.upsets 0 (u.filter (·.store == .commons))

/-- Upsets leave the pattern. -/
theorem State.commonsUpsets_pat (s : State) (u : List Upset) : (s.commonsUpsets u).pat = s.pat :=
  (State.upsets_kept ..).pat

variable {u : List Upset}

/-- R140: a header without an error. -/
theorem execLongPacket_clean (on : s.portOn c = true) (header : checkHeader k.header = .clean h) :
    execLongPacket c k u s = .next ((s.commonsUpsets u).takePacket c k h) :=
  (when_of_true on).trans (by rw [header]; rfl)

/-- R152: a corrected header is counted first. -/
theorem execLongPacket_corrected (on : s.portOn c = true) (header : checkHeader k.header = .corrected h) :
    execLongPacket c k u s = .next (((s.commonsUpsets u).countCorrected c).takePacket c k h) :=
  (when_of_true on).trans (by rw [header]; rfl)

/-- R150, R152: with a header that cannot be corrected the packet is a damaged part. -/
theorem execLongPacket_uncorrectable (on : s.portOn c = true) (header : checkHeader k.header = .uncorrectable) :
    execLongPacket c k u s = .next ((s.commonsUpsets u).takePart c { cls := .damaged 4 }) :=
  (when_of_true on).trans (by rw [header]; rfl)

/-- R148: taking a stamp leaves the pattern. -/
theorem State.partStamp_pat (s : State) (c : CsiId) : (s.partStamp c).2.pat = s.pat := (State.partStamp_kept s c).pat

/-- R148, R150: a part takes the port's next place, with what it lacks counted. -/
theorem State.takePart_taken (takes : s.portTakes c = true) (x : Part) :
    s.takePart c x =
      (((s.partStamp c).2.updCsi c fun q =>
        { q with
          index := q.index + 1, lineStart := none
          omitted := satAdd 32 q.omitted (bit ((s.pat.intkPort c.val).lineStart && s.intake.port[c].lineStart.isNone))
          damaged := satAdd 32 q.damaged (bit x.cls.damagedCause.isSome) }).deliverPart c s.intake.port[c].index (some x)
            (s.partStamp c).1 false).settle := by
  rw [State.takePart, if_neg (by rw [takes]; decide), ← State.partStamp_pat s c]

/-- R145, R147: outside a frame no part is taken. -/
theorem State.takePart_outside (outside : s.portTakes c = false) (x : Part) : s.takePart c x = s := by
  rw [State.takePart, outside]
  rfl

/-- R471: the burst lost with its clock takes the port's next place too, and its line closes. -/
theorem execCsiClockLoss_eq (takes : s.portTakes c = true) :
    execCsiClockLoss c s = .next
      ((((s.partStamp c).2.updCsi c fun p => { p with index := p.index + 1, lineStart := none }).deliverPart c
        s.intake.port[c].index none (s.partStamp c).1 true).settle) := when_of_true takes

end

/-! ### Closing and journalling -/

section

variable {s : State}

/-- R146: the timeout closes the oldest line in assembly. -/
theorem execLineAssemblyTimeout_eq {l : AsmLine} {rest : List AsmLine} (oldest : s.intake.asm = l :: rest)
    (late : 4 * 10 ^ 12 ≤ (s.clock - l.firstAt) * s.pat.dlin.lMax) :
    execLineAssemblyTimeout s = .next (s.closeLine l).settle := by
  unfold execLineAssemblyTimeout
  rw [oldest]
  exact when_of_true (decide_eq_true late)

/-- R162: the oldest closed line is taken, and the line in its place in the bobbin is given up. -/
def State.makeRoom (s : State) (l : BobLine) (rest : List BobLine) : State :=
  { s with intake := { s.intake with done := rest } }.overwrite l.seq

/-- R161, R165: the descriptor of a line that comes into the bobbin now. -/
def State.journaled (s : State) (l : BobLine) : BobLine :=
  { l with flags := s.journalFlags l, atClock := s.clock, seen := s.sentinelScreens }

/-- R161, R162, R164, R404: the oldest closed line comes into the bobbin, goes to the halo sides, and is taken in
sequence. -/
theorem execLineJournaled_eq {l : BobLine} {rest : List BobLine} (oldest : s.intake.done = l :: rest)
    (run : s.running = true) :
    execLineJournaled s = .next (([0, 1].foldl (fun (t : State) (side : Fin 2) => t.expectHalo side l.seq)
      (((s.makeRoom l rest).putLine ((s.makeRoom l rest).journaled l)).sendHalos
        ((s.makeRoom l rest).journaled l))).feedInOrder).settle := by
  unfold execLineJournaled
  rw [oldest]
  exact when_of_true run

end

/-- Settles O26: long packets by their headers, the place of a part, and how lines close and come into the bobbin (R140,
R141, R146, R148, R150, R161, R162, R164, R471). -/
theorem linePartsComplete : Obligations.LinePartsComplete := by
  unfold Obligations.LinePartsComplete
  intro s
  refine ⟨fun c k u on => ?packets, fun c x => ⟨fun takes => State.takePart_taken takes x,
    fun outside => State.takePart_outside outside x⟩, fun _ => execCsiClockLoss_eq,
    fun _ _ => execLineAssemblyTimeout_eq, fun l rest oldest run =>
      ⟨s.makeRoom l rest, rfl, execLineJournaled_eq oldest run⟩⟩
  case packets =>
    rw [← State.commonsUpsets_pat s u]
    exact ⟨fun h clean => State.takePacket_answers (execLongPacket_clean on clean),
      fun h corrected => State.takePacket_answers (execLongPacket_corrected on corrected),
      execLongPacket_uncorrectable on⟩

end Sys2Proof.Machine


/-! SUPPORT. The sentinel in operation: the screening of swaths, the drift tracker and the watch. The reports of the drift
tracker change no more of an array than what is noted as reported. -/

namespace Sys2Proof.Machine

/-! ### Swaths -/

section

variable {s : State}

/-- R186, R303: the next swath is screened whole and passed, and forms its windows unless it is muted. -/
theorem execSwathScreened_eq {k : Nat} {ls : List BobLine} (next : s.nextSwath = some (k, ls))
    (screens : s.sentinelScreens = true) :
    execSwathScreened s = .next (if swathMuted ls then
        (((s.screenSwath ls).2.swathSweep k).markScreened k).passSwath k
      else ((((s.screenSwath ls).2.swathSweep k).markScreened k).passSwath k).formWindows k ls
        (s.screenSwath ls).1).settle := by
  unfold execSwathScreened
  rw [next]
  exact when_of_true screens

end

/-! ### The drift tracker -/

/-- R184: an array without the notes of what has been reported of it. -/
def CimArray.unreported (a : CimArray) : CimArray := { a with reported := false, outOfTrim := false }

@[simp] theorem CimArray.unreported_full (a : CimArray) : a.unreported.full = a.full := rfl

@[simp] theorem CimArray.unreported_dO (a : CimArray) : a.unreported.dO = a.dO := rfl

@[simp] theorem CimArray.unreported_dG (a : CimArray) : a.unreported.dG = a.dG := rfl

/-- R184: from s to t no array but x changes, and that one in the notes of its reports only. -/
structure ReportedOn (x : ArrayId) (s t : State) : Prop where
  array : t.sentinel.arrays[x].unreported = s.sentinel.arrays[x].unreported
  others : ∀ y : ArrayId, y ≠ x → t.sentinel.arrays[y] = s.sentinel.arrays[y]

section

variable {x : ArrayId} {s t u : State}

theorem ReportedOn.trans (h : ReportedOn x s t) (k : ReportedOn x t u) : ReportedOn x s u :=
  ⟨k.array.trans h.array, fun y ne => (k.others y ne).trans (h.others y ne)⟩

theorem ReportedOn.of_sentinel (same : t.sentinel = s.sentinel) : ReportedOn x s t := by
  constructor
  · rw [same]
  · intro y _
    rw [same]

theorem ReportedOn.refl (x : ArrayId) (s : State) : ReportedOn x s s := .of_sentinel rfl

theorem ReportedOn.full (h : ReportedOn x s t) : t.sentinel.arrays[x].full = s.sentinel.arrays[x].full := by
  simpa using congrArg CimArray.full h.array

theorem ReportedOn.dO (h : ReportedOn x s t) : t.sentinel.arrays[x].dO = s.sentinel.arrays[x].dO := by
  simpa using congrArg CimArray.dO h.array

theorem ReportedOn.dG (h : ReportedOn x s t) : t.sentinel.arrays[x].dG = s.sentinel.arrays[x].dG := by
  simpa using congrArg CimArray.dG h.array

theorem State.updArray_same (s : State) (x : ArrayId) (f : CimArray → CimArray) :
    (s.updArray x f).sentinel.arrays[x] = f s.sentinel.arrays[x] := by
  rw [State.updArray_arrays, Vector.upd_same]

theorem State.updArray_other {y : ArrayId} (s : State) (f : CimArray → CimArray) (ne : y ≠ x) :
    (s.updArray x f).sentinel.arrays[y] = s.sentinel.arrays[y] := by
  rw [State.updArray_arrays, Vector.upd_other _ _ _ _ ne]

/-- R184: noting a report on an array. -/
theorem State.updArray_reportedOn (s : State) (x : ArrayId) {f : CimArray → CimArray}
    (notes : ∀ a, (f a).unreported = a.unreported) : ReportedOn x s (s.updArray x f) :=
  ⟨by rw [State.updArray_same, notes], fun _ ne => State.updArray_other s f ne⟩

/-- R62, R184: an array out of trim is reported once. -/
theorem State.outOfTrim_reportedOn (s : State) (x : ArrayId) (column : Nat) :
    ReportedOn x s (s.outOfTrim x column) := by
  unfold State.outOfTrim
  split
  case isTrue => exact .refl x s
  case isFalse =>
    refine .trans ?_ (.of_sentinel (State.assertFault_sentinel _))
    refine .trans ?_ (.of_sentinel (State.faultRecord_quiet ..).sentinel)
    exact State.updArray_reportedOn s x fun _ => rfl

/-- R184: the STATUS record of an array that has begun to drift, and the note that one has come back. -/
def State.reportDrift (s : State) (x : ArrayId) : State :=
  let a := s.sentinel.arrays[x]
  if a.drifting && !a.reported then
    (s.updArray x fun a => { a with reported := true }).status 8 x.val
      (bodyAt 0x10 32 (unsigned 32 a.dO) ||| bodyAt 0x14 32 (unsigned 32 a.dG))
  else if a.settled then s.updArray x fun a => { a with reported := false }
  else s

theorem State.reportDrift_reportedOn (s : State) (x : ArrayId) : ReportedOn x s (s.reportDrift x) := by
  unfold State.reportDrift
  dsimp only
  split
  case isTrue =>
    refine .trans ?_ (.of_sentinel (State.status_quiet ..).sentinel)
    exact State.updArray_reportedOn s x fun _ => rfl
  case isFalse =>
    split
    case isTrue => exact State.updArray_reportedOn s x fun _ => rfl
    case isFalse => exact .refl x s

/-- R183: the array's oldest complete block is taken into its tracker. -/
def State.applyBlock (s : State) (x : ArrayId) (b : DriftBlock) (rest : List DriftBlock) : State :=
  s.updArray x fun a => { a.track (arrayCols x) b with full := rest }

/-- R183, R184: a complete block is applied, and what follows are reports on its array. -/
theorem execDriftTrackerBlock_next {b : DriftBlock} {rest : List DriftBlock}
    (oldest : s.sentinel.arrays[x].full = b :: rest) :
    ∃ t, execDriftTrackerBlock x s = .next t ∧ ReportedOn x (s.applyBlock x b rest) t := by
  unfold execDriftTrackerBlock
  rw [oldest]
  refine ⟨_, rfl, .trans ?_ (.of_sentinel (State.settle_sentinel _))⟩
  have drift := (s.applyBlock x b rest).reportDrift_reportedOn x
  split
  · exact drift.trans (State.outOfTrim_reportedOn ..)
  · exact drift

end

/-! ### The watch -/

section

variable {s : State} {c : CsiId}

/-- R192: the tick of the wall timebase is taken. -/
def State.takeWatchTick (s : State) : State :=
  { s with sentinel := { s.sentinel with watchTick := s.time.wall / (10 * msPs) } }

/-- R187 to R192: the confidences of the watch line, repeated to 16 lines. -/
def State.watchConfidences (s : State) (c : CsiId) (pixels : List Nat) : List Int × State :=
  s.confidences (s.watchLine c pixels).length (List.replicate 16 (s.watchLine c pixels))

/-- R192: the first patch at or above the threshold. -/
def State.firstBasted (s : State) (confs : List Int) : Option Nat :=
  confs.findIdx? fun l => decide (s.sentinel.threshold ≤ l)

/-- R192, R417: the state after the checked coefficients have corrected the line, with its confidences. -/
def State.watchScreened (s : State) (c : CsiId) (pixels : List Nat) : List Int × State :=
  (s.checkFlat s.intake.coefBank).watchConfidences c pixels

/-- R192: the device wakes for the patch that reached the threshold, if one did (log 136). -/
def State.wakeForPatch (s : State) : Option Nat → State
  | some p => s.watchWake (s.wakeMacro p)
  | none => s

/-- R192: the first patch at or above the threshold is the one that wakes. -/
theorem State.screenWatch_eq (s : State) (c : CsiId) (pixels : List Nat) :
    s.screenWatch c pixels = (s.watchScreened c pixels).2.wakeForPatch
      ((s.watchScreened c pixels).2.firstBasted (s.watchScreened c pixels).1) := rfl

/-- R192: in watch, a tick that is due is taken with the line that follows it. -/
theorem execWatchTick_due (port : s.watchPort = some c) (watch : s.watching = true)
    (due : s.sentinel.watchTick < s.time.wall / (10 * msPs)) (pixels : List Nat) :
    execWatchTick pixels s = .next
      (if pixels.isEmpty then s.takeWatchTick else s.takeWatchTick.screenWatch c pixels).settle := by
  unfold execWatchTick
  rw [port]
  exact when_of_true (by rw [watch, decide_eq_true due]; rfl)

end

/-- Settles O27: what a swath, a drift block and a watch tick come to (R183, R186, R189, R192, R303, R305; log 135, 136,
137). -/
theorem sentinelCompletes : Obligations.SentinelCompletes := by
  unfold Obligations.SentinelCompletes
  refine fun s => ⟨fun k ls => execSwathScreened_eq, fun x b rest oldest => ?block, fun c pixels port watch due => ?watch⟩
  case block =>
    obtain ⟨t, next, reported⟩ := execDriftTrackerBlock_next oldest
    have applied : (s.applyBlock x b rest).sentinel.arrays[x] =
        { s.sentinel.arrays[x].track (arrayCols x) b with full := rest } := State.updArray_same ..
    refine ⟨t, next, ?_, ?_, ?_, fun y ne => (reported.others y ne).trans (State.updArray_other _ _ ne)⟩
    · rw [reported.full, applied]
    · rw [reported.dO, applied]
    · rw [reported.dG, applied]
  case watch =>
    have taken := execWatchTick_due port watch due pixels
    cases pixels with
    | nil => exact ⟨fun _ => taken, fun nonempty => absurd rfl nonempty⟩
    | cons p rest =>
      refine ⟨fun empty => absurd empty (List.cons_ne_nil p rest), fun _ => taken.trans ?_⟩
      rw [if_neg (by simp), State.screenWatch_eq]
      -- the statement writes `wakeForPatch` and `wakeMacro` out
      rfl

end Sys2Proof.Machine


/-! SUPPORT. The canonical form of the stores over every step, and the vector instructions: what one that issues writes,
and the shape of each opcode. -/

namespace Sys2Proof.Machine

/-! ### The stores -/

/-- What keeps each store in canonical form keeps the device in it. -/
theorem Based.memWf {s t : State} (kept : Based s t) (wf : s.memWf) : t.memWf := by
  obtain ⟨flash, hbm, commons, panels⟩ := wf
  exact ⟨kept.flash flash, kept.hbm hbm, kept.commons commons, kept.panels panels⟩

/-- Log 4: the passing of time touches no store. -/
@[simp] theorem State.memWf_tick (s : State) : s.tick.memWf ↔ s.memWf := Iff.rfl

/-- Taking a command from the queue touches no store. -/
@[simp] theorem State.memWf_pending (s : State) (rest : List Instr) :
    { s with pending := rest }.memWf ↔ s.memWf := Iff.rfl

/-- Settles O4: every command keeps each store in canonical form, and the passing of time touches none (log 2, 3, 4). -/
theorem everyStepKeepsTheStoresCanonical : Obligations.EveryStepKeepsTheStoresCanonical := by
  unfold Obligations.EveryStepKeepsTheStoresCanonical
  intro s t wf h
  obtain ⟨c, rest, -, ran⟩ | ⟨-, rfl⟩ := step_cases h
  · have kept : Based { s with pending := rest } t := (exec_based c _).of_next ran
    exact kept.memWf ((State.memWf_pending s rest).mpr wf)
  · exact (State.memWf_tick s).mpr wf

/-! ### Vector instructions that issue -/

section

variable {p : PanelId} {u : List Upset} {s s' : State} {t op d a b away cls imm : Nat}

/-- R225, R252, R254: an instruction that issues has the effect that its command gives it, at its issue cycle. -/
theorem panelStep_of_issues {ins : Stitch} {effect : Stitch → Option (Nat → State → State)} {g : Nat → State → State}
    (issues : Claims.Issues s p u ins t s') (means : effect ins = some g) :
    panelStep p u s effect = .next (Claims.issued p (g t s')) := by
  obtain ⟨fetched, inside, issue⟩ := issues
  unfold panelStep
  rw [fetched]
  dsimp only
  rw [means]
  dsimp only
  rw [if_pos inside, issue]
  rfl

/-- R216, R236: a vector instruction of its command's opcode that issues writes its values to D. -/
theorem vectorStep_of_issues (issues : Claims.Issues s p u (.vector op d a b away cls imm) t s')
    (g : Nat → Nat → Nat → Bool → Nat → F32 → State → List Num × State) :
    vectorStep op p u s g = .next (Claims.issued p
      ((g d a b (away == 1) cls (Claims.bfloat imm) s').2.writeValues p d (away == 1)
        (g d a b (away == 1) cls (Claims.bfloat imm) s').1)) := by
  unfold vectorStep
  rw [panelStep_of_issues issues (if_pos rfl)]
  rfl

end

/-! ### The opcodes of a shape -/

section

variable (p : PanelId) (u : List Upset) (s : State)

/-- R217: the commands of two operands, by their table. -/
theorem exec_binaryOps : ∀ x ∈ Claims.binaryOps, exec (x.2.1 p u) s = vector2 x.1 x.2.2.1 x.2.2.2 p u s := by
  simp only [Claims.binaryOps, List.forall_mem_cons]
  exact ⟨rfl, rfl, rfl, rfl, rfl, nofun⟩

/-- R217: the commands of one operand with an integer meaning; none takes the immediate. -/
theorem exec_unaryOps :
    ∀ x ∈ Claims.unaryOps, exec (x.2.1 p u) s = vector1 x.1 x.2.2.1 (fun _ => x.2.2.2) p u s := by
  simp only [Claims.unaryOps, List.forall_mem_cons]
  exact ⟨rfl, rfl, nofun⟩

/-- R219, R220: the commands of one FP32 operand. -/
theorem exec_functionOps : ∀ x ∈ Claims.functionOps, exec (x.2.1 p u) s = float1 x.1 x.2.2 p u s := by
  simp only [Claims.functionOps, List.forall_mem_cons]
  exact ⟨rfl, rfl, rfl, rfl, rfl, rfl, rfl, rfl, rfl, rfl, rfl, nofun⟩

end

/-- Settles O32: each table's commands are of one shape, and an instruction that issues writes what its shape makes of the
operands read in their order (R213, R217, R219, R220; log 31, 145). -/
theorem elementwiseInstructionsComplete : Obligations.ElementwiseInstructionsComplete := by
  unfold Obligations.ElementwiseInstructionsComplete
  intro p u s s' t
  dsimp only
  refine ⟨fun x mem d a b away cls imm issues => ?binary, fun x mem d a b away cls imm issues => ?unary,
    fun d a b away cls imm issues => ?vcvt, fun x mem d a b away cls imm issues => ?function,
    fun d a b away cls imm issues => ?vdiv, fun d a b away cls imm issues => ?vleaky⟩
  case binary => exact (exec_binaryOps p u s x mem).trans (vectorStep_of_issues issues _)
  case unary => exact (exec_unaryOps p u s x mem).trans (vectorStep_of_issues issues _)
  case function => exact (exec_functionOps p u s x mem).trans (vectorStep_of_issues issues _)
  -- each ascription names the command's definition, which is its arm of `exec`
  case vcvt => exact (vectorStep_of_issues issues _ : execVcvt p u s = _)
  case vdiv => exact (vectorStep_of_issues issues _ : execVdiv p u s = _)
  case vleaky => exact (vectorStep_of_issues issues _ : execVleaky p u s = _)

/-- Settles O33: each command is a vector instruction, whose values are those that the statement writes out once the
operands are read (R218, R221, R222, R223; log 24, 26, 146). -/
theorem tableAndRowInstructionsComplete : Obligations.TableAndRowInstructionsComplete := by
  unfold Obligations.TableAndRowInstructionsComplete
  intro p u s s' t d a b away cls imm
  dsimp only
  refine ⟨fun issues => ?vreq, fun issues => ?vlut, fun issues => ?vsumr, fun issues => ?vmaxr,
    fun issues => ?vsmax, fun issues => ?vnorm⟩
  case vreq => exact (vectorStep_of_issues issues _ : execVreq p u s = _)
  case vlut => exact (vectorStep_of_issues issues _ : execVlut p u s = _)
  case vsumr => exact (vectorStep_of_issues issues _ : execVsumr p u s = _)
  case vmaxr => exact (vectorStep_of_issues issues _ : execVmaxr p u s = _)
  case vsmax => exact (vectorStep_of_issues issues _ : execVsmax p u s = _)
  case vnorm => exact (vectorStep_of_issues issues _ : execVnorm p u s = _)

end Sys2Proof.Machine


/-! SUPPORT. The stitch programs: the moves and matrices of a panel that issues, what ends by itself in the commons and in
HBM, the control instructions of both kinds of sequencer, and the slots and spans of a group. -/

namespace Sys2Proof.Machine

/-! ### One panel or the control sequencer changed -/

/-- A panel's update depends on that panel alone. -/
theorem State.updPanel_congr {s : State} {p : PanelId} {f g : Panel → Panel} (same : f s.panels[p] = g s.panels[p]) :
    s.updPanel p f = s.updPanel p g := by
  unfold State.updPanel Vector.upd
  exact congrArg (fun x => { s with panels := s.panels.set p.val x p.isLt }) same

/-- The control sequencer's update depends on that sequencer alone. -/
theorem State.updControl_congr {s : State} {f g : Sequencer → Sequencer} (same : f s.control.seq = g s.control.seq) :
    s.updControl f = s.updControl g := by
  unfold State.updControl
  rw [same]

/-! ### An instruction that waits (log 16) -/

/-- R225: a panel whose fetched instruction has no effect under a command is left as it was. -/
theorem panelStep_of_no_effect {p : PanelId} {u : List Upset} {s : State}
    {effect : Stitch → Option (Nat → State → State)} (means : ∀ ins, s.fetchPanel p = some ins → effect ins = none) :
    panelStep p u s effect = .next s := by
  unfold panelStep
  cases fetched : s.fetchPanel p with
  | none => rfl
  | some ins =>
    dsimp only
    rw [means ins fetched]

/-- R251: the control sequencer whose fetched instruction has no effect under a command is left as it was. -/
theorem controlIssue_of_no_effect {s : State} {effect : Stitch → Option (State → State)} {ins : Stitch}
    (fetched : s.fetchControl = some ins) (means : effect ins = none) : controlIssue s effect = .next s := by
  unfold controlIssue
  simp only [fetched, means]

/-! ### Moves of a panel -/

section

variable {p : PanelId} {u : List Upset} {s s' : State} {t : Nat}

/-- R228, R229: LOADT loads its tile. -/
theorem execLoadt_of_issues {a d tg x off : Nat} (issues : Claims.Issues s p u (.loadt a d tg x off) t s') :
    execLoadt p u s = .next (Claims.issued p (s'.loadTile p a d tg x off)) := by
  unfold execLoadt
  rw [panelStep_of_issues issues rfl]

/-- R228: STORET encodes to a fixed-rate destination and copies to any other. -/
theorem execStoret_of_issues {a d : Nat} (issues : Claims.Issues s p u (.storet a d) t s') :
    execStoret p u s = .next (Claims.issued p
      (if (s'.pat.tile a).form = 0 ∧ (s'.pat.tile d).form = 1 then
        (s'.readTile p a).2.encodeTile p d (s'.readTile p a).1
      else s'.loadTile p a d 0 0 0)) := by
  unfold execStoret
  rw [panelStep_of_issues issues rfl]

/-- R230: STREAMW streams its tile while HBM is on. -/
theorem execStreamw_of_issues {a d tg x off : Nat} (on : s.isOn domHbm = true)
    (issues : Claims.Issues s p u (.streamw a d tg x off) t s') :
    execStreamw p u s = .next (Claims.issued p (s'.streamTile p t a d tg x off)) := by
  unfold execStreamw
  rw [panelStep_of_issues issues (if_pos on)]

/-- R272: STREAMW waits while HBM is not on. -/
theorem execStreamw_of_hbm_off (off : s.isOn domHbm = false) : execStreamw p u s = .next s := by
  refine panelStep_of_no_effect fun ins _ => ?_
  split
  · exact if_neg (Bool.eq_false_iff.mp off)
  · rfl

/-- R231: PIN takes free stream lines for its range, unless the range is pinned already or too few lines are free. -/
theorem execPin_of_issues {a : Nat} (issues : Claims.Issues s p [] (.pin a) t s') :
    let r := (s'.pat.tile a).range s'.panels[p].seq.loops
    let n := ceilDiv (r.2 - r.1) 4096
    execPin p s = .next (Claims.issued p
      (if (s'.pinOf r.1 r.2).isSome = true ∨ (s'.freeLines.take n).length < n then s'
      else { s' with commons := { s'.commons with
        pins := s'.commons.pins ++ [{ lo := r.1, hi := r.2, lines := s'.freeLines.take n, panel := p.val }] } })) := by
  unfold execPin
  dsimp only
  rw [panelStep_of_issues issues rfl]

/-- R231: FREE releases the range of its tile. -/
theorem execFree_of_issues {a : Nat} (issues : Claims.Issues s p [] (.free a) t s') :
    let r := (s'.pat.tile a).range s'.panels[p].seq.loops
    execFree p s = .next (Claims.issued p (s'.release r.1 r.2)) := by
  unfold execFree
  dsimp only
  rw [panelStep_of_issues issues rfl]

/-- R239: COMBINE contributes its tile to a tree. -/
theorem execCombine_of_issues {a d i g tr : Nat} (issues : Claims.Issues s p u (.combine a d i g tr) t s') :
    execCombine p u s = .next (Claims.issued p (s'.combineTile p t a d i g tr)) := by
  unfold execCombine
  rw [panelStep_of_issues issues rfl]

end

/-- Settles O29: each move has its effect at its issue cycle, the two cases of STORET and of PIN told apart, and a STREAMW
waits while HBM is not on (R228, R230, R231, R239, R272). -/
theorem panelMovesComplete : Obligations.PanelMovesComplete := by
  unfold Obligations.PanelMovesComplete
  intro p u s s' t
  refine ⟨fun a d tg x off => execLoadt_of_issues, fun a d issues => ⟨fun encodes => ?encode, fun copies => ?copy⟩,
    fun a d tg x off => execStreamw_of_issues, execStreamw_of_hbm_off,
    fun a issues => ?pin,
    fun a => execFree_of_issues, fun a d i g tr => execCombine_of_issues⟩
  case encode => exact (execStoret_of_issues issues).trans (by rw [if_pos encodes])
  case copy => exact (execStoret_of_issues issues).trans (by rw [if_neg copies])
  case pin =>
    intro r n
    refine ⟨fun refused => (execPin_of_issues issues).trans (by rw [if_pos refused]), fun new free => ?_⟩
    have taken : ¬ ((s'.pinOf r.1 r.2).isSome = true ∨ (s'.freeLines.take n).length < n) := by
      rw [new, free]
      simp
    exact (execPin_of_issues issues).trans (by rw [if_neg taken])

/-! ### What ends by itself -/

section

variable {s : State}

/-- R230, R231, R421: the fill that ends first marks its readers; a range freed meanwhile is given up, any other holds its
bytes (log 122). -/
theorem execStreamFillComplete_eq {q : PinRange} {u : List Upset} (next : s.nextFill = some q) :
    let r := (s.upsets 0 u).readHbm q.lo (q.hi - q.lo)
    let x := r.2.2.poisonOf r.2.1
    let w := x.2.markReaders q x.1
    execStreamFillComplete u s = if q.freeing then
      .next { w with commons := { w.commons with pins := w.commons.pins.erase q } }.settle
    else .next ((w.fillLines q 0 r.1).updPin q.lo q.hi fun q =>
      { q with st := .filled, poison := x.1, readers := [] }).settle := by
  unfold execStreamFillComplete
  rw [next]

/-- R425: the oldest pinned range with a bad line is filled again. -/
theorem execStreamLineRefill_eq {q : PinRange} (bad : s.commons.pins.find? (!·.bad.isEmpty) = some q) :
    execStreamLineRefill s = .next (s.refillLine q).settle := by
  unfold execStreamLineRefill
  rw [bad]

/-- R239: a tree with all its contributions is reduced. -/
theorem execCombineTreeComplete_eq {tree : Fin 16} {t : Tree}
    (full : (s.commons.trees.find? fun t => t.id == tree.val && decide (t.g ≤ t.parts.length)) = some t) :
    execCombineTreeComplete tree s = .next (s.reduceTree t).settle := by
  unfold execCombineTreeComplete
  rw [full]

/-- R239: a reduced tree is gone. -/
theorem State.reduceTree_drops (s : State) (t : Tree) :
    (s.reduceTree t).commons.trees.all (·.id != t.id) = true := by
  unfold State.reduceTree
  simp only [List.all_filter, Bool.not_or_self, List.all_eq_true, implies_true]

/-- R105: a repair waits while the flash part stays busy. -/
theorem execHbmRepairComplete_waits (ok : Bool) {w : Nat} {b : BitVec 32} {rest : List (Nat × BitVec 32)}
    (under : s.hbm.repairs = (w, b) :: rest) (busy : s.adm.flashWaiting = true) :
    execHbmRepairComplete ok s = .next s := by
  unfold execHbmRepairComplete
  rw [under]
  exact if_pos busy

/-- R424: the oldest word under repair is good again, with its stored error cleared (log 29), or its repair failed. -/
theorem execHbmRepairComplete_eq (ok : Bool) {w : Nat} {b : BitVec 32} {rest : List (Nat × BitVec 32)}
    (under : s.hbm.repairs = (w, b) :: rest) (idle : s.adm.flashWaiting = false) :
    let v := { s with hbm := { s.hbm with repairs := rest } }
    execHbmRepairComplete ok s = if ok then
      .next (({ v with
        hbm := { v.hbm with errors := v.hbm.errors.filter (·.1 != w) }
        faults := { v.faults with repairs := satAdd 32 v.faults.repairs 1 } }.refillWord w).clearHolds 3
          (· == w)).dropRepairVotes.settle
    else .next (((v.detect 0x23 (v.pat.hbmRegion w) (32 * w) w).2.assertFault.closeHeld 3 w).dropRepairVotes).settle := by
  unfold execHbmRepairComplete
  rw [under]
  exact if_neg (Bool.eq_false_iff.mp idle)

end

/-- Settles O30: each command takes the oldest of its kind, or the fill that ends first; a reduced tree is gone, and a repair
waits on the flash part (R105, R230, R239, R421, R424, R425; log 29, 122). -/
theorem fillsAndTreesComplete : Obligations.FillsAndTreesComplete := by
  unfold Obligations.FillsAndTreesComplete
  intro s
  refine ⟨fun q u next => ⟨fun freeing => ?freed, fun kept => ?filled⟩, fun q => execStreamLineRefill_eq,
    fun tree t full => ⟨execCombineTreeComplete_eq full, s.reduceTree_drops t⟩,
    fun w b rest under busy ok => execHbmRepairComplete_waits ok under busy,
    fun w b rest under idle => ⟨execHbmRepairComplete_eq true under idle, execHbmRepairComplete_eq false under idle⟩⟩
  case freed => exact (execStreamFillComplete_eq next).trans (if_pos freeing)
  case filled => exact (execStreamFillComplete_eq next).trans (if_neg (Bool.eq_false_iff.mp kept))

/-! ### Matrix instructions of a panel -/

section

variable {p : PanelId} {u : List Upset} {s s' : State} {t : Nat}

/-- R232: MM multiplies into the bank that its toggle picks. -/
theorem execMm_of_issues {x b tog clear fa fb k oa ob : Nat}
    (issues : Claims.Issues s p u (.mm x b tog clear fa fb k oa ob) t s') :
    execMm p u s = .next (Claims.issued p
      (s'.updPanel p fun y => y.matmul x (bankOf b tog s'.panels[p].seq.loops) clear fa fb k oa ob)) := by
  unfold execMm
  rw [panelStep_of_issues issues rfl]

/-- R234: DRAIN drains the bank that its toggle picks. -/
theorem execDrain_of_issues {x b tog tgt d : Nat} (issues : Claims.Issues s p u (.drain x b tog tgt d) t s') :
    execDrain p u s = .next (Claims.issued p (s'.drainBank p x (bankOf b tog s'.panels[p].seq.loops) tgt d)) := by
  unfold execDrain
  rw [panelStep_of_issues issues rfl]

/-- R235: CIMV multiplies its tile in its lattice. -/
theorem execCimv_of_issues {lat bits sgn width a d row col : Nat}
    (issues : Claims.Issues s p u (.cimv lat bits sgn width a d row col) t s') :
    execCimv p u s = .next (Claims.issued p (s'.latticeTile p lat bits sgn width a d row col)) := by
  unfold execCimv
  rw [panelStep_of_issues issues rfl]

end

/-- Settles O31: MM, DRAIN and CIMV that issue have the effects of their definitions (R232, R234, R235). -/
theorem panelMatricesComplete : Obligations.PanelMatricesComplete := by
  unfold Obligations.PanelMatricesComplete
  intro p u s s' t
  exact ⟨fun x b tog clear fa fb k oa ob => execMm_of_issues, fun x b tog tgt d => execDrain_of_issues,
    fun lat bits sgn width a d row col => execCimv_of_issues⟩

/-! ### The unit of a command -/

section

variable {q : UnitId} {p : PanelId} {s : State}

/-- Units 0 to 15 are the panels. -/
theorem panelOf_eq_some_iff : panelOf q = some p ↔ q.val = p.val := by
  unfold panelOf
  split
  case isTrue => simp [Fin.ext_iff]
  case isFalse other => exact ⟨nofun, fun same => absurd (same ▸ p.isLt) other⟩

/-- The unit after the panels is the control sequencer. -/
theorem panelOf_eq_none_iff : panelOf q = none ↔ 16 ≤ q.val := by
  simp [panelOf]

/-- R444: a panel votes as itself. -/
theorem voteClient_of_panel (unit : panelOf q = some p) : voteClient q = .panel q.val :=
  if_pos (panelOf_eq_some_iff.mp unit ▸ p.isLt)

/-- R444: the control sequencer has a client of its own. -/
theorem voteClient_of_control (unit : panelOf q = none) : voteClient q = .control :=
  if_neg (Nat.not_lt.mpr (panelOf_eq_none_iff.mp unit))

/-- An instruction that all sequencers share, on a panel that issues it. -/
theorem unitStep_of_panel {effect : Stitch → Option (State → State)} {ins : Stitch} {g : State → State} {s' : State}
    {t : Nat} (unit : panelOf q = some p) (issues : Claims.Issues s p [] ins t s') (means : effect ins = some g) :
    unitStep q s effect = .next (Claims.issued p (g s')) := by
  unfold unitStep
  rw [unit]
  dsimp only
  rw [panelStep_of_issues issues (congrArg (Option.map fun g _ => g) means)]

/-- An instruction that all sequencers share, on the control sequencer. -/
theorem unitStep_of_control {effect : Stitch → Option (State → State)} {ins : Stitch} {g : State → State}
    (unit : panelOf q = none) (fetched : s.fetchControl = some ins) (means : effect ins = some g) :
    unitStep q s effect = .next (g (Claims.stepped s)).settle := by
  unfold unitStep
  rw [unit]
  exact controlIssue_eq fetched means

end

/-! ### Tokens -/

section

variable {x : Sequencer} {k n c now : Nat} {rest : List (Nat × Nat × Nat)}

/-- R240: the oldest increment in flight is added to its counter, modulo 2¹⁶. -/
theorem Sequencer.arrive_of_flying (flying : x.flying = (k, n, c) :: rest) : x.arrive =
    { x with flying := rest, came := x.came ++ [(k, n, c)], tokens := x.tokens.modify k fun v => (v + n) % 65536 } := by
  unfold Sequencer.arrive
  rw [flying]

/-- R240, R249: an increment arrives once its cycle has come. -/
theorem Sequencer.tokenDue_of_flying (flying : x.flying = (k, n, c) :: rest) : x.tokenDue now = decide (c ≤ now) := by
  unfold Sequencer.tokenDue
  rw [flying]

end

/-! ### Control instructions of a panel -/

section

variable {q : UnitId} {p : PanelId} {s s' : State} {t k n : Nat}

/-- R226: LOOP pushes a level at its own place. -/
theorem execLoop_of_panel {len : Nat} (unit : panelOf q = some p) (issues : Claims.Issues s p [] (.loop n len) t s') :
    execLoop q s = .next (Claims.issued p
      (s'.updPanel p fun x => { x with seq := x.seq.pushLoop x.seq.pc n len })) := by
  unfold execLoop
  rw [unit]
  dsimp only
  rw [panelStep_of_issues issues rfl]

/-- R240, R249: SIGK sends its increment at the shared count's cycle of its issue. -/
theorem execSigk_of_panel {target inc : Nat} (unit : panelOf q = some p)
    (issues : Claims.Issues s p [] (.sigk target k inc) t s') :
    execSigk q s = .next (Claims.issued p (s'.sendToken (s'.shared p t) target k inc)) := by
  unfold execSigk
  rw [unit]
  dsimp only
  rw [panelStep_of_issues issues rfl]

/-- R240: WAITK takes its count from a counter that has reached it. -/
theorem execWaitk_of_panel (unit : panelOf q = some p) (issues : Claims.Issues s p [] (.waitk k n) t s')
    (enough : n ≤ s.panels[p].seq.tokens.getD k 0) :
    execWaitk q s = .next (Claims.issued p (s'.updPanel p fun x => { x with seq := x.seq.consume k n })) := by
  unfold execWaitk
  rw [unit]
  dsimp only
  rw [panelStep_of_issues issues (if_pos enough)]

/-- R240: WAITK waits for its count. -/
theorem execWaitk_waits_of_panel (unit : panelOf q = some p) (fetched : s.fetchPanel p = some (.waitk k n))
    (few : s.panels[p].seq.tokens.getD k 0 < n) : execWaitk q s = .next s := by
  unfold execWaitk
  rw [unit]
  refine panelStep_of_no_effect fun ins same => ?_
  obtain rfl : Stitch.waitk k n = ins := Option.some.inj (fetched.symm.trans same)
  exact if_neg (Nat.not_le.mpr few)

/-- R240: TOKEN_ARRIVAL on a panel. -/
theorem execTokenArrival_of_panel (unit : panelOf q = some p) : execTokenArrival q s =
    when (s.panels[p].seq.tokenDue (s.own p s.cycleNow)) s fun s =>
      s.updPanel p fun x => { x with seq := x.seq.arrive } := by
  unfold execTokenArrival
  rw [unit]

/-- R240, R249: an increment whose cycle has come reaches its panel's counter. -/
theorem execTokenArrival_due_of_panel {c : Nat} {rest : List (Nat × Nat × Nat)} (unit : panelOf q = some p)
    (flying : s.panels[p].seq.flying = (k, n, c) :: rest) (due : c ≤ s.own p s.cycleNow) :
    execTokenArrival q s = .next (s.updPanel p fun x => { x with seq := { x.seq with
      flying := rest, came := x.seq.came ++ [(k, n, c)]
      tokens := x.seq.tokens.modify k fun v => (v + n) % 65536 } }) := by
  have arrived : s.panels[p].seq.tokenDue (s.own p s.cycleNow) = true :=
    (Sequencer.tokenDue_of_flying flying).trans (decide_eq_true due)
  rw [execTokenArrival_of_panel unit, when_of_true arrived]
  refine congrArg Host.Outcome.next (State.updPanel_congr ?_)
  rw [Sequencer.arrive_of_flying flying]

/-- R249: an increment is in flight until its cycle comes. -/
theorem execTokenArrival_early_of_panel {c : Nat} {rest : List (Nat × Nat × Nat)} (unit : panelOf q = some p)
    (flying : s.panels[p].seq.flying = (k, n, c) :: rest) (early : s.own p s.cycleNow < c) :
    execTokenArrival q s = .next s := by
  rw [execTokenArrival_of_panel unit, when_of_false]
  exact (Sequencer.tokenDue_of_flying flying).trans (decide_eq_false (Nat.not_le.mpr early))

end

/-- Settles O34: a panel's control instructions that issue have their effects, a WAITK short of its count waits, and an
increment arrives when its cycle has come and not before (R226, R240, R241, R242, R249). -/
theorem panelControlCompletes : Obligations.PanelControlCompletes := by
  unfold Obligations.PanelControlCompletes
  intro q p s s' t unit
  refine ⟨fun n issues => ?nop, fun n len => execLoop_of_panel unit, fun target k inc => execSigk_of_panel unit,
    fun k n issues => ⟨execWaitk_of_panel unit issues, execWaitk_waits_of_panel unit issues.1⟩,
    fun d issues => ?vote, fun d issues => ?unvote,
    fun k n c rest flying => ⟨execTokenArrival_due_of_panel unit flying, execTokenArrival_early_of_panel unit flying⟩⟩
  -- each ascription names the command's definition, which is its arm of `exec`
  case nop => exact (unitStep_of_panel unit issues rfl : execNop q s = _)
  case vote =>
    rw [← voteClient_of_panel unit]
    exact (unitStep_of_panel unit issues rfl : execVote q s = _)
  case unvote =>
    rw [← voteClient_of_panel unit]
    exact (unitStep_of_panel unit issues rfl : execUnvote q s = _)

/-! ### The control sequencer -/

section

variable {q : UnitId} {s : State} {k n : Nat}

/-- R226: LOOP pushes a level at its own place. -/
theorem execLoop_of_control {len : Nat} (unit : panelOf q = none) (fetched : s.fetchControl = some (.loop n len)) :
    execLoop q s = .next ((Claims.stepped s).updControl fun x => x.pushLoop s.control.seq.pc n len).settle := by
  unfold execLoop
  rw [unit]
  dsimp only
  rw [controlIssue_eq fetched rfl]

/-- R240, R251: SIGK sends its increment at the next cycle of the panels' clock. -/
theorem execSigk_of_control {target inc : Nat} (unit : panelOf q = none)
    (fetched : s.fetchControl = some (.sigk target k inc)) :
    execSigk q s = .next ((Claims.stepped s).sendToken (Claims.stepped s).nextCycle target k inc).settle := by
  unfold execSigk
  rw [unit]
  dsimp only
  rw [controlIssue_eq fetched rfl]

/-- R240: WAITK takes its count from a counter that has reached it. -/
theorem execWaitk_of_control (unit : panelOf q = none) (fetched : s.fetchControl = some (.waitk k n))
    (enough : n ≤ s.control.seq.tokens.getD k 0) :
    execWaitk q s = .next ((Claims.stepped s).updControl fun x => x.consume k n).settle := by
  unfold execWaitk
  rw [unit]
  dsimp only
  rw [controlIssue_eq fetched (if_pos enough)]

/-- R240: WAITK waits for its count. -/
theorem execWaitk_waits_of_control (unit : panelOf q = none) (fetched : s.fetchControl = some (.waitk k n))
    (few : s.control.seq.tokens.getD k 0 < n) : execWaitk q s = .next s := by
  unfold execWaitk
  rw [unit]
  exact controlIssue_of_no_effect fetched (if_neg (Nat.not_le.mpr few))

/-- R240: TOKEN_ARRIVAL on the control sequencer. -/
theorem execTokenArrival_of_control (unit : panelOf q = none) : execTokenArrival q s =
    when (s.control.seq.tokenDue s.cycleNow) s fun s => s.updControl Sequencer.arrive := by
  unfold execTokenArrival
  rw [unit]

/-- R240, R249: an increment whose cycle has come reaches the control sequencer's counter. -/
theorem execTokenArrival_due_of_control {c : Nat} {rest : List (Nat × Nat × Nat)} (unit : panelOf q = none)
    (flying : s.control.seq.flying = (k, n, c) :: rest) (due : c ≤ s.cycleNow) :
    execTokenArrival q s = .next (s.updControl fun x => { x with
      flying := rest, came := x.came ++ [(k, n, c)], tokens := x.tokens.modify k fun v => (v + n) % 65536 }) := by
  have arrived : s.control.seq.tokenDue s.cycleNow = true :=
    (Sequencer.tokenDue_of_flying flying).trans (decide_eq_true due)
  rw [execTokenArrival_of_control unit, when_of_true arrived]
  exact congrArg Host.Outcome.next (State.updControl_congr (Sequencer.arrive_of_flying flying))

/-- R249: an increment is in flight until its cycle comes. -/
theorem execTokenArrival_early_of_control {c : Nat} {rest : List (Nat × Nat × Nat)} (unit : panelOf q = none)
    (flying : s.control.seq.flying = (k, n, c) :: rest) (early : s.cycleNow < c) :
    execTokenArrival q s = .next s := by
  rw [execTokenArrival_of_control unit, when_of_false]
  exact (Sequencer.tokenDue_of_flying flying).trans (decide_eq_false (Nat.not_le.mpr early))

/-- R242, R444, R452: the control sequencer's HALT drops its own vote, and a pending entry point starts. -/
theorem execHalt_of_control (unit : panelOf q = none) (fetched : s.fetchControl = some .halt) :
    execHalt q s = .next
      ((((Claims.stepped s).updControl fun x => { x with active := false, halted := true }).dropVote .controlSelf
        domControl false).startPending).settle := by
  unfold execHalt
  rw [unit]
  dsimp only
  unfold execHaltControl
  rw [controlIssue_eq fetched rfl]

/-- R251, R466: PLLSW requests the PLL and asks to switch; where the core clock runs already, it joins at once. -/
theorem execPllsw_eq (fetched : s.fetchControl = some .pllsw) :
    let w := (Claims.stepped s).requestPll
    let v := { w with control := { w.control with wantPll := true } }
    execPllsw s = .next (if w.power.locked && w.power.coreMhz != 0 then v.joinPll else v).settle := by
  unfold execPllsw
  dsimp only
  rw [controlIssue_eq fetched rfl]

/-- R251, R466: a sequencer that has asked to switch runs on the core clock and asks no more. -/
theorem State.joinPll_of_wanted (want : s.control.wantPll = true) :
    s.joinPll = { s with control := { s.control with wantPll := false, onPll := true } } := by
  unfold State.joinPll
  rw [want, Bool.or_true]

/-- R251, R444: WAITE goes on if a selected event has occurred, and waits without its own vote if none has. -/
theorem execWaite_eq {mask : Nat} (fetched : s.fetchControl = some (.waite mask)) :
    let w := Claims.stepped s
    let m : BitVec 5 := BitVec.ofNat 5 mask
    execWaite s = .next (if m &&& w.control.events = 0 then
      ({ w with control := { w.control with waiting := some m } }).dropVote .controlSelf domControl false
    else { w with control := { w.control with events := 0 } }).settle := by
  unfold execWaite
  dsimp only
  rw [controlIssue_eq fetched rfl]

end

/-- Settles O35: each instruction of the control sequencer has its effect after the program counter has moved on; WAITK,
WAITE and PLLSW go by their conditions (R226, R240, R241, R242, R251, R466). -/
theorem controlSequencerCompletes : Obligations.ControlSequencerCompletes := by
  unfold Obligations.ControlSequencerCompletes
  intro q s unit
  refine ⟨fun n fetched => ?nop, fun n len => execLoop_of_control unit, fun target k inc => execSigk_of_control unit,
    fun k n fetched => ⟨execWaitk_of_control unit fetched, execWaitk_waits_of_control unit fetched⟩,
    fun d fetched => ?vote, fun d fetched => ?unvote,
    fun k n c rest flying => ⟨execTokenArrival_due_of_control unit flying, execTokenArrival_early_of_control unit flying⟩,
    execHalt_of_control unit, fun fetched => ⟨fun runs => ?joins, fun stands => ?asks⟩,
    fun mask fetched => ⟨fun occurred => ?goesOn, fun unmet => ?waits⟩⟩
  case nop => exact (unitStep_of_control unit fetched rfl : execNop q s = _)
  case vote =>
    rw [← voteClient_of_control unit]
    exact (unitStep_of_control unit fetched rfl : execVote q s = _)
  case unvote =>
    rw [← voteClient_of_control unit]
    exact (unitStep_of_control unit fetched rfl : execUnvote q s = _)
  case joins =>
    refine (execPllsw_eq fetched).trans ?_
    rw [if_pos (by simpa using runs), State.joinPll_of_wanted rfl]
  case asks =>
    refine (execPllsw_eq fetched).trans ?_
    rw [if_neg (by simpa using stands)]
  case goesOn => exact (execWaite_eq fetched).trans (by rw [if_neg occurred])
  case waits => exact (execWaite_eq fetched).trans (by rw [if_pos unmet])

/-! ### Slots and spans -/

section

variable {p : PanelId} {s s' : State} {t g : Nat}

/-- R242, R310: a panel's HALT; where it has just halted, its group may restart or end its span. -/
theorem execHalt_of_panel {q : UnitId} (unit : panelOf q = some p) (issues : Claims.Issues s p [] .halt t s') :
    let w := Claims.issued p (s'.updPanel p fun x => { x with seq := { x.seq with halted := true } })
    execHalt q s = .next (if w.panels[p].seq.halted && !s.panels[p].seq.halted then
      (w.groupHalted (s.pat.groupOf p.val)).settle else w) := by
  unfold execHalt
  rw [unit]
  dsimp only
  unfold execHaltPanel
  rw [panelStep_of_issues issues rfl]

/-- R243, R311: a SLOT that issues joins its group's run. -/
theorem execSlot_of_issues {id len cost : Nat} (fetched : s.fetchPanel p = some (.slot id len cost))
    (goesOn : (s.group (s.pat.groupOf p.val)).ending = false) (free : s.runBusy p id = false)
    (issue : s.issuePanel p (.slot id len cost) = some (t, s')) :
    execSlot p s = .next (s'.joinRun p id len cost t).settle := by
  unfold execSlot
  simp only [fetched, goesOn, free, issue, Bool.false_eq_true, if_false]

/-- R310: a SLOT in a span that ends stops its sequencer. -/
theorem execSlot_of_ending {id len cost : Nat} (fetched : s.fetchPanel p = some (.slot id len cost))
    (ending : (s.group (s.pat.groupOf p.val)).ending = true) :
    execSlot p s = .next
      ((s.updPanel p fun x => { x with seq := { x.seq with active := false } }).finishSpan
        (s.pat.groupOf p.val)).settle := by
  unfold execSlot
  simp only [fetched, ending, if_true]

/-- R243, R313: a panel at the end of its slot's body leaves the slot. -/
theorem execSlotSpanEnd_eq {a b c : Nat} (span : s.panels[p].span = some (a, b, c))
    (active : s.panels[p].seq.active = true) (atEnd : s.panels[p].seq.pc = b) :
    execSlotSpanEnd p s = .next (s.leaveSlot p b c) := by
  unfold execSlotSpanEnd
  dsimp only
  rw [span]
  exact when_of_true (by rw [active, atEnd, beq_self_eq_true, Bool.and_true])

/-- R310: the sequencers of a group whose panels are all on start together. -/
theorem execSpanStart_eq (running : s.running = true) (starting : (s.group g).starting = true)
    (panels : s.pat.groupPanels g ≠ []) (on : ((s.pat.groupPanels g).all fun n => s.isOn (domPanel n.val)) = true) :
    execSpanStart g s = .next ((s.restartGroup g).updGroup g fun x =>
      { x with starting := false, inSpan := true, ending := false, run := none, busyWall := s.time.wall }) := by
  have filled : (s.pat.groupPanels g).isEmpty = false := List.isEmpty_eq_false_iff.mpr panels
  unfold execSpanStart
  exact when_of_true (by simp only [running, starting, filled, on, Bool.not_false, Bool.and_true])

/-- R310: a group with no window pending, and none taken for its hysteresis, ends its span. -/
theorem execSpanEnd_eq (running : s.running = true) (inSpan : (s.group g).inSpan = true)
    (goesOn : (s.group g).ending = false) (duty : s.onDuty g = false) (idle : s.windowPending = false)
    (passed : hystPassed (s.groupHyst g) (max (s.group g).busyWall s.look.pendingWall) s.time.wall = true) :
    execSpanEnd g s = .next (s.endSpan g).settle := by
  unfold execSpanEnd
  exact when_of_true (by simp only [running, inSpan, goesOn, duty, idle, passed, Bool.not_false, Bool.and_true])

/-- R245, R314: VERDICT reads its tile's bytes and takes them as the window's verdict. -/
theorem execVerdict_of_issues {u : List Upset} {a : Nat} (issues : Claims.Issues s p u (.verdict a) t s') :
    execVerdict p u s = .next (Claims.issued p ((s'.verdictBytes p a).2.verdict p (s'.verdictBytes p a).1)) := by
  unfold execVerdict
  rw [panelStep_of_issues issues rfl]

end

/-- Settles O36: the equations of HALT, SLOT, the end of a slot's body, VERDICT and the spans of a group (R242, R243, R245,
R310, R313, R314). -/
theorem slotsAndSpansComplete : Obligations.SlotsAndSpansComplete := by
  unfold Obligations.SlotsAndSpansComplete
  intro p s s' t
  exact ⟨fun q => execHalt_of_panel, fun id len cost fetched => ⟨execSlot_of_issues fetched, execSlot_of_ending fetched⟩,
    fun a b c span active atEnd => ⟨s.leaveSlot p b c, execSlotSpanEnd_eq span active atEnd, rfl⟩,
    fun a u => execVerdict_of_issues, fun g => execSpanStart_eq, fun g => execSpanEnd_eq⟩

end Sys2Proof.Machine

/-! SUPPORT. Rest, the timebase alarm, the reload of HBM and the patrol: an equation per command. -/

namespace Sys2Proof.Machine

section

variable {s : State}

/-- R445: once the web has stood for the rest delay, the web client takes its retain-votes, withdraws its run votes and
forms STATUS 0x11. -/
theorem execRestDelayExpiry_eq (running : s.running = true) (stopped : s.web.stopped = true)
    (run : s.power.web = .run) (declared : s.pat.restMs ≠ 0)
    (passed : s.web.stopSince + s.pat.restMs * msPs ≤ s.time.wall) :
    let w := s.addVotes .web s.restRetain true
    let v := w.dropVotes .web w.restDrop false
    execRestDelayExpiry s = .next
      ({ v with power := { v.power with web := .rest, restFrom := v.time.wall } }.statusPos 0x11 0).settle :=
  when_of_true (by rw [running, stopped, run, bne_iff_ne.mpr declared, decide_eq_true passed]; rfl)

/-- R445: once rest has lasted the deep-rest delay, the web client withdraws its retain-vote for HBM and forms STATUS
0x12. -/
theorem execDeepRestDelayExpiry_eq (running : s.running = true) (rest : s.power.web = .rest)
    (declared : s.pat.deepS ≠ 0) (passed : s.power.restFrom + s.pat.deepS * 1000 * msPs ≤ s.time.wall) :
    let v := s.dropVote .web domHbm true
    execDeepRestDelayExpiry s = .next ({ v with power := { v.power with web := .deep } }.statusPos 0x12 0).settle :=
  when_of_true (by rw [running, rest, bne_iff_ne.mpr declared, decide_eq_true passed]; rfl)

/-- R449, R453: the alarm of a running device is a wake with cause 0x14 and the domains of its owner. -/
theorem execTimebaseAlarm_eq (running : s.running = true) (owner : Fin 2) :
    execTimebaseAlarm owner s = .next
      (s.raiseWake 0x14 (owner.val + 1) (if owner = 0 then [] else [domFlash, domHbm])).settle :=
  when_of_true running

/-- R272, R288: a reload goes on after a flash error (log 50); otherwise it completes where the sections pass their
CRC-32, and acts as RST_N with cause 0x05 where one does not. -/
theorem execHbmReloadComplete_eq (running : s.running = true) (lost : s.hbm.lost = true)
    (flash : s.isOn domFlash = true) (voted : s.power.votes.any (fun v => v.client == .reload) = true)
    (ready : s.adm.flashWaiting = false) (flashError : Bool) :
    execHbmReloadComplete flashError s = .next (if flashError then s
      else if s.loadOk (s.adm.slot.getD 0) then s.reloaded.settle else s.resetOutside 0x05 0) :=
  when_of_true (by rw [running, lost, flash, ready, voted]; rfl)

/-- R270: a burst of housekeeping patrols the block of eight words that holds its word. -/
theorem execHousekeepingBurst_eq {word : Nat} {u : List Upset} (running : s.running = true)
    (on : s.isOn domHbm = true) (inHbm : word < 2 ^ 29)
    (idle : (s.panels.toList.any fun x => x.seq.outst.all (·.unit != .stream)) = true) :
    execHousekeepingBurst word u s = .next ((s.upsets 0 u).scrub (word / 8)).settle :=
  have inRange : decide (word < hbmWords) = true := decide_eq_true inHbm
  when_of_true (by rw [running, on, inRange, idle]; rfl)

end

/-- Settles O54: the web client's delays, the timebase alarm, the three ends of a reload and the patrol burst act by
their equations (R270, R272, R288, R445, R449, R453). -/
theorem restAndReloadComplete : Obligations.RestAndReloadComplete := by
  unfold Obligations.RestAndReloadComplete
  intro s running
  refine ⟨execRestDelayExpiry_eq running, execDeepRestDelayExpiry_eq running, execTimebaseAlarm_eq running,
    fun lost flash voted ready => ?reload, fun word u => execHousekeepingBurst_eq running⟩
  have ends := execHbmReloadComplete_eq running lost flash voted ready
  refine ⟨fun sound => ?sound, fun damaged => ?damaged, ends true⟩
  case sound => exact (ends false).trans (by rw [if_neg Bool.false_ne_true, if_pos sound])
  case damaged =>
    refine (ends false).trans ?_
    rw [if_neg Bool.false_ne_true, if_neg (Bool.eq_false_iff.mp damaged)]

end Sys2Proof.Machine

/-! SUPPORT. Held records enter the queue: what votes, the control sequencer and the clocks leave of the event unit, and
the records that enter where there is room for them. -/

namespace Sys2Proof.Machine

/-! ### What follows a command leaves the event unit as it was -/

theorem State.ite_events {c : Prop} [Decidable c] {a b : State} {e : Events} (h : a.events = e) (k : b.events = e) :
    (if c then a else b).events = e := by
  split
  · exact h
  · exact k

theorem State.wakeDomain_events (s : State) (id : Nat) : (s.wakeDomain id).events = s.events := by
  unfold State.wakeDomain
  refine State.ite_events rfl ?_
  split
  case h_1 => unfold State.retrainPort; split <;> rfl
  case h_2 => rfl
  case h_3 => exact State.ite_events rfl rfl
  case h_4 => rfl
  case h_5 => exact State.ite_events rfl rfl

theorem State.addVote_events (s : State) (c : Client) (id : Nat) (retain : Bool) :
    (s.addVote c id retain).events = s.events := by
  have taken (v : Vote) : (if s.power.votes.contains v then s
      else { s with power := { s.power with votes := s.power.votes ++ [v] } }).events = s.events :=
    State.ite_events rfl rfl
  unfold State.addVote
  exact State.ite_events (taken _) ((State.wakeDomain_events _ id).trans (taken _))

theorem State.dropVote_events (s : State) (c : Client) (id : Nat) (retain : Bool) :
    (s.dropVote c id retain).events = s.events := by
  unfold State.dropVote
  refine State.ite_events (State.ite_events ?_ ?_) rfl
  · unfold State.dropRetained
    exact State.ite_events rfl rfl
  · unfold State.startHysteresis
    exact State.ite_events rfl rfl

theorem State.resumeWaite_events (s : State) : s.resumeWaite.events = s.events := by
  unfold State.resumeWaite
  split
  · exact State.addVote_events ..
  · rfl

theorem State.startPending_events (s : State) : s.startPending.events = s.events := by
  unfold State.startPending
  refine State.ite_events ?_ rfl
  split
  · dsimp only
    split
    · exact State.addVote_events ..
    · rfl
  · rfl

theorem State.continueControl_events (s : State) : s.continueControl.events = s.events := by
  unfold State.continueControl
  refine State.ite_events ((State.startPending_events _).trans ?_) rfl
  split
  · exact State.ite_events rfl (State.resumeWaite_events s)
  · rfl

theorem State.endWakes_events (s : State) : s.endWakes.events = s.events := by
  unfold State.endWakes
  generalize List.filter _ s.power.votes = votes
  induction votes generalizing s with
  | nil => rfl
  | cons v votes ih => exact (ih _).trans (State.dropVote_events ..)

theorem State.eventVotes_events (s : State) : s.eventVotes.events = s.events := by
  have busy : (if s.eventBusy then s.addVote .event domEvent false else s.dropVote .event domEvent false).events
      = s.events := State.ite_events (State.addVote_events ..) (State.dropVote_events ..)
  unfold State.eventVotes
  exact State.ite_events ((State.addVote_events ..).trans busy) ((State.dropVote_events ..).trans busy)

theorem State.checkRestored_events (s : State) : s.checkRestored.events = s.events :=
  State.ite_events rfl rfl

theorem State.settleClocks_events (s : State) : s.settleClocks.events = s.events := by
  have requested : s.requestPll.events = s.events := State.ite_events rfl rfl
  have followed : (if s.pllNeeded then s.requestPll else if s.power.pll then
      { s with
        power := { s.power with pll := false, locked := false, coreMhz := 0, clockPending := false }
        control := { s.control with onPll := false } } else s).events = s.events :=
    State.ite_events requested (State.ite_events rfl rfl)
  exact followed

/-- R434: only a drop that a port has still to note forms a record after a command. -/
theorem State.settle_events (s : State) (noDrop : s.dropToNote = none) : s.settle.events = s.events := by
  have noted : s.noteDrops = s := by unfold State.noteDrops; rw [noDrop]
  unfold State.settle
  rw [State.settleClocks_events, State.checkRestored_events, State.eventVotes_events, State.endWakes_events,
    State.continueControl_events, noted]

/-! ### Entering where there is room -/

/-- R330: a device that is no member of a bolt relays nothing. -/
theorem State.relay_of_role {s : State} (member : s.role ≠ 1) (sealedMember : s.role ≠ 3) (r : Record) :
    s.relay r = s := by
  unfold State.relay
  rw [beq_eq_false_iff_ne.mpr member, beq_eq_false_iff_ne.mpr sealedMember]
  rfl

/-- R329: with an ordinary entry free, a record other than LOSS is appended. -/
theorem Events.enter_of_room {e : Events} {r : Record} (ordinary : r.type ≠ 7) (room : e.ordinary < 8191) :
    e.enter r = e.append r := by
  unfold Events.enter
  rw [beq_eq_false_iff_ne.mpr ordinary, if_neg Bool.false_ne_true, if_pos room]

/-- R329: the record appended takes an ordinary entry at most. -/
theorem Events.append_ordinary_le (e : Events) (r : Record) : (e.append r).ordinary ≤ e.ordinary + 1 := by
  unfold Events.ordinary Events.append
  rw [List.countP_append]
  exact Nat.add_le_add_left List.countP_le_length _

/-- R325, R329: the event unit after a list of records has entered behind those of its queue. -/
structure Events.Entered (e : Events) (l : List Record) (e' : Events) : Prop where
  held : e'.held = e.held
  loss : e'.loss = e.loss
  types : e'.queue.map (·.record.type) = e.queue.map (·.record.type) ++ l.map (·.type)
  nextSeq : e'.nextSeq = e.nextSeq + BitVec.ofNat 32 l.length
  nextTicket : e'.nextTicket = e.nextTicket + BitVec.ofNat 16 l.length

theorem Events.Entered.nil (e : Events) : e.Entered [] e :=
  ⟨rfl, rfl, (List.append_nil _).symm, (BitVec.add_zero _).symm, (BitVec.add_zero _).symm⟩

/-- The event unit after a record of this device's own has entered with room for it. -/
def Events.number (e : Events) (r : Record) : Events :=
  { e with nextSeq := e.nextSeq + 1 }.append { r with seqNo := e.nextSeq }

theorem Events.number_ordinary_le (e : Events) (r : Record) : (e.number r).ordinary ≤ e.ordinary + 1 :=
  Events.append_ordinary_le { e with nextSeq := e.nextSeq + 1 } _

theorem Events.Entered.cons {e e' : Events} {r : Record} {l : List Record} (h : (e.number r).Entered l e') :
    e.Entered (r :: l) e' where
  held := h.held
  loss := h.loss
  types := by rw [h.types]; simp [Events.number, Events.append]
  nextSeq := by
    rw [h.nextSeq, List.length_cons, Nat.add_comm l.length, BitVec.ofNat_add, ← BitVec.add_assoc]
    rfl
  nextTicket := by
    rw [h.nextTicket, List.length_cons, Nat.add_comm l.length, BitVec.ofNat_add, ← BitVec.add_assoc]
    rfl

/-- R325, R329: a record of this device's own that finds room takes the next number, and no other part of the state
changes. -/
theorem State.enterOne_of_room {s : State} {r : Record} (member : s.role ≠ 1) (sealedMember : s.role ≠ 3)
    (own : r.relayed = false) (ordinary : r.type ≠ 7) (room : s.events.ordinary < 8191) :
    s.enterOne r = { s with events := s.events.number r } := by
  unfold State.enterOne
  rw [own, if_neg Bool.false_ne_true]
  dsimp only
  rw [Events.enter_of_room (r := { r with seqNo := s.events.nextSeq })
    (e := { s.events with nextSeq := s.events.nextSeq + 1 }) ordinary room]
  exact State.relay_of_role (s := { s with events := s.events.number r }) member sealedMember _

/-- R329, R516: records of this device's own, with room for them all, enter one behind the other. -/
theorem State.foldl_enterOne_of_room {s : State} (l : List Record) (member : s.role ≠ 1) (sealedMember : s.role ≠ 3)
    (own : ∀ r ∈ l, r.relayed = false ∧ r.type ≠ 7) (room : s.events.ordinary + l.length ≤ 8191) :
    ∃ e, l.foldl State.enterOne s = { s with events := e } ∧ s.events.Entered l e := by
  induction l generalizing s with
  | nil => exact ⟨s.events, rfl, Events.Entered.nil _⟩
  | cons r l ih =>
    obtain ⟨ownFirst, ordinary⟩ := own r List.mem_cons_self
    rw [List.length_cons] at room
    have entered := State.enterOne_of_room member sealedMember ownFirst ordinary (by omega)
    have roomLeft : (s.events.number r).ordinary + l.length ≤ 8191 := by
      have := Events.number_ordinary_le s.events r
      omega
    obtain ⟨e, folded, after⟩ := ih (s := { s with events := s.events.number r }) member sealedMember
      (fun x hx => own x (List.mem_cons_of_mem _ hx)) roomLeft
    exact ⟨e, by rw [List.foldl_cons, entered, folded], after.cons⟩

/-- R331: without a discard since the last one, no LOSS record forms. -/
theorem State.tryLoss_of_noLoss {s : State} (noDiscard : s.events.loss.discarded = 0) : s.tryLoss = s :=
  if_neg fun h => h.1 noDiscard

/-- R516: the state once the records held in the thimble have entered, before what follows every command. -/
def State.heldEntered (s : State) : State :=
  (s.events.held.foldl State.enterOne { s with events := { s.events with held := [] } }).tryLoss

/-- R329, R516: the held records, with room for them all and none of them relayed, are the last of the queue, and no
other part of the state changes. -/
theorem State.heldEntered_of_room {s : State} (member : s.role ≠ 1) (sealedMember : s.role ≠ 3)
    (noLoss : s.events.loss.discarded = 0) (own : ∀ r ∈ s.events.held, r.relayed = false ∧ r.type ≠ 7)
    (room : s.events.ordinary + s.events.held.length ≤ 8191) :
    ∃ e, s.heldEntered = { s with events := e } ∧ ({ s.events with held := [] } : Events).Entered s.events.held e := by
  obtain ⟨e, folded, entered⟩ := State.foldl_enterOne_of_room (s := { s with events := { s.events with held := [] } })
    s.events.held member sealedMember own room
  have noLossLeft : e.loss.discarded = 0 := (congrArg Loss.discarded entered.loss).trans noLoss
  refine ⟨e, ?_, entered⟩
  unfold State.heldEntered
  rw [folded]
  exact State.tryLoss_of_noLoss noLossLeft

/-- R516: with the event domain on, the held records enter. -/
theorem execHeldRecordEntry_eq {s : State} (on : s.isOn domEvent = true) :
    execHeldRecordEntry s = .next s.heldEntered.settle :=
  when_of_true on

/-- Settles O41: the held records enter in their order, by induction on them (R329, R516). -/
theorem heldRecordsEnter : Obligations.HeldRecordsEnter := by
  unfold Obligations.HeldRecordsEnter
  intro s on
  refine ⟨s.heldEntered.settle, execHeldRecordEntry_eq on, rfl, fun noDrop member sealedMember noLoss own room => ?_⟩
  have ownEach (r : Record) (hr : r ∈ s.events.held) : r.relayed = false ∧ r.type ≠ 7 := by
    simpa [Record.relayed] using List.all_eq_true.mp own r hr
  obtain ⟨e, eq, entered⟩ := State.heldEntered_of_room member sealedMember noLoss ownEach room
  have events : s.heldEntered.settle.events = e := by
    rw [eq]
    exact State.settle_events { s with events := e } noDrop
  rw [events]
  exact ⟨entered.held, entered.types, entered.nextSeq, entered.nextTicket⟩

end Sys2Proof.Machine

/-! SUPPORT. The marker scheduler: an equation per outcome of arming, and of a fire's pulse and release. -/

namespace Sys2Proof.Machine

/-! ### Arming -/

section

variable {s : State} {f f' : Fire} {rest : List Fire}

/-- R345: with 1,024 fires held, one more is dropped, with a MARK record of sub-code 3. -/
theorem State.armFire_of_full (taken : takeFirst (· == f) s.markers.fires = some (f', rest))
    (full : 1024 ≤ s.markers.heldFires) :
    s.armFire f = ({ s with markers := { s.markers with fires := rest } } : State).markRecord 3 f.marker f.target 1
      f.tag := by
  unfold State.armFire
  rw [taken]
  exact if_pos full

/-- R345: a fire whose target lies behind is missed, with a MARK record of sub-code 2. -/
theorem State.armFire_of_behind (taken : takeFirst (· == f) s.markers.fires = some (f', rest))
    (room : s.markers.heldFires < 1024) (behind : posDiff s.position f.target < 0) :
    s.armFire f = ({ s with markers := { s.markers with fires := rest } } : State).markRecord 2 f.marker f.target 1
      f.tag := by
  unfold State.armFire
  rw [taken]
  exact (if_neg (Nat.not_le.mpr room)).trans (if_pos behind)

/-- R345: a fire whose target is the position fires at once, and is counted. -/
theorem State.armFire_of_reached (taken : takeFirst (· == f) s.markers.fires = some (f', rest))
    (room : s.markers.heldFires < 1024) (reached : posDiff s.position f.target = 0) :
    s.armFire f = ({ s with markers := { s.markers with
      fires := rest ++ [{ f with stage := .pulse, startedAt := s.clock }] } } : State).bump 5 1 := by
  unfold State.armFire
  rw [taken]
  refine ((if_neg (Nat.not_le.mpr room)).trans (if_neg (by omega))).trans ?_
  dsimp only
  rw [if_pos reached, if_pos reached]

/-- R345: a fire whose target lies ahead pends. -/
theorem State.armFire_of_ahead (taken : takeFirst (· == f) s.markers.fires = some (f', rest))
    (room : s.markers.heldFires < 1024) (ahead : 0 < posDiff s.position f.target) :
    s.armFire f = { s with markers := { s.markers with fires := rest ++ [{ f with stage := .pending }] } } := by
  have short : ¬ posDiff s.position f.target = 0 := by omega
  unfold State.armFire
  rw [taken]
  refine ((if_neg (Nat.not_le.mpr room)).trans (if_neg (by omega))).trans ?_
  dsimp only
  rw [if_neg short, if_neg short]

end

/-- Settles O19: the four outcomes of arming, by the room in the scheduler and the sign of the distance (R345). -/
theorem armingFollowsThePosition : Obligations.ArmingFollowsThePosition := by
  unfold Obligations.ArmingFollowsThePosition
  intro s f f' rest taken
  exact ⟨State.armFire_of_full taken, State.armFire_of_behind taken, State.armFire_of_reached taken,
    State.armFire_of_ahead taken⟩

/-! ### Firing and release -/

/-- Changing the first element that meets p moves a count by what the change does to that element. -/
theorem countP_updFirst {α : Type} {p q : α → Bool} {f : α → α} {before after : Bool}
    (change : ∀ x, p x = true → q x = before ∧ q (f x) = after) {l : List α} (found : l.any p = true) :
    (updFirst p f l).countP q + before.toNat = l.countP q + after.toNat := by
  induction l with
  | nil => exact absurd found Bool.false_ne_true
  | cons x l ih =>
    cases meets : p x with
    | true =>
      obtain ⟨was, becomes⟩ := change x meets
      rw [updFirst, if_pos meets, List.countP_cons, List.countP_cons, was, becomes]
      cases before <;> cases after <;> rfl
    | false =>
      have foundLater : l.any p = true := by rw [List.any_cons, meets, Bool.false_or] at found; exact found
      have moved := ih foundLater
      rw [updFirst, if_neg (Bool.eq_false_iff.mp meets), List.countP_cons, List.countP_cons]
      omega

/-- R346: the start of a due fire's pulse. -/
def Fire.begin (clock : Nat) (f : Fire) : Fire := { f with stage := .pulse, startedAt := clock }

/-- R346: a fire that is due is not in its pulse; as it begins that turns round. -/
theorem Fire.isAt_begin {m : MarkerId} {clock : Nat} {f : Fire} (due : Fire.isAt m .due f = true) :
    (Fire.isAt m .pulse f = false ∧ Fire.isAt m .pulse (f.begin clock) = true) ∧
      Fire.isAt m .due (f.begin clock) = false := by
  unfold Fire.isAt at due ⊢
  obtain ⟨marker, stage⟩ := (Bool.and_eq_true ..).mp due
  rw [eq_of_beq stage, Fire.begin, marker]
  exact ⟨⟨rfl, rfl⟩, rfl⟩

/-- R346, R486: a due fire asserts its marker and is counted. -/
theorem execMarkerFire_of_due {m : MarkerId} {s : State} (due : s.markers.fires.any (Fire.isAt m .due) = true) :
    execMarkerFire m s = .next (({ s with markers := { s.markers with
      fires := updFirst (Fire.isAt m .due) (Fire.begin s.clock) s.markers.fires } } : State).bump 5 1) := by
  unfold execMarkerFire
  rw [if_pos due]
  rfl

/-- R346: the end of a pulse whose width has passed releases its fire, with a MARK record of sub-code 1. -/
theorem execMarkerPulseEnd_of_taken {m : MarkerId} {s : State} {f : Fire} {rest : List Fire}
    (taken : takeFirst (fun f => Fire.isAt m .pulse f && f.mayEnd s.clock) s.markers.fires = some (f, rest)) :
    execMarkerPulseEnd m s = .next (({ s with markers := { s.markers with fires := rest } } : State).markRecord 1
      f.marker f.target 1 f.tag).settle := by
  unfold execMarkerPulseEnd
  rw [taken]

/-- R345: the formed fires that share the oldest one's window are armed together. -/
theorem execFireArm_of_formed {s : State} {f0 : Fire} (oldest : s.markers.fires.find? (·.stage == .formed) = some f0) :
    execFireArm s = .next (((s.markers.fires.filter fun f => f.stage == .formed && f.tag == f0.tag).foldl
      State.armFire s).settle) := by
  unfold execFireArm
  rw [oldest]

/-- Settles O20: arming and release by their equations; of the fires of a marker that fires, one goes from due to its
pulse (R345, R346, R486). -/
theorem markersComplete : Obligations.MarkersComplete := by
  unfold Obligations.MarkersComplete
  intro s
  refine ⟨fun _ => execFireArm_of_formed, fun m due => ?_, fun _ _ _ => execMarkerPulseEnd_of_taken⟩
  refine ⟨_, execMarkerFire_of_due due, rfl, ?due, ?pulse⟩
  case due =>
    exact countP_updFirst (p := Fire.isAt m .due) (f := Fire.begin s.clock) (before := true) (after := false)
      (fun _ h => ⟨h, (Fire.isAt_begin h).2⟩) due
  case pulse =>
    exact countP_updFirst (p := Fire.isAt m .due) (f := Fire.begin s.clock) (before := false) (after := true)
      (fun _ h => (Fire.isAt_begin h).1) due

end Sys2Proof.Machine

/-! SUPPORT. The event port: who is selected, what reading returns, and what a transaction cut short has done. -/

namespace Sys2Proof.Machine

/-! ### Selection and the event domain -/

/-- R333: a station that is selected goes on to its command. -/
theorem ite_of_selected {α : Type} {st : Byte} {s : State} {silent answer : α} (selected : s.selected st = true) :
    (if !s.selected st then silent else answer) = answer :=
  if_neg (by rw [selected]; exact Bool.false_ne_true)

/-- R333: a station that is not selected stays silent. -/
theorem ite_of_unselected {α : Type} {st : Byte} {s : State} {silent answer : α} (unselected : s.selected st = false) :
    (if !s.selected st then silent else answer) = silent :=
  if_pos (by rw [unselected]; rfl)

/-- R335: with the event domain on, a selected station answers a command that the domain serves. -/
theorem served_of_on {st : Byte} {s : State} {silent busy answer : Result} (selected : s.selected st = true)
    (on : s.isOn domEvent = true) :
    (if !s.selected st then silent else if !s.isOn domEvent then busy else answer) = answer :=
  (ite_of_selected selected).trans (if_neg (by rw [on]; exact Bool.false_ne_true))

/-- R335: with the event domain not on, a selected station answers busy to a command that the domain serves. -/
theorem served_of_asleep {st : Byte} {s : State} {silent busy answer : Result} (selected : s.selected st = true)
    (asleep : s.isOn domEvent = false) :
    (if !s.selected st then silent else if !s.isOn domEvent then busy else answer) = busy :=
  (ite_of_selected selected).trans (if_pos (by rw [asleep]; rfl))

/-! ### Reading events -/

/-- R337: marking the first n records leaves those behind them as they are. -/
theorem markFirst_eq (n : Nat) (q : List Entry) :
    markFirst n q = (q.take n).map (fun x => { x with returned := true }) ++ q.drop n := by
  induction n generalizing q with
  | zero => rfl
  | succ n ih =>
    cases q with
    | nil => rfl
    | cons x q => exact congrArg (List.cons _) (ih q)

/-- R337: reading no record returns none. -/
theorem State.markReturned_of_nil {s : State} {n : Nat} (empty : s.events.queue.take n = []) : s.markReturned n = s :=
  if_pos (List.isEmpty_iff.mpr empty)

/-- R337: the first n records have been returned, and the newest record returned is the last of all that have been. -/
theorem State.markReturned_of_ne_nil {s : State} {n : Nat} (nonempty : s.events.queue.take n ≠ []) :
    s.markReturned n = { s with events := { s.events with
      queue := markFirst n s.events.queue,
      returned := (((markFirst n s.events.queue).filter (·.returned)).getLast?).map (·.ticket) } } :=
  if_neg (mt List.isEmpty_iff.mp nonempty)

/-- R337: the queue after a read, whether it returned a record or none. -/
theorem State.markReturned_queue (s : State) (n : Nat) :
    (s.markReturned n).events.queue = markFirst n s.events.queue := by
  by_cases h : s.events.queue.take n = []
  · rw [State.markReturned_of_nil h, markFirst_eq, h]
    exact (List.take_append_drop n s.events.queue).symm.trans (by rw [h]; rfl)
  · rw [State.markReturned_of_ne_nil h]

/-- R337: a read changes the port, the marks of the queue and the newest record returned. -/
theorem State.markReturned_respond_rest (s : State) (r : List Byte) (n : Nat) :
    (s.markReturned n).respond r = { s with
      port := ((s.markReturned n).respond r).port
      events := { s.events with
        queue := (s.markReturned n).events.queue, returned := (s.markReturned n).events.returned } } := by
  by_cases h : s.events.queue.take n = []
  · rw [State.markReturned_of_nil h]
    rfl
  · rw [State.markReturned_of_ne_nil h]
    rfl

/-- R337: what a read marks does not depend on the response. -/
theorem State.respond_markReturned (s : State) (r : List Byte) (n : Nat) :
    (s.respond r).markReturned n = (s.markReturned n).respond r := by
  by_cases h : s.events.queue.take n = []
  · rw [State.markReturned_of_nil h, State.markReturned_of_nil (s := s.respond r) h]
  · rw [State.markReturned_of_ne_nil h, State.markReturned_of_ne_nil (s := s.respond r) h]
    rfl

/-- R337: read events, with the event domain on. -/
theorem execReadEvents_of_on {st : Byte} {s : State} (selected : s.selected st = true) (on : s.isOn domEvent = true)
    (n : Byte) : execReadEvents st n s = .next ((s.markReturned n.toNat).respond (s.readResponse n.toNat)) :=
  (served_of_on selected on).trans (congrArg _ (State.respond_markReturned ..))

/-- Settles O38: each command by its equation; what read events changes is what it marks (R334, R337, R338, R341 to
R343). -/
theorem eventPortAnswers : Obligations.EventPortAnswers := by
  unfold Obligations.EventPortAnswers
  intro st s
  refine ⟨fun selected => ⟨fun n on => ?read, fun _ on => served_of_on selected on, fun _ => rfl,
    fun _ on => served_of_on selected on, ite_of_selected selected, ite_of_selected selected,
    ite_of_selected selected, ite_of_selected selected⟩, fun unselected n tEnd => ?silent⟩
  case read =>
    refine ⟨_, execReadEvents_of_on selected on n, rfl, (State.markReturned_queue s _).trans (markFirst_eq ..),
      fun empty => congrArg (·.events.returned) (State.markReturned_of_nil empty), fun nonempty => ?_, ?_⟩
    · rw [State.respond_events, State.markReturned_of_ne_nil nonempty]
    · exact State.markReturned_respond_rest ..
  case silent =>
    simp only [List.forall_mem_cons, List.not_mem_nil, false_implies, implies_true, and_true]
    have silence (answer : Result) := ite_of_unselected (silent := .next (s.respond [])) (answer := answer) unselected
    exact ⟨silence _, silence _, silence _, silence _, silence _, silence _, silence _⟩

/-- R334, R335: an answer that begins with the good status is not the busy answer. -/
theorem good_ne_busy (data : List Byte) : 0x5A#8 :: data ≠ [0xC3#8] :=
  fun h => absurd (List.head_eq_of_cons_eq h) (by decide)

/-- Settles O39: what the event domain serves meets its domain's test, and what the thimble serves does not (R335). -/
theorem sleepingEventDomainAnswersBusy : Obligations.SleepingEventDomainAnswersBusy := by
  unfold Obligations.SleepingEventDomainAnswersBusy
  intro st s selected asleep
  constructor
  case left =>
    intro n tEnd
    simp only [List.forall_mem_cons, List.not_mem_nil, false_implies, implies_true, and_true]
    exact ⟨served_of_asleep selected asleep, served_of_asleep selected asleep, served_of_asleep selected asleep⟩
  case right =>
    simp only [List.forall_mem_cons, List.not_mem_nil, false_implies, implies_true, and_true]
    exact ⟨⟨_, ite_of_selected selected, good_ne_busy _, rfl⟩, ⟨_, ite_of_selected selected, good_ne_busy _, rfl⟩,
      ⟨_, ite_of_selected selected, good_ne_busy _, rfl⟩, ⟨_, ite_of_selected selected, good_ne_busy _, rfl⟩⟩

/-! ### A transaction cut short -/

/-- R334: a response of at least one byte is clocked out, and then zeros. -/
theorem clockedBytes_of_ne_nil {r : List Byte} (nonempty : r ≠ []) (m : Nat) :
    clockedBytes r m = (r ++ List.replicate (m - r.length) 0).take m :=
  if_neg (mt List.isEmpty_iff.mp nonempty)

/-- R334, R338: the answer to an acknowledgement has 7 bytes. -/
theorem State.drainResponse_length (s : State) : s.drainResponse.length = 7 := by
  rw [State.drainResponse, reply, withCrc_length, List.length_cons, List.length_append, leBytes_length, leBytes_length]

section

variable {st : Byte} {s : State} (selected : s.selected st = true)

include selected

/-- R339, R341: 0x21 has loaded the latch with its command byte, whatever of the rest has come. -/
theorem cutShort_lowHalf (args : List Byte) (k m : Nat) :
    execTransactionCutShort (st :: 0x21#8 :: args) k m s =
      .next (s.loadLatch.respond (clockedBytes (s.cutResponse (st :: 0x21#8 :: args)) m)) :=
  ite_of_selected selected

/-- R339: a T_end of which one byte is missing releases nothing. -/
theorem cutShort_drain_of_half (on : s.isOn domEvent = true) (lo : Byte) (k m : Nat) :
    execTransactionCutShort [st, 0x0E#8, lo] k m s = .next (s.respond []) :=
  (ite_of_selected selected).trans (if_neg (by rw [on]; decide))

/-- R338, R339: a T_end that has come whole releases. -/
theorem cutShort_drain (on : s.isOn domEvent = true) (lo hi : Byte) (args : List Byte) (k m : Nat) :
    let w := s.drain (BitVec.ofNat 16 (leNat [lo, hi]))
    execTransactionCutShort (st :: 0x0E#8 :: lo :: hi :: args) k m s =
      .next (w.respond (clockedBytes w.drainResponse m)) :=
  (ite_of_selected selected).trans (if_neg (by rw [on]; decide))

/-- R337, R339: the records that a read cut short has clocked out whole count as returned. -/
theorem cutShort_read (on : s.isOn domEvent = true) (n : Byte) (k m : Nat) :
    execTransactionCutShort [st, 0x0B#8, n] k m s =
      .next ((s.markReturned (cutRecords n.toNat m)).respond (clockedBytes (s.cutResponse [st, 0x0B#8, n]) m)) := by
  refine Eq.trans ?_ (congrArg _ (State.respond_markReturned ..))
  exact (ite_of_selected selected).trans (if_neg (by rw [on]; decide))

/-- R335, R339: a command of the event domain that meets it not on raises the wake with its command byte. -/
theorem cutShort_asleep (asleep : s.isOn domEvent = false) {c : Byte} (served : c ∈ [0x0B#8, 0x0E#8, 0x05#8])
    (args : List Byte) (k m : Nat) :
    execTransactionCutShort (st :: c :: args) k m s =
      .next (s.busy.respond (clockedBytes (s.cutResponse (st :: c :: args)) m)) := by
  have guard : ((c == 0x0B || c == 0x0E || c == 0x05) && !s.isOn domEvent) = true := by
    simpa [asleep, or_assoc] using served
  exact (ite_of_selected selected).trans (if_pos guard)

end

/-- R335: once the byte after the command has come, the response of a sleeping event domain is the busy byte. -/
theorem State.cutResponse_of_asleep {s : State} (asleep : s.isOn domEvent = false) {c : Byte}
    (served : c ∈ [0x0B#8, 0x0E#8, 0x05#8]) (st n : Byte) (rest : List Byte) :
    s.cutResponse (st :: c :: n :: rest) = [0xC3#8] := by
  have busy (answer : List Byte) : (if s.isOn domEvent then answer else [0xC3#8]) = [0xC3#8] :=
    if_neg (Bool.eq_false_iff.mp asleep)
  simp only [List.mem_cons, List.not_mem_nil, or_false] at served
  obtain rfl | rfl | rfl := served
  · exact busy _
  · exact busy _
  · exact busy _

/-- R334, R338: the clocked bytes of the answer to an acknowledgement: its 7 bytes, then zeros. -/
theorem State.clockedBytes_drainResponse (s : State) (m : Nat) :
    clockedBytes s.drainResponse m = (withCrc (0x5A#8 :: (leBytes 2 s.events.oldest.toNat ++
      leBytes 2 s.events.queue.length)) ++ List.replicate (m - 7) 0).take m := by
  have length := State.drainResponse_length s
  rw [clockedBytes_of_ne_nil (List.ne_nil_of_length_pos (by omega)), length]
  rfl

/-- Settles O40: each form of a transaction cut short by its equation (R334, R335, R339). -/
theorem cutTransactionsComplete : Obligations.CutTransactionsComplete := by
  unfold Obligations.CutTransactionsComplete
  intro st k m s
  refine ⟨⟨_, rfl, rfl⟩, ⟨_, rfl, rfl⟩, fun selected on => ⟨?lowHalf, ?half, ?drain, ?read⟩, fun selected asleep => ?busy⟩
  case lowHalf => exact fun args => ⟨_, cutShort_lowHalf selected args k m, rfl, rfl⟩
  case half => exact fun lo => cutShort_drain_of_half selected on lo k m
  case drain =>
    exact fun lo hi args => ⟨_, cutShort_drain selected on lo hi args k m, State.respond_events ..,
      State.clockedBytes_drainResponse (s.drain (BitVec.ofNat 16 (leNat [lo, hi]))) m⟩
  case read =>
    exact fun n => ⟨_, cutShort_read selected on n k m, State.respond_events ..⟩
  case busy =>
    intro c served
    refine ⟨cutShort_asleep selected asleep served [] k m, fun n rest => ?_⟩
    refine (cutShort_asleep selected asleep served (n :: rest) k m).trans ?_
    rw [State.cutResponse_of_asleep asleep served]
    rfl

end Sys2Proof.Machine

/-! SUPPORT. One step of the queue, and the nanosecond that passes while it is empty. -/

namespace Sys2Proof.Machine

/-- Settles O1: with a command in front, `step` takes the arm that runs it on the queue's rest. -/
theorem stepRunsTheFrontCommand : Obligations.StepRunsTheFrontCommand := by
  unfold Obligations.StepRunsTheFrontCommand
  intro c rest s
  rfl

theorem step_of_empty {s : State} (empty : s.pending = []) : step s = .next s.tick := by
  rw [step, empty]

/-- R463: while XT32 runs, a nanosecond moves the wall timebase by as much and takes no free value. -/
theorem State.tick_of_xt32 {s : State} (xt : s.time.xt32 = true) :
    s.tick = { s with clock := s.clock + 1000, time := { s.time with wall := s.time.wall + 1000 } } := by
  rw [State.tick, State.wallAdvance, if_pos xt, if_pos xt]

/-- Settles O2 (R463, log 4). -/
theorem emptyQueuePassesOneNanosecond : Obligations.EmptyQueuePassesOneNanosecond := by
  unfold Obligations.EmptyQueuePassesOneNanosecond
  intro s empty xt
  rw [step_of_empty empty, State.tick_of_xt32 xt]

end Sys2Proof.Machine

/-! SUPPORT. The training of a seam link: an equation per state that it leaves and per cause of failure. -/

namespace Sys2Proof.Machine

section

variable {q : SeamId} {s : State}

/-- R357: with SEAMCLK, a port that detects a signal leaves DETECT for LOCK, and the overall time starts. -/
theorem execLinkSignalDetect_of_detect (detect : s.seams[q].link = .detect) (clk : s.power.seamclk = true) :
    execLinkSignalDetect q s =
      .next (s.updSeam q fun p => { p.enter .lock s.clock with leftDetect := some s.clock }) := by
  simp only [execLinkSignalDetect, detect]
  exact when_of_true clk

/-- R378: a signal at a sleeping port raises the seam wake. -/
theorem execLinkSignalDetect_of_asleep (asleep : s.seams[q].link = .standby ∨ s.seams[q].link = .off) :
    execLinkSignalDetect q s = .next (s.raiseWake 0x12 q.val [domSeam q.val]).settle := by
  obtain standby | off := asleep
  · simp only [execLinkSignalDetect, standby]
  · simp only [execLinkSignalDetect, off]

/-- R358: with every lane locked the port goes on to IDENTIFY and keeps the lanes' polarity. -/
theorem execLaneLock_of_lock (inv : BitVec 4) (lock : s.seams[q].link = .lock) :
    execLaneLock q inv s = .next (s.updSeam q fun p => { p.enter .identify s.clock with inverted := inv }) := by
  simp only [execLaneLock, lock]

/-- R358: the lanes must come straight or reversed (cause 2), from the opposite port (cause 3). -/
theorem execLaneIdentify_of_identify (lanes : List Nat) (partner : Fin 4) (identify : s.seams[q].link = .identify) :
    execLaneIdentify q lanes partner s = if lanes = [0, 1, 2, 3] ∨ lanes = [3, 2, 1, 0] then
      if partner = oppositePort q then
        .next (s.updSeam q fun p => { p.enter .deskew s.clock with reversed := lanes == [3, 2, 1, 0] })
      else .next (s.failLink q 3).settle
    else .next (s.failLink q 2).settle := by
  simp only [execLaneIdentify, identify]

/-- R357, R378: with at most 20 ns of skew a port goes on to MEASURE, or, leaving STANDBY with a ρ, to READY. -/
theorem execLaneDeskew_of_deskew {skew : Nat} (deskew : s.seams[q].link = .deskew) (within : skew ≤ 20000) :
    execLaneDeskew q skew s =
      .next (s.updSeam q fun p => p.enter (if p.quick && p.rho.isSome then .ready else .measure) s.clock) := by
  simp only [execLaneDeskew, deskew]
  exact when_of_true (decide_eq_true within)

/-- R359: the largest of sixteen round trips gives ρ, unless it is above 600 ns (cause 4). -/
theorem execRoundTripMeasure_of_measure {trips : List Nat} (measure : s.seams[q].link = .measure)
    (sixteen : trips.length = 16) :
    execRoundTripMeasure q trips s = if 6000 < 64 * trips.foldl max 0 then .next (s.failLink q 4).settle
      else .next (s.updSeam q fun p =>
        { p.enter .ready s.clock with rho := some ((rne ((64 * trips.foldl max 0 : Nat) : Int) 10).toNat) }) := by
  simp only [execRoundTripMeasure, measure]
  exact if_neg (not_not_intro sixteen)

/-- R360: a port that is ready comes up, and its first message is HELLO. -/
theorem execLinkUp_of_ready (ready : s.seams[q].link = .ready) :
    execLinkUp q s = .next (((s.releaseHolds q).updSeam q fun p => p.comeUp s.clock).sendHello q) := by
  simp only [execLinkUp, ready]

/-- R357: a training state that has lasted too long fails with cause 1. -/
theorem execTrainingTimeout_of_expired (expired : s.seams[q].trainingExpired s.clock = true) :
    execTrainingTimeout q s = .next (s.failLink q 1).settle :=
  when_of_true expired

end

/-- Settles O42: each training command by its equation in the state that it serves (R357 to R360, R378). -/
theorem trainingCompletes : Obligations.TrainingCompletes := by
  unfold Obligations.TrainingCompletes
  intro q s
  refine ⟨execLinkSignalDetect_of_detect, execLinkSignalDetect_of_asleep, execLaneLock_of_lock,
    fun lanes partner identify => ?identify, fun skew => execLaneDeskew_of_deskew,
    fun trips measure sixteen => ?measure, execLinkUp_of_ready, execTrainingTimeout_of_expired⟩
  case identify =>
    have answer := execLaneIdentify_of_identify lanes partner identify
    refine ⟨fun known opposite => ?_, fun straight reversed => ?_, fun known other => ?_⟩
    · exact answer.trans ((if_pos known).trans (if_pos opposite))
    · exact answer.trans (if_neg (not_or.mpr ⟨straight, reversed⟩))
    · exact answer.trans ((if_pos known).trans (if_neg other))
  case measure =>
    have answer := execRoundTripMeasure_of_measure measure sixteen
    exact ⟨fun within => answer.trans (if_neg (not_lt.mpr within)), fun above => answer.trans (if_pos above)⟩

end Sys2Proof.Machine

/-! SUPPORT. The flits of a seam link: what a discarded flit, one taken in sequence and one of link control change. -/

namespace Sys2Proof.Machine

/-! ### One port changed -/

theorem Vector.upd_of_fixed {α : Type} {n : Nat} {v : Vector α n} {i : Fin n} {f : α → α} (fixed : f v[i] = v[i]) :
    Vector.upd v i f = v := by
  rw [Vector.upd, fixed]
  exact Vector.set_getElem_self _

/-- Changes that give a port the same value give the same state. -/
theorem State.updSeam_congr {s : State} {q : SeamId} {f g : Seam → Seam} (same : f s.seams[q] = g s.seams[q]) :
    s.updSeam q f = s.updSeam q g := by
  unfold State.updSeam
  rw [Vector.upd_congr same]

theorem State.updSeam_of_fixed {s : State} {q : SeamId} {f : Seam → Seam} (fixed : f s.seams[q] = s.seams[q]) :
    s.updSeam q f = s := by
  unfold State.updSeam
  rw [Vector.upd_of_fixed fixed]

/-! ### The sequence -/

/-- R371: a discarded flit sets NAK; the instant of the first discard stays (log 124). -/
theorem Seam.refuseFlit_eq (p : Seam) (clock : Nat) :
    p.refuseFlit clock = { p with nak := true, nakSince := if p.nak then p.nakSince else clock } := by
  unfold Seam.refuseFlit
  cases nak : p.nak
  · rfl
  · simp only [if_true]
    rw [← nak]

/-- R371: an accepted flit ends the discarding. -/
theorem Seam.endNak_nak (p : Seam) (clock : Nat) : (p.endNak clock).nak = false := by
  unfold Seam.endNak
  split
  · rfl
  · exact Bool.eq_false_iff.mpr ‹_›

section

variable {q : SeamId} {f : Flit} {s s' : State}

/-- R371: a flit with the number expected is taken. -/
theorem State.sequence_of_expected (expected : BitVec.ofNat 12 (uAt f 2 2) = s.seams[q].rxSeq) :
    s.sequence q f = (true, s.updSeam q fun p => { p.endNak s.clock with rxSeq := p.rxSeq + 1 }) :=
  if_pos (beq_iff_eq.mpr expected)

/-- R371: a flit with another number is discarded. -/
theorem State.sequence_of_other (other : BitVec.ofNat 12 (uAt f 2 2) ≠ s.seams[q].rxSeq) :
    s.sequence q f = (false, s.updSeam q fun p => p.refuseFlit s.clock) :=
  if_neg (mt beq_iff_eq.mp other)

theorem State.sequence_fst (s : State) (q : SeamId) (f : Flit) :
    (s.sequence q f).1 = decide (BitVec.ofNat 12 (uAt f 2 2) = s.seams[q].rxSeq) := by
  by_cases expected : BitVec.ofNat 12 (uAt f 2 2) = s.seams[q].rxSeq
  · rw [State.sequence_of_expected expected, decide_eq_true expected]
  · rw [State.sequence_of_other expected, decide_eq_false expected]

/-- R363, R371: a flit that is taken moves the expected number on and clears NAK. -/
theorem State.sequence_taken (taken : (s.sequence q f).1 = true) :
    (s.sequence q f).2.seams[q].rxSeq = s.seams[q].rxSeq + 1 ∧ (s.sequence q f).2.seams[q].nak = false := by
  rw [State.sequence_fst, decide_eq_true_eq] at taken
  rw [State.sequence_of_expected taken, State.updSeam_seams, Vector.upd_same]
  exact ⟨rfl, Seam.endNak_nak _ _⟩

/-- R371: a flit that is discarded sets NAK and leaves the expected number. -/
theorem State.sequence_discarded (discarded : (s.sequence q f).1 = false) :
    (s.sequence q f).2.seams[q].rxSeq = s.seams[q].rxSeq ∧ (s.sequence q f).2.seams[q].nak = true := by
  rw [State.sequence_fst, decide_eq_false_iff_not] at discarded
  rw [State.sequence_of_other discarded, State.updSeam_seams, Vector.upd_same, Seam.refuseFlit_eq]
  exact ⟨rfl, rfl⟩

theorem State.updSeam_refuseFlit (s : State) (q : SeamId) :
    (s.updSeam q fun p => p.refuseFlit s.clock) =
      s.updSeam q fun p => { p with nak := true, nakSince := if p.nak then p.nakSince else s.clock } :=
  State.updSeam_congr (Seam.refuseFlit_eq _ _)

/-! ### The flits -/

/-- R379: TRAIN blocks in a flit's place fail a link that is up with cause 9 (log 22). -/
theorem execDataFlit_of_train (up : s.seams[q].link = .up) : execDataFlit q [] s = .next (s.failLink q 9).settle := by
  simp only [execDataFlit, up]
  rfl

/-- R371: a flit whose CRC fails is discarded with every field. -/
theorem execDataFlit_of_bad (up : s.seams[q].link = .up) (bytes : f ≠ []) (bad : flitGood f = false) :
    execDataFlit q f s = .next (s.updSeam q fun p => p.refuseFlit s.clock) := by
  simp only [execDataFlit, up]
  rw [if_neg (mt List.isEmpty_iff.mp bytes), if_pos (by rw [bad]; rfl)]

/-- R363, R371: a good data flit applies its fields, then takes part in the sequence, and joins its message if it is taken
on a link that those fields have left up. -/
theorem execDataFlit_of_good (up : s.seams[q].link = .up) (bytes : f ≠ []) (good : flitGood f = true)
    (data : flitKind f = 0) :
    let r := (s.applyFields q f).sequence q f
    execDataFlit q f s = .next
      (if r.1 = true ∧ r.2.seams[q].link = .up then (r.2.assemble q f).settle else r.2.settle) := by
  intro r
  simp only [execDataFlit, up]
  rw [if_neg (mt List.isEmpty_iff.mp bytes), if_neg (by simp [good]), if_neg (not_not_intro data)]
  simp only [Bool.and_eq_true, beq_iff_eq, apply_ite State.settle]
  rfl

/-- R363: a good null flit applies its fields. -/
theorem execNullFlit_of_good (up : s.seams[q].link = .up) (good : flitGood f = true) (null : flitKind f = 1) :
    execNullFlit q f s = .next (s.applyFields q f).settle := by
  simp only [execNullFlit, up]
  exact when_of_true (by rw [good, null]; rfl)

/-- R371: a null flit whose CRC fails changes nothing. -/
theorem execNullFlit_of_bad (up : s.seams[q].link = .up) (bad : flitGood f = false) : execNullFlit q f s = .next s := by
  simp only [execNullFlit, up]
  exact when_of_false (by rw [bad]; rfl)

/-! ### Link control -/

/-- R371: a link-control flit whose CRC fails is discarded. -/
theorem State.takeControl_of_bad (up : s.seams[q].link = .up) (bad : flitGood f = false) (code : Nat) :
    s.takeControl q f code = some (false, s.updSeam q fun p => p.refuseFlit s.clock) := by
  rw [State.takeControl, if_neg (mt bne_iff_ne.mp (not_not_intro up)), if_pos (by rw [bad]; rfl)]

/-- R371: a discarded link-control flit has no effect of its own. -/
theorem controlStep_of_discarded {code : Nat} (g : State → State) (discarded : s.takeControl q f code = some (false, s')) :
    controlStep s q f code g = .next s'.settle := by
  rw [controlStep, discarded]
  rfl

/-- R371, R377: an accepted link-control flit has its effect on a link that its fields have left up. -/
theorem controlStep_of_taken {code : Nat} (g : State → State) (taken : s.takeControl q f code = some (true, s'))
    (up : s'.seams[q].link = .up) : controlStep s q f code g = .next (g s').settle := by
  rw [controlStep, taken]
  simp only [up]
  rfl

end

/-- Settles O43: data, null and link-control flits by their equations; the expected number moves as `State.sequence` says
(R363, R371, R379; log 22, 124). -/
theorem dataFlitsGoInSequence : Obligations.DataFlitsGoInSequence := by
  unfold Obligations.DataFlitsGoInSequence
  intro q f s up
  refine ⟨fun bytes bad => ?bad, fun bytes good data => ?good, execDataFlit_of_train up, execNullFlit_of_good up,
    fun bad => ⟨execNullFlit_of_bad up bad, ?control⟩⟩
  case bad =>
    rw [← State.updSeam_refuseFlit]
    exact execDataFlit_of_bad up bytes bad
  case good =>
    exact ⟨State.sequence_fst _ q f, State.sequence_taken, State.sequence_discarded,
      execDataFlit_of_good up bytes good data⟩
  case control =>
    rw [← State.updSeam_refuseFlit]
    have discarded (code : Nat) (g : State → State) :
        controlStep s q f code g = .next (s.updSeam q fun p => p.refuseFlit s.clock).settle :=
      controlStep_of_discarded g (State.takeControl_of_bad up bad code)
    simp only [List.forall_mem_cons]
    exact ⟨discarded 1 _, discarded 2 _, discarded 3 _, discarded 4 _, fun _ none => nomatch none⟩

end Sys2Proof.Machine

/-! SUPPORT. What ends or breaks on a seam link by itself: slots, retries, stalls, failures and the loss of SEAMCLK. -/

namespace Sys2Proof.Machine

section

variable {q : SeamId} {s : State}

/-- R368, R377: a slot frees what is free, sends what is due, and gives up an entry that data or a vote meets at its end. -/
theorem execFlitSlot_of_up (up : s.seams[q].link = .up) :
    let w := (s.freeSlots q).updSeam q fun p => (p.slot s.clock).noteStalls s.clock
    execFlitSlot q s = .next
      (if s.seams[q].endsStep && w.seams[q].sleep != .none && w.seamWanted q then w.abortSleep q else w) := by
  simp only [execFlitSlot, up]

theorem Seam.timedOut_of_cons {p : Seam} {x : SentFlit} {rest : List SentFlit} {clock : Nat}
    (oldest : p.retry = x :: rest) (waited : x.sentAt + usPs ≤ clock) :
    p.timedOut clock = decide (x.flit.seqNo ∉ p.resend) := by
  simp only [Seam.timedOut, oldest]
  simp [waited]

/-- R372: the sender goes back once its oldest flit has waited 1 µs. -/
theorem execRetryTimeout_of_waited {x : SentFlit} {rest : List SentFlit} (up : s.seams[q].link = .up)
    (oldest : s.seams[q].retry = x :: rest) (waited : x.sentAt + usPs ≤ s.clock) :
    execRetryTimeout q s = .next (if x.flit.seqNo ∉ s.seams[q].resend then (s.goBack q).settle else s) := by
  rw [execRetryTimeout, when, Seam.timedOut_of_cons oldest waited, up]
  simp only [beq_self_eq_true, Bool.true_and, decide_eq_true_eq]

/-- R373: an episode of 2 µs fails the link with cause 5. -/
theorem execRetryBudgetExpiry_of_long {e : Episode} (up : s.seams[q].link = .up) (episode : s.seams[q].episode = some e)
    (long : e.since + 2 * usPs ≤ s.clock) : execRetryBudgetExpiry q s = .next (s.failLink q 5).settle := by
  simp only [execRetryBudgetExpiry, up, episode, Option.map_some, Option.getD_some, decide_eq_true long]
  rfl

/-- R379: a cause that fails a link that is up. -/
theorem failWhileUp_of_up (up : s.seams[q].link = .up) (cause : Nat) :
    failWhileUp q cause s = .next (s.failLink q cause).settle :=
  when_of_true (beq_iff_eq.mpr up)

/-- R379: 100 µs without credit fail the link with cause 8. -/
theorem execCreditStall_of_long {vc : Fin 4} {t : Nat} (up : s.seams[q].link = .up)
    (stalled : s.seams[q].stalled[vc] = some t) (long : t + 100 * usPs ≤ s.clock) :
    execCreditStall q vc s = .next (s.failLink q 8).settle := by
  simp only [execCreditStall, up, stalled, Option.map_some, Option.getD_some, decide_eq_true long]
  rfl

/-- R380: 10 µs after its failure a port's idle is over, and it trains from DETECT. -/
theorem Seam.retrain_of_over {p : Seam} {clock : Nat}
    (finished : p.link = .idleFailed ∧ p.stateSince + 10 * usPs ≤ clock) :
    p.retrain clock = { p with link := .detect, stateSince := clock } :=
  if_pos (by rw [finished.1, decide_eq_true finished.2]; rfl)

theorem Seam.retrain_of_not_over {p : Seam} {clock : Nat}
    (not_over : ¬ (p.link = .idleFailed ∧ p.stateSince + 10 * usPs ≤ clock)) : p.retrain clock = p :=
  if_neg (by simpa using not_over)

/-- R380: with a vote for its domain a port whose failure idle is over trains from DETECT. -/
theorem execFailureIdleEnd_of_voted (voted : s.votedOn (domSeam q.val) = true)
    (finished : s.seams[q].link = .idleFailed ∧ s.seams[q].stateSince + 10 * usPs ≤ s.clock) :
    execFailureIdleEnd q s = .next (s.updSeam q fun p => { p with link := .detect, stateSince := s.clock }) :=
  (when_of_true voted).trans (congrArg Host.Outcome.next (State.updSeam_congr (Seam.retrain_of_over finished)))

/-- R376: without a vote it stays in idle. -/
theorem execFailureIdleEnd_of_unvoted (unvoted : s.votedOn (domSeam q.val) = false) :
    execFailureIdleEnd q s = .next s :=
  when_of_false unvoted

/-- R380, R471: the return of SEAMCLK at one port. -/
theorem State.retrain_of_voted (s : State) (q : SeamId) :
    (if s.votedOn (domSeam q.val) then s.updSeam q fun p => p.retrain s.clock else s) =
      if s.votedOn (domSeam q.val) = true ∧ s.seams[q].link = .idleFailed ∧
        s.seams[q].stateSince + 10 * usPs ≤ s.clock
      then s.updSeam q fun p => { p with link := .detect, stateSince := s.clock } else s := by
  by_cases voted : s.votedOn (domSeam q.val) = true
  · by_cases finished : s.seams[q].link = .idleFailed ∧ s.seams[q].stateSince + 10 * usPs ≤ s.clock
    · rw [if_pos voted, if_pos ⟨voted, finished⟩]
      exact State.updSeam_congr (Seam.retrain_of_over finished)
    · rw [if_pos voted, if_neg fun h => finished h.2]
      exact State.updSeam_of_fixed (Seam.retrain_of_not_over finished)
  · rw [if_neg voted, if_neg fun h => voted h.1]

/-- R471: the loss of SEAMCLK fails every powered port with cause 7. -/
theorem execSeamclkLoss_of_running (clk : s.power.seamclk = true) : execSeamclkLoss s = .next
    (allPorts.foldl (fun (s : State) q => if s.seams[q].link.powered then s.failLink q 7 else s)
      { s with power := { s.power with seamclk := false } }).settle :=
  when_of_true clk

/-- R380, R471: with SEAMCLK back, the ports whose failure idle is over and that are voted on train again. -/
theorem execSeamclkReturn_of_lost (lost : s.power.seamclk = false) : execSeamclkReturn s = .next
    (allPorts.foldl (fun (s : State) q =>
      if s.votedOn (domSeam q.val) = true ∧ s.seams[q].link = .idleFailed ∧ s.seams[q].stateSince + 10 * usPs ≤ s.clock
      then s.updSeam q fun p => { p with link := .detect, stateSince := s.clock } else s)
      { s with power := { s.power with seamclk := true } }) := by
  simp only [← State.retrain_of_voted]
  exact when_of_true (by rw [lost]; rfl)

end

/-- Settles O44: the slot, the timers and the failures by their equations, and the ports one by one at the return of SEAMCLK
(R368, R372, R373, R377, R379, R380, R471). -/
theorem linkTimersComplete : Obligations.LinkTimersComplete := by
  unfold Obligations.LinkTimersComplete
  intro q s
  refine ⟨fun up => ⟨execFlitSlot_of_up up, fun x rest oldest waited => ?retry, fun e => execRetryBudgetExpiry_of_long up,
    failWhileUp_of_up up 6, failWhileUp_of_up up 7, fun vc t => execCreditStall_of_long up⟩,
    fun idle passed => ⟨fun voted => execFailureIdleEnd_of_voted voted ⟨idle, passed⟩, execFailureIdleEnd_of_unvoted⟩,
    execSeamclkLoss_of_running, execSeamclkReturn_of_lost⟩
  case retry =>
    have answer := execRetryTimeout_of_waited up oldest waited
    exact ⟨fun waits => answer.trans (by rw [if_pos waits]),
      fun resent => answer.trans (by rw [if_neg (not_not_intro resent)])⟩

end Sys2Proof.Machine

/-! SUPPORT. A seam port and its domain: what a change of one domain does to the state of each, and what follows a command
leaves of a port whose domain is not on. -/

namespace Sys2Proof.Machine

/-! ### One domain changed -/

/-- A change that keeps the ids, at the first domain with an id, is found under that id. -/
theorem find?_updFirst_same (l : List Domain) (id : Nat) {f : Domain → Domain} (ids : ∀ d, (f d).id = d.id) :
    (updFirst (·.id == id) f l).find? (·.id == id) = (l.find? (·.id == id)).map f := by
  induction l with
  | nil => rfl
  | cons d l ih =>
    by_cases here : (d.id == id) = true
    · simp [updFirst, ids, here]
    · simp [updFirst, here, ih]

/-- It leaves what is found under another id. -/
theorem find?_updFirst_other (l : List Domain) {id id' : Nat} (ne : id' ≠ id) {f : Domain → Domain}
    (ids : ∀ d, (f d).id = d.id) :
    (updFirst (·.id == id') f l).find? (·.id == id) = l.find? (·.id == id) := by
  induction l with
  | nil => rfl
  | cons d l ih =>
    by_cases here : (d.id == id') = true
    · have away : ¬ (d.id == id) = true := fun h => ne ((beq_iff_eq.mp here).symm.trans (beq_iff_eq.mp h))
      simp [updFirst, ids, here, away]
    · simp [updFirst, here, List.find?_cons, ih]

theorem State.updDom_dom_other (s : State) {id id' : Nat} (ne : id' ≠ id) {f : Domain → Domain}
    (ids : ∀ d, (f d).id = d.id) : (s.updDom id' f).dom id = s.dom id := by
  simp only [State.dom, State.updDom]
  rw [find?_updFirst_other _ ne ids]

theorem State.updDom_dom (s : State) (id : Nat) {f : Domain → Domain} (ids : ∀ d, (f d).id = d.id) :
    (s.updDom id f).dom id = ((s.power.domains.find? (·.id == id)).map fun d => (f d).st).getD .off := by
  simp only [State.dom, State.updDom]
  rw [find?_updFirst_same _ _ ids, Option.map_map]
  rfl

/-- A domain of the device that is set to a state is in that state. -/
theorem State.updDom_dom_same {s : State} {id : Nat} (has : (s.power.domains.any fun d => d.id == id) = true)
    {f : Domain → Domain} {st : DomState} (ids : ∀ d, (f d).id = d.id) (sets : ∀ d, (f d).st = st) :
    (s.updDom id f).dom id = st := by
  obtain ⟨d, found⟩ := Option.isSome_iff_exists.mp (List.find?_isSome.mpr (List.any_eq_true.mp has))
  rw [State.updDom_dom s id ids, found]
  exact sets d

/-- A domain that is set to another state than on is not on. -/
theorem State.updDom_low (s : State) (id : Nat) {f : Domain → Domain} (ids : ∀ d, (f d).id = d.id)
    (low : ∀ d, (f d).st ≠ .on) : (s.updDom id f).isOn id = false := by
  rw [State.isOn, State.updDom_dom s id ids]
  cases s.power.domains.find? (·.id == id) with
  | none => rfl
  | some d => exact beq_eq_false_iff_ne.mpr (low d)

/-! ### What leaves a port and its domain alone -/

/-- The domain of a port keeps its state, and the port's link keeps its own, unless it waits in failure idle. -/
structure PortKept (q : SeamId) (s t : State) : Prop where
  dom : t.dom (domSeam q.val) = s.dom (domSeam q.val)
  link : s.seams[q].link ≠ .idleFailed → t.seams[q].link = s.seams[q].link

variable {q : SeamId}

theorem PortKept.refl (s : State) : PortKept q s s := ⟨rfl, fun _ => rfl⟩

theorem PortKept.trans {s t u : State} (h : PortKept q s t) (k : PortKept q t u) : PortKept q s u where
  dom := k.dom.trans h.dom
  link awake := (k.link (by rw [h.link awake]; exact awake)).trans (h.link awake)

/-- As `PortKept.trans`, the later part first. -/
theorem PortKept.after {s t u : State} (k : PortKept q t u) (h : PortKept q s t) : PortKept q s u := h.trans k

theorem PortKept.ite {c : Prop} [Decidable c] {s a b : State} (h : PortKept q s a) (k : PortKept q s b) :
    PortKept q s (if c then a else b) := by
  split
  · exact h
  · exact k

theorem PortKept.foldl {α : Type} {f : State → α → State} (l : List α) (h : ∀ x ∈ l, ∀ s, PortKept q s (f s x))
    (s : State) : PortKept q s (l.foldl f s) := by
  induction l generalizing s with
  | nil => exact PortKept.refl _
  | cons a l ih =>
    exact (h a List.mem_cons_self s).trans (ih (fun x mem => h x (List.mem_cons_of_mem a mem)) _)

theorem State.updSeam_portKept (s : State) (q' : SeamId) {f : Seam → Seam}
    (keeps : s.seams[q'].link ≠ .idleFailed → (f s.seams[q']).link = s.seams[q'].link) :
    PortKept q s (s.updSeam q' f) where
  dom := rfl
  link awake := by
    rw [State.updSeam_seams]
    by_cases same : q = q'
    · subst same
      rw [Vector.upd_same]
      exact keeps awake
    · rw [Vector.upd_other _ _ _ _ same]

theorem State.updDom_portKept (s : State) {id : Nat} (ne : id ≠ domSeam q.val) {f : Domain → Domain}
    (ids : ∀ d, (f d).id = d.id) : PortKept q s (s.updDom id f) :=
  ⟨State.updDom_dom_other s ne ids, fun _ => rfl⟩

/-! ### Records -/

theorem Seam.enqueue_link (p : Seam) (vc : Nat) (fs : List OutFlit) : (p.enqueue vc fs).link = p.link := by
  unfold Seam.enqueue
  split <;> rfl

theorem Seam.store_link (p : Seam) (r : Record) : (p.store r).1.link = p.link := by
  unfold Seam.store
  split <;> rfl

theorem State.queueOn_portKept (s : State) (q' : SeamId) (vc type : Nat) (dest src : Addr) (payload : List Byte)
    (line : Option LineSeq) (arrived : Option Nat) :
    PortKept q s (s.queueOn q' vc type dest src payload line arrived) :=
  State.updSeam_portKept _ _ fun _ => Seam.enqueue_link ..

theorem State.queueEvent_portKept (s : State) (q' : SeamId) (dest src : Addr) (r : Record) :
    PortKept q s (s.queueEvent q' dest src r) := by
  have stored (t : State) (f : Seam → Seam) (h : ∀ p, (f p).link = p.link) :
      PortKept q t (t.updSeam q' fun _ => f (t.seams[q'].store r).1) :=
    State.updSeam_portKept _ _ fun _ => (h _).trans (Seam.store_link ..)
  unfold State.queueEvent
  refine PortKept.after ?_ (State.queueOn_portKept s q' vcEvent 0x20 dest src r.toBytes none none)
  exact PortKept.ite
    ((stored _ (fun p => { p with dropped := satAdd 32 p.dropped 1 }) fun _ => rfl).trans ⟨rfl, fun _ => rfl⟩)
    (stored _ id fun _ => rfl)

theorem State.relay_portKept (s : State) (r : Record) : PortKept q s (s.relay r) := by
  unfold State.relay
  refine PortKept.ite ?_ (PortKept.refl s)
  split
  · exact PortKept.ite (State.queueEvent_portKept ..) (State.updSeam_portKept _ _ fun _ => rfl)
  · exact PortKept.refl s

theorem State.tryLoss_portKept (s : State) : PortKept q s s.tryLoss := by
  unfold State.tryLoss
  exact PortKept.ite ((State.relay_portKept ..).after ⟨rfl, fun _ => rfl⟩) (PortKept.refl s)

theorem State.enterRecord_portKept (s : State) (r : Record) : PortKept q s (s.enterRecord r) := by
  refine PortKept.trans ?_ (State.tryLoss_portKept _)
  unfold State.enterOne
  exact PortKept.ite ⟨rfl, fun _ => rfl⟩ ((State.relay_portKept ..).after ⟨rfl, fun _ => rfl⟩)

theorem State.submit_portKept (s : State) (r : Record) : PortKept q s (s.submit r) := by
  unfold State.submit
  exact PortKept.ite (PortKept.refl s) (PortKept.ite (State.enterRecord_portKept ..) ⟨rfl, fun _ => rfl⟩)

theorem State.faultId_portKept (s : State) : PortKept q s s.faultId.2 := by
  unfold State.faultId
  split <;> exact ⟨rfl, fun _ => rfl⟩

theorem State.formFault_portKept (s : State) (cause unit detail : Nat) : PortKept q s (s.formFault cause unit detail).2 := by
  have formed (r : Record) := (State.faultId_portKept (q := q) s).trans (State.submit_portKept s.faultId.2 r)
  unfold State.formFault
  exact PortKept.ite ((formed _).trans ⟨rfl, fun _ => rfl⟩) (formed _)

theorem State.detect_portKept (s : State) (cause unit detail loc : Nat) :
    PortKept q s (s.detect cause unit detail loc).2 := by
  unfold State.detect
  split
  · exact PortKept.ite ⟨rfl, fun _ => rfl⟩ ⟨rfl, fun _ => rfl⟩
  · have formed := State.formFault_portKept (q := q) s cause unit detail
    exact PortKept.ite (formed.trans ⟨rfl, fun _ => rfl⟩) formed

theorem State.noteDrops_portKept (s : State) : PortKept q s s.noteDrops := by
  unfold State.noteDrops
  split
  · exact (State.detect_portKept ..).after (State.updSeam_portKept _ _ fun _ => rfl)
  · exact PortKept.refl s

/-! ### Votes -/

theorem State.retrainPort_portKept (s : State) (id : Nat) : PortKept q s (s.retrainPort id) := by
  unfold State.retrainPort
  split
  · exact State.updSeam_portKept _ _ fun awake => by rw [Seam.retrain_of_not_over fun h => awake h.1]
  · exact PortKept.refl s

theorem State.wakeDomain_portKept (s : State) {id : Nat} (ne : id ≠ domSeam q.val) : PortKept q s (s.wakeDomain id) := by
  have low (st : DomState) : PortKept q s (s.updDom id fun d => { d with st := st, since := s.clock }) :=
    State.updDom_portKept s ne fun _ => rfl
  have entering (st : DomState) : PortKept q s (s.takeFree.2.updDom id fun d => { d with st := st }) :=
    (State.updDom_portKept _ ne (f := fun d => { d with st := st }) fun _ => rfl).after ⟨rfl, fun _ => rfl⟩
  unfold State.wakeDomain
  refine PortKept.ite (PortKept.refl s) ?_
  split
  · exact State.retrainPort_portKept ..
  · exact PortKept.refl s
  · exact PortKept.ite (entering _) (entering _)
  · exact PortKept.refl s
  · exact PortKept.ite ((low _).trans ⟨rfl, fun _ => rfl⟩) (low _)

theorem State.addVote_portKept (s : State) (c : Client) {id : Nat} (ne : id ≠ domSeam q.val) (retain : Bool) :
    PortKept q s (s.addVote c id retain) := by
  have taken (v : Vote) : PortKept q s (if s.power.votes.contains v then s
      else { s with power := { s.power with votes := s.power.votes ++ [v] } }) :=
    PortKept.ite (PortKept.refl s) ⟨rfl, fun _ => rfl⟩
  unfold State.addVote
  exact (taken _).ite ((taken _).trans (State.wakeDomain_portKept _ ne))

theorem State.dropVote_portKept (s : State) (c : Client) {id : Nat} (ne : id ≠ domSeam q.val) (retain : Bool) :
    PortKept q s (s.dropVote c id retain) := by
  have retained (t : State) : PortKept q t (t.dropRetained id) :=
    PortKept.ite (State.updDom_portKept t ne fun _ => rfl) (PortKept.refl t)
  have hysteresis (t : State) : PortKept q t (t.startHysteresis id) :=
    PortKept.ite (PortKept.refl t) (State.updDom_portKept t ne fun _ => rfl)
  unfold State.dropVote
  refine PortKept.ite (PortKept.ite ?_ ?_) (PortKept.refl s)
  · exact (retained _).after ⟨rfl, fun _ => rfl⟩
  · exact (hysteresis _).after ⟨rfl, fun _ => rfl⟩

theorem domEvent_ne_domSeam (q : SeamId) : domEvent ≠ domSeam q.val := by
  simp only [domEvent, domSeam]
  omega

theorem domControl_ne_domSeam (q : SeamId) : domControl ≠ domSeam q.val := by
  simp only [domControl, domSeam]
  omega

theorem State.eventVotes_portKept (s : State) : PortKept q s s.eventVotes := by
  have ne := domEvent_ne_domSeam q
  have busy : PortKept q s
      (if s.eventBusy then s.addVote .event domEvent false else s.dropVote .event domEvent false) :=
    PortKept.ite (State.addVote_portKept _ _ ne _) (State.dropVote_portKept _ _ ne _)
  unfold State.eventVotes
  exact PortKept.ite (busy.trans (State.addVote_portKept _ _ ne _)) (busy.trans (State.dropVote_portKept _ _ ne _))

/-! ### The control sequencer and the clocks -/

theorem State.startControl_portKept (s : State) (pc : Nat) : PortKept q s (s.startControl pc) := by
  unfold State.startControl
  exact (State.addVote_portKept _ _ (domControl_ne_domSeam q) _).after ⟨rfl, fun _ => rfl⟩

theorem State.startPending_portKept (s : State) : PortKept q s s.startPending := by
  unfold State.startPending
  refine PortKept.ite ?_ (PortKept.refl s)
  split
  · dsimp only
    split
    · exact (State.startControl_portKept ..).after ⟨rfl, fun _ => rfl⟩
    · exact ⟨rfl, fun _ => rfl⟩
  · exact PortKept.refl s

theorem State.resumeWaite_portKept (s : State) : PortKept q s s.resumeWaite := by
  unfold State.resumeWaite
  split
  · exact (State.addVote_portKept _ _ (domControl_ne_domSeam q) _).after ⟨rfl, fun _ => rfl⟩
  · exact PortKept.refl s

theorem State.continueControl_portKept (s : State) : PortKept q s s.continueControl := by
  unfold State.continueControl
  refine PortKept.ite (PortKept.trans ?_ (State.startPending_portKept _)) (PortKept.refl s)
  split
  · exact PortKept.ite (PortKept.refl s) (State.resumeWaite_portKept s)
  · exact PortKept.refl s

/-- R449: the wakes whose votes end are those of domains that are on. -/
theorem State.endWakes_portKept {s : State} (low : s.isOn (domSeam q.val) = false) : PortKept q s s.endWakes := by
  refine PortKept.foldl _ (fun v ended t => State.dropVote_portKept t v.client (fun same => ?_) v.retain) s
  have on := (List.mem_filter.mp ended).2
  rw [same, low] at on
  split at on <;> exact Bool.false_ne_true on

theorem State.settleClocks_portKept (s : State) : PortKept q s s.settleClocks := by
  have request : PortKept q s s.requestPll := PortKept.ite (PortKept.refl s) ⟨rfl, fun _ => rfl⟩
  have stop : PortKept q s (if s.power.pll then
      { s with
        power := { s.power with pll := false, locked := false, coreMhz := 0, clockPending := false }
        control := { s.control with onPll := false } }
      else s) := PortKept.ite ⟨rfl, fun _ => rfl⟩ (PortKept.refl s)
  unfold State.settleClocks
  exact (request.ite stop).trans ⟨rfl, fun _ => rfl⟩

/-- What follows a command leaves the link of a port whose domain is not on, and that domain. -/
theorem State.settle_portKept {s : State} (low : s.isOn (domSeam q.val) = false) : PortKept q s s.settle := by
  have continued := (State.noteDrops_portKept (q := q) s).trans (State.continueControl_portKept _)
  have still : s.noteDrops.continueControl.isOn (domSeam q.val) = false := by
    rw [State.isOn, continued.dom]
    exact low
  have restored (t : State) : PortKept q t t.checkRestored := PortKept.ite ⟨rfl, fun _ => rfl⟩ (PortKept.refl t)
  exact (((continued.trans (State.endWakes_portKept still)).trans (State.eventVotes_portKept _)).trans (restored _)).trans
    (State.settleClocks_portKept _)

end Sys2Proof.Machine

/-! SUPPORT. The sleep of a seam link: what each link-control flit does, and electrical idle. -/

namespace Sys2Proof.Machine

section

variable {q : SeamId} {f : Flit} {s s' : State} {t : Nat}

/-- R377: SLEEP_ACK agrees the shallower target where neither data nor a vote wants the link. -/
theorem execSleepAck_of_requested (taken : s.takeControl q f 2 = some (true, s')) (up : s'.seams[q].link = .up)
    (requested : s'.seams[q].sleep = .requested t) (unwanted : s'.seamWanted q = false) :
    execSleepAck q f s = .next
      ((s'.updSeam q fun p => { p with sleep := .agreed (min t (max (uAt f 0xD 1) 1)) }).updDom (domSeam q.val)
        fun d => { d with st := .entering (min t (max (uAt f 0xD 1) 1) == 1) false }).settle := by
  refine (controlStep_of_taken _ taken up).trans ?_
  simp only [requested, unwanted, Bool.false_eq_true, if_false]

/-- R376, R377: the state in which a link sleeps at the agreed target, before what follows the command. -/
def State.fallAsleep (s : State) (q : SeamId) (t : Nat) : State :=
  ((s.updSeam q fun p =>
      if t = 1 then { p.enter .standby s.clock with sleep := .none }
      else { p.enter .off s.clock with sleep := .none, inverted := 0, reversed := false, rho := none }).updLink q fun l =>
    { l with
      everIn := l.everIn || l.inBolt, inBolt := false, broke := l.broke || l.inBolt
      sumBroke := l.sumBroke || l.inBolt }).updDom (domSeam q.val)
    fun d => { d with st := if t = 1 then .retention else .off }

/-- R377: a drained link that nothing wants sleeps. -/
theorem execElectricalIdleEntry_of_unwanted (up : s.seams[q].link = .up) (agreed : s.seams[q].sleep = .agreed t)
    (drained : s.seams[q].drained = true) (unwanted : s.seamWanted q = false) :
    execElectricalIdleEntry q s = .next (s.fallAsleep q t).settle := by
  simp only [execElectricalIdleEntry, up, agreed, drained, unwanted, Bool.not_true, Bool.false_eq_true, if_false]
  rfl

/-- R377: data or a vote at the last abort point sends WAKE. -/
theorem execElectricalIdleEntry_of_wanted (up : s.seams[q].link = .up) (agreed : s.seams[q].sleep = .agreed t)
    (drained : s.seams[q].drained = true) (wanted : s.seamWanted q = true) :
    execElectricalIdleEntry q s = .next (s.abortSleep q) := by
  simp only [execElectricalIdleEntry, up, agreed, drained, wanted, Bool.not_true, Bool.false_eq_true, if_false, if_true]

theorem State.fallAsleep_link (s : State) (q : SeamId) (t : Nat) :
    (s.fallAsleep q t).seams[q].link = if t = 1 then .standby else .off := by
  unfold State.fallAsleep
  rw [State.updDom_seams, State.updLink_seams, State.updSeam_seams, Vector.upd_same]
  split <;> rfl

/-- R384: a link that sleeps has left the bolt (log 98). -/
theorem State.fallAsleep_inBolt (s : State) (q : SeamId) (t : Nat) :
    (s.fallAsleep q t).bolt.links[q].inBolt = false := by
  unfold State.fallAsleep
  rw [State.updDom_bolt, State.updLink_links, Vector.upd_same]

theorem State.fallAsleep_dom (has : (s.power.domains.any fun d => d.id == domSeam q.val) = true) :
    (s.fallAsleep q t).dom (domSeam q.val) = if t = 1 then .retention else .off :=
  State.updDom_dom_same has (fun _ => rfl) fun _ => rfl

theorem State.fallAsleep_low (s : State) (q : SeamId) (t : Nat) : (s.fallAsleep q t).isOn (domSeam q.val) = false :=
  State.updDom_low _ _ (fun _ => rfl) fun _ => by dsimp only; split <;> decide

/-- R376, R377: a link that has gone to sleep and its domain stay so through what follows the command. -/
theorem State.settle_fallAsleep (s : State) (q : SeamId) (t : Nat) :
    (s.fallAsleep q t).settle.seams[q].link = (if t = 1 then .standby else .off) ∧
      (s.fallAsleep q t).settle.bolt.links[q].inBolt = false ∧
      ((s.power.domains.any fun d => d.id == domSeam q.val) = true →
        (s.fallAsleep q t).settle.dom (domSeam q.val) = if t = 1 then .retention else .off) := by
  have link := State.fallAsleep_link s q t
  have kept := State.settle_portKept (State.fallAsleep_low s q t)
  have awake : (s.fallAsleep q t).seams[q].link ≠ .idleFailed := by
    rw [link]
    split <;> decide
  refine ⟨(kept.link awake).trans link, ?_, fun has => kept.dom.trans (State.fallAsleep_dom has)⟩
  rw [State.settle_bolt]
  exact State.fallAsleep_inBolt s q t

end

/-- Settles O45: the codes of link control by their equations; a link that has gone to sleep stays so through what follows
(R376, R377; log 98). -/
theorem sleepNegotiationCompletes : Obligations.SleepNegotiationCompletes := by
  unfold Obligations.SleepNegotiationCompletes
  intro q f s s'
  exact ⟨controlStep_of_taken _, fun t => execSleepAck_of_requested, controlStep_of_taken _, controlStep_of_taken _,
    fun t up agreed drained unwanted => ⟨_, execElectricalIdleEntry_of_unwanted up agreed drained unwanted,
      State.settle_fallAsleep s q t⟩,
    fun t => execElectricalIdleEntry_of_wanted⟩

end Sys2Proof.Machine

/-! SUPPORT. The bolt's messages and timers: HELLO, TICK, correction steps and the follower. -/

namespace Sys2Proof.Machine

/-! ### Membership -/

/-- The operation leaves the device's mode, its reason, and which links are in the bolt. -/
structure MembershipKept (s t : State) : Prop where
  mode : t.bolt.mode = s.bolt.mode
  reason : t.bolt.reason = s.bolt.reason
  inBolt : ∀ q : SeamId, t.bolt.links[q].inBolt = s.bolt.links[q].inBolt

theorem MembershipKept.refl (s : State) : MembershipKept s s := ⟨rfl, rfl, fun _ => rfl⟩

theorem MembershipKept.trans {s t u : State} (h : MembershipKept s t) (k : MembershipKept t u) : MembershipKept s u :=
  ⟨k.mode.trans h.mode, k.reason.trans h.reason, fun q => (k.inBolt q).trans (h.inBolt q)⟩

theorem MembershipKept.ite {c : Prop} [Decidable c] {s a b : State} (h : MembershipKept s a) (k : MembershipKept s b) :
    MembershipKept s (if c then a else b) := by
  split
  · exact h
  · exact k

theorem Quiet.membership {s t : State} (h : Quiet s t) : MembershipKept s t := by
  constructor <;> simp only [h.bolt, implies_true]

theorem State.sendHello_membership (s : State) (q : SeamId) : MembershipKept s (s.sendHello q) where
  mode := rfl
  reason := rfl
  inBolt q' := by
    rw [State.sendHello, State.updLink_links]
    by_cases same : q' = q
    · subst same
      rw [Vector.upd_same]
      rfl
    · rw [Vector.upd_other _ _ _ _ same]
      rfl

theorem State.helloAll_membership (s : State) : MembershipKept s s.helloAll := by
  unfold State.helloAll
  generalize allPorts = l
  induction l generalizing s with
  | nil => exact MembershipKept.refl s
  | cons q l ih =>
    exact (MembershipKept.ite (State.sendHello_membership s q) (MembershipKept.refl s)).trans (ih _)

theorem State.updLink_link_same (s : State) (q : SeamId) (f : BoltLink → BoltLink) :
    (s.updLink q f).bolt.links[q] = f s.bolt.links[q] := by
  rw [State.updLink_links, Vector.upd_same]

/-- R395, R398: the device in selvage mode for a reason, its part of every sweep ended. -/
def State.inSelvage (s : State) (reason : Nat) : State :=
  { s with bolt := { s.bolt with
    mode := 3, reason := reason, usable := 0, apart := 0, latRun := none, calRun := none, latMaster := none
    calMaster := none } }

theorem State.leaveBolt_membership (s : State) (reason addr detail : Nat) :
    MembershipKept (s.inSelvage reason) (s.leaveBolt reason addr detail) :=
  (State.boltRecord_quiet (s.inSelvage reason) 2 reason addr detail).membership.trans (State.helloAll_membership _)

/-! ### HELLO -/

section

variable {q : SeamId} {m : Message} {s s' : State}

/-- R384: the first check of a HELLO is the address. -/
theorem State.helloCheck_of_own {p : List Byte} (own : BitVec.ofNat 16 (uAt p 0 2) = s.address) :
    s.helloCheck q p = (true, 5) :=
  if_pos own

/-- R384, R395: a device that hears its own address is not in the bolt, with reason 5. -/
def State.collide (s : State) (q : SeamId) (addr : Nat) : State :=
  let s := s.updLink q fun l => { l with inBolt := false }
  if s.bolt.mode == 3 && s.bolt.reason == 5 then s else s.leaveBolt 5 addr 0

theorem State.collide_bolt (s : State) (q : SeamId) (addr : Nat) :
    (s.collide q addr).bolt.links[q].inBolt = false ∧ (s.collide q addr).bolt.mode = 3 ∧
      (s.collide q addr).bolt.reason = 5 := by
  have out : (s.updLink q fun l => { l with inBolt := false }).bolt.links[q].inBolt = false :=
    congrArg BoltLink.inBolt (State.updLink_link_same ..)
  unfold State.collide
  dsimp only
  split
  case isTrue already =>
    simp only [Bool.and_eq_true, beq_iff_eq] at already
    exact ⟨out, already⟩
  case isFalse =>
    have kept := State.leaveBolt_membership (s.updLink q fun l => { l with inBolt := false }) 5 addr 0
    exact ⟨(kept.inBolt q).trans out, kept.mode, kept.reason⟩

theorem execHello_of_collided (taken : s.takeMessage q vcTick 0x01 = some (m, s')) {r : Nat}
    (check : s'.helloCheck q m.payload = (true, r)) :
    execHello q s = .next (s'.collide q (uAt m.payload 0 2)).settle := by
  simp only [execHello, taken, check, if_true]
  rfl

/-- R384: a HELLO that fails a check excludes its link. -/
theorem execHello_of_excluded (taken : s.takeMessage q vcTick 0x01 = some (m, s')) {r : Nat}
    (check : s'.helloCheck q m.payload = (false, r)) (fails : r ≠ 0) :
    execHello q s = .next (s'.excludeLink q r m.payload).settle := by
  simp only [execHello, taken, check, Bool.false_eq_true, if_false]
  rw [if_pos fails]

/-- R384, R385, R405: a HELLO that passes every check puts the link in the bolt. -/
theorem execHello_of_passed (taken : s.takeMessage q vcTick 0x01 = some (m, s'))
    (check : s'.helloCheck q m.payload = (false, 0)) :
    let l := s'.bolt.links[q]
    let v := s'.updLink q fun l => { l with inBolt := true, excluded := 0 }
    let w := if l.inBolt then v
      else if l.everIn then v.linkReturns q else v.updSeam q fun p => { p with failed := false }
    execHello q s = .next
      (if bitAt (uAt m.payload 0x1D 1) 0 && (portSide q).isSome then w.anchorLink q m.payload else w).settle := by
  simp only [execHello, taken, check, Bool.false_eq_true, if_false]
  exact if_neg (not_not_intro rfl)

/-- R384: an excluded link is not in the bolt. -/
theorem State.excludeLink_inBolt (s : State) (q : SeamId) (reason : Nat) (p : List Byte) :
    (s.excludeLink q reason p).bolt.links[q].inBolt = false := by
  unfold State.excludeLink
  exact ((MembershipKept.ite (MembershipKept.refl _) (State.boltRecord_quiet ..).membership).inBolt q).trans
    (congrArg BoltLink.inBolt (State.updLink_link_same ..))

end

/-- Settles O46: the three outcomes of a HELLO by their equations, and which of them leave the link in the bolt (R384, R385,
R405). -/
theorem hellosAdmitOrExclude : Obligations.HellosAdmitOrExclude := by
  unfold Obligations.HellosAdmitOrExclude
  intro q m s s' taken
  refine ⟨fun own => ⟨_, execHello_of_collided taken (State.helloCheck_of_own own), ?collided⟩,
    fun r check fails => ⟨execHello_of_excluded taken check fails, State.excludeLink_inBolt s' q r m.payload⟩,
    execHello_of_passed taken⟩
  rw [State.settle_bolt]
  exact State.collide_bolt s' q _

end Sys2Proof.Machine

/-! SUPPORT. The bolt's timers and TICKs: an equation per case. -/

namespace Sys2Proof.Machine

section

variable {q : SeamId} {s : State}

/-! ### Timers -/

/-- R383: a HELLO goes out on an E or W port whose link is up, after 65,536 lines or where one is due. -/
theorem execHelloPeriodic_of_due (up : s.seams[q].link = .up) (side : (portSide q).isSome = true)
    (due : 65536 ≤ seqDiff s.bolt.links[q].helloLine s.intake.nextSeq ∨ s.bolt.links[q].helloDue = true) :
    execHelloPeriodic q s = .next (s.sendHello q) := by
  have cond : (decide (65536 ≤ seqDiff s.bolt.links[q].helloLine s.intake.nextSeq) || s.bolt.links[q].helloDue) = true := by
    rwa [Bool.or_eq_true, decide_eq_true_eq]
  simp only [execHelloPeriodic, up, side, cond, Bool.true_or]
  rfl

/-- R389, R390: the master's TICK goes out and is noted. -/
theorem execTickSend_of_due (run : s.running = true) (master : s.isMaster = true) (role : s.role ≠ 0)
    (due : s.tickDue = true) :
    execTickSend s = .next { s.broadcast vcTick 0x02 s.tickPayload with bolt := { s.bolt with
      sendSeq := s.bolt.sendSeq + 1, sentTick := some s.clock, moved := false } } := by
  have quiet := State.broadcast_quiet s vcTick 0x02 s.tickPayload
  refine (when_of_true (by rw [run, master, due, bne_iff_ne.mpr role]; rfl)).trans ?_
  simp only [quiet.bolt, quiet.clock]

/-- R393: κ of 256 or more swallows the next forward edge. -/
theorem execCorrectionStep_of_ahead (run : s.running = true) (isLocal : s.followsTick = false)
    (spaced : 256 ≤ s.bolt.sinceStep) (ahead : 256 ≤ s.bolt.kappa) (first : s.bolt.swallow = false) :
    execCorrectionStep s = .next { s with bolt := { s.bolt with
      swallow := true, kappa := s.bolt.kappa - 256, steps := satAdd 32 s.bolt.steps 1, sinceStep := 0 } } := by
  have notBehind : ¬ s.bolt.kappa ≤ -256 := by omega
  simp only [execCorrectionStep, run, isLocal, spaced, notBehind, ahead, first]
  rfl

/-- R393: the state in which an inserted step counts. -/
def State.insertStep (s : State) : State :=
  { s with
    bolt := { s.bolt with
      beta := s.bolt.beta + 1, kappa := s.bolt.kappa + 256, steps := satAdd 32 s.bolt.steps 1, sinceStep := 0
      insertDue := false }
    web := { s.web with enc := Vector.upd s.web.enc s.source fun e =>
      { e with edges := e.edges.note true s.clock s.time.wall } } }

/-- R393: κ of -256 or less inserts a step 50 ns after a forward edge. -/
theorem execCorrectionStep_of_behind (run : s.running = true) (isLocal : s.followsTick = false)
    (spaced : 256 ≤ s.bolt.sinceStep) (behind : s.bolt.kappa ≤ -256) (due : s.bolt.insertDue = true)
    (apart : (s.edges.last.map (· + 50000)).getD 0 ≤ s.clock) :
    execCorrectionStep s = .next (s.insertStep.countEvent true).settle := by
  unfold execCorrectionStep
  rw [if_pos (by rw [run, isLocal, decide_eq_true spaced]; rfl), if_pos ⟨behind, due, apart⟩]
  rfl

/-- R389: of the bolt's state a count changes only that the position has moved. -/
theorem State.countEvent_bolt (s : State) (forward : Bool) :
    (s.countEvent forward).bolt = { s.bolt with moved := true } := by
  cases forward <;> simp only [State.countEvent, if_true, Bool.false_eq_true, if_false] <;> split <;> rfl

/-- R393: an inserted step is a count of the position, not of a decoder. -/
theorem State.insertStep_count (s : State) (d : DecId) : s.insertStep.web.enc[d].count = s.web.enc[d].count := by
  unfold State.insertStep
  by_cases same : d = s.source
  · subst same
    rw [Vector.upd_same]
  · rw [Vector.upd_other _ _ _ _ same]

/-- R394: the state in which a move of the follower in a direction counts. -/
def State.moveFollower (s : State) (forward : Bool) : State :=
  { s with bolt := { s.bolt with
    follower := if forward then s.bolt.follower + 1 else s.bolt.follower - 1
    lastMove := s.clock
    followEdges := s.bolt.followEdges.note forward s.clock s.time.wall } }

/-- R394: the follower moves one count toward its target, 50 ns after its last move. -/
theorem execFollowerMove_of_apart (follows : s.followsTick = true) (loaded : s.bolt.loaded = true)
    (apart : s.bolt.follower ≠ s.bolt.target) (spaced : s.bolt.lastMove + 50000 ≤ s.clock) :
    let forward := decide (0 < posDiff s.bolt.follower s.bolt.target)
    execFollowerMove s = .next ((s.moveFollower forward).countEvent forward).settle := by
  simp only [execFollowerMove]
  exact when_of_true (by rw [follows, loaded, bne_iff_ne.mpr apart, decide_eq_true spaced]; rfl)

/-- R395: 10 ms without a usable TICK end the membership, and a TICK-fed device loses its position. -/
theorem execTickLoss_of_late (run : s.running = true) (member : s.inBolt = true) (master : s.isMaster = false)
    (late : s.bolt.lastTick + 10 * msPs ≤ s.clock) :
    let w := s.leaveBolt 7 0xFFFF 0
    execTickLoss s = .next (if w.followsTick = true ∧ w.web.lost = false then w.losePosition.settle else w.settle) := by
  intro w
  refine (when_of_true (by rw [run, member, master, decide_eq_true late]; rfl)).trans ?_
  simp only [Bool.and_eq_true, Bool.not_eq_true', apply_ite State.settle, w]

end

/-- Settles O47: the bolt's timers by their equations (R383, R389, R393 to R395). -/
theorem boltTimersComplete : Obligations.BoltTimersComplete := by
  unfold Obligations.BoltTimersComplete
  intro q s
  refine ⟨execHelloPeriodic_of_due,
    fun run master role due => ⟨_, execTickSend_of_due run master role due, rfl, rfl, rfl, rfl⟩,
    execCorrectionStep_of_ahead,
    fun run isLocal spaced behind due apart =>
      ⟨_, execCorrectionStep_of_behind run isLocal spaced behind due apart, ?beta, ?kappa, ?due, fun d => ?count⟩,
    fun follows loaded apart spaced => ⟨_, execFollowerMove_of_apart follows loaded apart spaced, ?last, ?moved⟩,
    execTickLoss_of_late⟩
  case beta => rw [State.settle_bolt, State.countEvent_bolt]; rfl
  case kappa => rw [State.settle_bolt, State.countEvent_bolt]; rfl
  case due => rw [State.settle_bolt, State.countEvent_bolt]; rfl
  case count => rw [State.settle_web, State.countEvent_enc, State.insertStep_count]
  case last => rw [State.settle_bolt, State.countEvent_bolt]; rfl
  case moved =>
    rw [State.settle_bolt, State.countEvent_bolt]
    simp only [State.moveFollower, decide_eq_true_eq]

/-! ### TICK -/

section

variable {q : SeamId} {m : Message} {s s' : State}

theorem State.takeMessage_quiet {vc type : Nat} (taken : s.takeMessage q vc type = some (m, s')) : Quiet s s' := by
  unfold State.takeMessage at taken
  split at taken
  · split at taken
    · cases taken
      exact State.updSeam_quiet ..
    · cases taken
  · cases taken

theorem State.forwardTick_quiet (s : State) (q : SeamId) (m : Message) : Quiet s (s.forwardTick q m) := by
  unfold State.forwardTick
  exact Quiet.ite (Quiet.foldl (fun s _ => Quiet.ite (State.queueOn_quiet ..) (Quiet.refl s)) _ _) (Quiet.refl s)

theorem Quiet.isMaster {s t : State} (h : Quiet s t) : t.isMaster = s.isMaster := by rw [h.same]; rfl

theorem Quiet.tickUsable {s t : State} (h : Quiet s t) (p : List Byte) : t.tickUsable p = s.tickUsable p := by
  rw [h.same]; rfl

theorem Quiet.inBolt {s t : State} (h : Quiet s t) : t.inBolt = s.inBolt := by rw [h.same]; rfl

theorem Quiet.followsTick {s t : State} (h : Quiet s t) : t.followsTick = s.followsTick := by rw [h.same]; rfl

theorem Quiet.mayJoin {s t : State} (h : Quiet s t) : t.mayJoin = s.mayJoin := by rw [h.same]; rfl

/-- R392, R395: a usable TICK is noted with its number and its time. -/
def State.noteTick (s : State) (p : List Byte) (clock : Nat) : State :=
  { s with bolt := { s.bolt with tickSeq := some (BitVec.ofNat 32 (uAt p 0x20 4)), lastTick := clock } }

/-- R393 to R397: what a usable TICK serves: the follower, the alignment or the joining. -/
def State.followTick (s : State) (target : Pos) : State :=
  if s.inBolt then
    if s.followsTick then { s with bolt := { s.bolt with target := target } } else s.alignLocal target
  else if s.mayJoin then s.countTick target
  else s

theorem State.heard_quiet (taken : s.takeMessage q vcTick 0x02 = some (m, s')) : Quiet s (s'.forwardTick q m) :=
  (State.takeMessage_quiet taken).trans (State.forwardTick_quiet s' q m)

/-- R391: the master forwards a TICK and goes no further. -/
theorem execTick_of_master (taken : s.takeMessage q vcTick 0x02 = some (m, s')) (master : s.isMaster = true) :
    execTick q s = .next (s'.forwardTick q m) := by
  simp only [execTick, taken]
  rw [if_pos ((State.heard_quiet taken).isMaster.trans master)]

/-- R397: a TICK that is not usable starts the count toward joining again. -/
theorem execTick_of_unusable (taken : s.takeMessage q vcTick 0x02 = some (m, s')) (member : s.isMaster = false)
    (unusable : s.tickUsable m.payload = false) :
    execTick q s = .next { s'.forwardTick q m with bolt := { (s'.forwardTick q m).bolt with usable := 0 } } := by
  have quiet := State.heard_quiet taken
  simp only [execTick, taken]
  rw [quiet.isMaster, member, quiet.tickUsable, unusable]
  rfl

/-- R392 to R397: a usable TICK is noted, then serves the follower, the alignment or the joining. -/
theorem execTick_of_usable (taken : s.takeMessage q vcTick 0x02 = some (m, s')) (member : s.isMaster = false)
    (usable : s.tickUsable m.payload = true) :
    execTick q s = .next ((((s'.forwardTick q m).noteTick m.payload s.clock).followTick
      ((s'.forwardTick q m).tickTarget q m.payload)).settle) := by
  have quiet := State.heard_quiet taken
  rw [← quiet.clock]
  simp only [execTick, taken]
  rw [quiet.isMaster, member, quiet.tickUsable, usable]
  rfl

end

/-- Settles O48: the cases of a received TICK, each by the condition that selects it; forwarding and noting a TICK change
none of them (R391 to R397). -/
theorem ticksAlign : Obligations.TicksAlign := by
  unfold Obligations.TicksAlign
  intro q m s s' taken f target w
  have quiet := State.heard_quiet taken
  have inBolt : w.inBolt = s.inBolt := quiet.inBolt
  have follows : w.followsTick = s.followsTick := quiet.followsTick
  have joins : w.mayJoin = s.mayJoin := quiet.mayJoin
  refine ⟨execTick_of_master taken, execTick_of_unusable taken, fun member usable => ?usable⟩
  have answer : exec (.tick q) s = .next (w.followTick target).settle := execTick_of_usable taken member usable
  rw [State.followTick, inBolt, follows, joins] at answer
  refine ⟨fun inside tickFed => ?_, fun inside isLocal => ?_, fun outside may => ?_, fun outside may => ?_⟩
  · rw [answer, if_pos inside, if_pos tickFed]
  · rw [answer, if_pos inside, if_neg (Bool.eq_false_iff.mp isLocal)]
  · rw [answer, if_neg (Bool.eq_false_iff.mp outside), if_pos may]
  · rw [answer, if_neg (Bool.eq_false_iff.mp outside), if_neg (Bool.eq_false_iff.mp may)]

end Sys2Proof.Machine

/-! SUPPORT. The latency sweep: an equation per command, and the ports on which a probe goes out. -/

namespace Sys2Proof.Machine

section

variable {q : SeamId} {m : Message} {s s' : State}

/-! ### The master's start and end -/

/-- R401: the state in which the master begins its next sweep, with the start 1 s after READY that is left. -/
def State.startLatency (s : State) (latDue : Option Nat) : State :=
  let g := s.bolt.latUsed.1 + 1
  ({ s with bolt := { s.bolt with
    latUsed := (g, some s.clock), latWanted := false, latDue := latDue
    latMaster := some (s.clock, true, 0) } }.broadcast vcTick 0x03 (probePayload g 0 0 0)).beginLatency g

/-- R401: the master starts a sweep that is wanted, where none is in progress and the last start was 1 s ago. -/
theorem execLatencySweepStart_of_due (run : s.running = true) (master : s.isMaster = true) (role : s.role ≠ 0)
    (idle : s.bolt.latMaster = none) (apart : ∀ t, s.bolt.latUsed.2 = some t → t + 1000 * msPs ≤ s.clock)
    (due : (s.bolt.latWanted || s.bolt.firstDue s.clock) = true) :
    execLatencySweepStart s =
      .next (s.startLatency (if s.bolt.firstDue s.clock then none else s.bolt.latDue)) := by
  have last : (s.bolt.latUsed.2.all fun t => decide (t + 1000 * msPs ≤ s.clock)) = true := by
    cases was : s.bolt.latUsed.2 with
    | none => rfl
    | some t => rw [Option.all_some, decide_eq_true (apart t was)]
  have wanted : s.bolt.sweepDue s.clock = true := by
    rw [BoltState.sweepDue, idle, due, last]
    rfl
  exact when_of_true (by rw [run, master, bne_iff_ne.mpr role, wanted]; rfl)

theorem BoltState.firstDue_of_reached {b : BoltState} {clock t : Nat} (at_ : b.latDue = some t) (reached : t ≤ clock) :
    b.firstDue clock = true := by
  rw [BoltState.firstDue, at_, Option.map_some, Option.getD_some, decide_eq_true reached]

theorem BoltState.firstDue_of_ahead {b : BoltState} {clock : Nat} (ahead : ∀ t, b.latDue = some t → clock < t) :
    b.firstDue clock = false := by
  rw [BoltState.firstDue]
  cases at_ : b.latDue with
  | none => rfl
  | some t => exact decide_eq_false (not_le.mpr (ahead t at_))

/-- R401, R402, R403: 100 ms after the start the master commits a complete sweep and aborts another. -/
theorem execLatencyCollectionEnd_of_late {t lam : Nat} {ok : Bool} (master : s.bolt.latMaster = some (t, ok, lam))
    (late : t + 100 * msPs ≤ s.clock) :
    let g := s.bolt.latUsed.1
    let w := { s with bolt := { s.bolt with latMaster := none } }
    let pw := w.switchAhead
    execLatencyCollectionEnd s = .next (if ok then
        ((w.broadcast vcTick 0x05 (leBytes 4 g.toNat ++ leBytes 1 1 ++ leBytes 1 0 ++ leBytes 4 (w.graceFor lam) ++
          leBytes 6 pw.toNat)).adoptLatency g (w.graceFor lam) pw).settle
      else ((w.broadcast vcTick 0x05 (leBytes 4 g.toNat ++ leBytes 1 2 ++ leBytes 1 0)).abortLatency g).settle) := by
  simp only [execLatencyCollectionEnd, master]
  exact when_of_true (decide_eq_true late)

/-! ### The probes -/

/-- R401: the probe of an index on one port, where its link is measured and in the bolt. -/
def State.probeOn (g : BitVec 32) (i : Nat) (s : State) (q : SeamId) : State :=
  if s.linkIn q && s.bolt.links[q].measured then
    s.queueOn q vcTick 0x03 (s.neighbour q) s.address (probePayload g 1 i (seamCycles s.clock)) none none
  else s

theorem State.probeOn_quiet (g : BitVec 32) (i : Nat) (s : State) (q : SeamId) : Quiet s (s.probeOn g i q) :=
  Quiet.ite (State.queueOn_quiet ..) (Quiet.refl s)

/-- R401: a port as a probe leaves it. -/
def State.probed (g : BitVec 32) (i : Nat) (s : State) (q : SeamId) : Seam :=
  if s.linkIn q && s.bolt.links[q].measured then
    s.seams[q].enqueue vcTick (messageFlits vcTick 0x03 (s.neighbour q) s.address
      (probePayload g 1 i (seamCycles s.clock)) none none)
  else s.seams[q]

theorem State.probeOn_same (g : BitVec 32) (i : Nat) (s : State) (q : SeamId) :
    (s.probeOn g i q).seams[q] = s.probed g i q := by
  unfold State.probeOn State.probed
  split
  · exact Vector.upd_same _ _ _
  · rfl

theorem State.probeOn_other (g : BitVec 32) (i : Nat) (s : State) {q q' : SeamId} (ne : q' ≠ q) :
    (s.probeOn g i q).seams[q'] = s.seams[q'] := by
  unfold State.probeOn
  split
  · exact Vector.upd_other _ _ _ _ ne
  · rfl

/-- What a probe looks at is what a quiet operation leaves, and the port itself. -/
theorem Quiet.probed {s t : State} (h : Quiet s t) {q : SeamId} (port : t.seams[q] = s.seams[q]) (g : BitVec 32)
    (i : Nat) : t.probed g i q = s.probed g i q := by
  unfold State.probed
  rw [port, h.same]
  rfl

/-- R401: probes on different ports do not meet: each port among them has its own, and every other is as it was. -/
theorem State.foldl_probeOn_seams (g : BitVec 32) (i : Nat) {l : List SeamId} (distinct : l.Nodup) (s : State)
    (q : SeamId) :
    (l.foldl (State.probeOn g i) s).seams[q] = if q ∈ l then s.probed g i q else s.seams[q] := by
  induction l generalizing s with
  | nil => rfl
  | cons a l ih =>
    obtain ⟨new, rest⟩ := List.nodup_cons.mp distinct
    rw [List.foldl_cons, ih rest]
    by_cases same : q = a
    · subst same
      rw [if_neg new, if_pos List.mem_cons_self, State.probeOn_same]
    · have kept := State.probeOn_other g i s same
      rw [(State.probeOn_quiet g i s a).probed kept, kept]
      simp only [List.mem_cons, same, false_or]

/-- R401: a probe goes out on every measured port whose link is in the bolt, and the device counts it. -/
def State.sendProbes (g : BitVec 32) (s : State) : State :=
  let w := allPorts.foldl (State.probeOn g s.bolt.latSent) s
  { w with bolt := { w.bolt with latSent := s.bolt.latSent + 1, latAt := w.clock } }

theorem mem_allPorts (q : SeamId) : q ∈ allPorts := by
  decide +revert

theorem State.sendProbes_seams (g : BitVec 32) (s : State) (q : SeamId) :
    (s.sendProbes g).seams[q] = s.probed g s.bolt.latSent q := by
  unfold State.sendProbes
  dsimp only
  rw [State.foldl_probeOn_seams g s.bolt.latSent (by decide) s q, if_pos (mem_allPorts q)]

theorem State.sendProbes_latAt (g : BitVec 32) (s : State) : (s.sendProbes g).bolt.latAt = s.clock :=
  (Quiet.foldl (State.probeOn_quiet g s.bolt.latSent) s allPorts).clock

theorem State.sweepNow_of_run {g : BitVec 32} (inBolt : s.inBolt = true) (sweep : s.bolt.latRun = some g) :
    s.sweepNow = some g := by
  rw [State.sweepNow, if_pos inBolt, sweep]

/-- R401: the first probe goes out at once, the others 4 µs apart. -/
theorem execLinkProbeSend_of_due {g : BitVec 32} (sweep : s.sweepNow = some g) (more : s.bolt.latSent < 256)
    (due : s.bolt.latSent = 0 ∨ s.bolt.latAt + 4 * usPs ≤ s.clock) :
    execLinkProbeSend s = .next (s.sendProbes g) := by
  have spaced : (s.bolt.latSent == 0 || decide (s.bolt.latAt + 4 * usPs ≤ s.clock)) = true := by
    rwa [Bool.or_eq_true, beq_iff_eq, decide_eq_true_eq]
  unfold execLinkProbeSend
  rw [sweep]
  refine (when_of_true ?_).trans ?_
  · rw [decide_eq_true more, spaced]
    rfl
  · refine congrArg Host.Outcome.next ?_
    unfold State.sendProbes State.probeOn
    dsimp only

/-- R401: 1 ms after the last probe the device reports. -/
theorem execLatencyEchoTimeout_of_late {g : BitVec 32} (sweep : s.sweepNow = some g) (all : s.bolt.latSent = 256)
    (late : s.bolt.latAt + msPs ≤ s.clock) :
    let p := s.latencyReport g s.latencyComplete
    let w := { s with bolt := { s.bolt with latSent := 257 } }
    execLatencyEchoTimeout s = .next (if w.isMaster then w.noteReport p else w.sendTo vcTick 0x05 w.master p) := by
  simp only [execLatencyEchoTimeout, sweep]
  exact when_of_true (by rw [all, decide_eq_true late]; rfl)

/-! ### The messages -/

/-- R401: a start begins the device's part. -/
theorem execLatencyStart_of_message (taken : s.takeMessage q vcTick 0x03 = some (m, s')) (start : uAt m.payload 4 1 = 0)
    (inBolt : s'.inBolt = true) :
    execLatencyStart q s = .next (s'.beginLatency (BitVec.ofNat 32 (uAt m.payload 0 4))) := by
  simp only [execLatencyStart, taken]
  rw [if_pos start, if_pos inBolt]

/-- R401: a link probe is echoed with the time that the device held it. -/
theorem execLinkProbe_of_message (taken : s.takeMessage q vcTick 0x03 = some (m, s')) (probe : uAt m.payload 4 1 = 1)
    (inBolt : s'.inBolt = true) :
    execLinkProbe q s = .next (s'.queueOn q vcTick 0x04 m.source s'.address
      (m.payload.take 4 ++ sliceB m.payload 6 2 ++ leBytes 2 0 ++ sliceB m.payload 8 4 ++
        leBytes 4 ((s'.clock - m.atClock) / 6400)) none none) := by
  simp only [execLinkProbe, taken]
  rw [if_pos probe, if_pos inBolt]

/-- R401: an echo of the sweep in progress counts on a measured port. -/
theorem execLatencyEcho_of_message (taken : s.takeMessage q vcTick 0x04 = some (m, s'))
    (measured : s'.bolt.links[q].measured = true)
    (sweep : s'.bolt.latRun = some (BitVec.ofNat 32 (uAt m.payload 0 4))) :
    execLatencyEcho q s = .next (s'.updLink q fun l => { l with echoes := l.echoes ++ [echoCycles m] }) := by
  simp only [execLatencyEcho, taken]
  exact when_of_true (by rw [measured, sweep, beq_self_eq_true]; rfl)

/-- R401: a report reaches the collection. -/
theorem execLatencyReport_of_message (taken : s.takeResult q 0 = some (m, s')) :
    execLatencyReport q s = .next (s'.noteReport m.payload) := by
  simp only [execLatencyReport, taken]

/-- R402: a device in the bolt adopts a commit. -/
theorem execLatencyCommit_of_message (taken : s.takeResult q 1 = some (m, s')) (inBolt : s'.inBolt = true) :
    execLatencyCommit q s = .next (s'.adoptLatency (BitVec.ofNat 32 (uAt m.payload 0 4)) (uAt m.payload 6 4)
      (BitVec.ofNat 48 (uAt m.payload 10 6))).settle := by
  simp only [execLatencyCommit, taken]
  exact when_of_true inBolt

/-- R403: a device in the bolt gives up an aborted sweep. -/
theorem execLatencyAbort_of_message (taken : s.takeResult q 2 = some (m, s')) (inBolt : s'.inBolt = true) :
    execLatencyAbort q s = .next (s'.abortLatency (BitVec.ofNat 32 (uAt m.payload 0 4))).settle := by
  simp only [execLatencyAbort, taken]
  exact when_of_true inBolt

/-- R401: a request reaches the master. -/
theorem execLatencyRequest_of_message (taken : s.takeResult q 3 = some (m, s')) (master : s'.isMaster = true) :
    execLatencyRequest q s = .next s'.wantLatency := by
  simp only [execLatencyRequest, taken]
  rw [if_pos master]

end

/-- Settles O49: the sweep's commands by their equations; a probe goes out on the measured ports in the bolt, and on no other
(R401 to R403). -/
theorem latencySweepCompletes : Obligations.LatencySweepCompletes := by
  unfold Obligations.LatencySweepCompletes
  intro s
  refine ⟨fun run master role idle apart => ?start, fun g inBolt sweep more due => ?probe,
    fun g inBolt sweep => execLatencyEchoTimeout_of_late (State.sweepNow_of_run inBolt sweep),
    fun t ok lam master late => ?finish, fun q m s' => ⟨execLatencyStart_of_message, execLinkProbe_of_message,
      execLatencyEcho_of_message, execLatencyReport_of_message, execLatencyCommit_of_message,
      execLatencyAbort_of_message, execLatencyRequest_of_message⟩⟩
  case start =>
    have answer := execLatencySweepStart_of_due run master role idle apart
    refine ⟨fun t at_ reached => ?_, fun wanted ahead => ?_⟩
    · have first := BoltState.firstDue_of_reached at_ reached
      exact (answer (by rw [first, Bool.or_true])).trans (by rw [if_pos first]; rfl)
    · have notYet := BoltState.firstDue_of_ahead ahead
      exact (answer (by rw [wanted, Bool.true_or])).trans (by rw [if_neg (Bool.eq_false_iff.mp notYet)]; rfl)
  case probe =>
    refine ⟨_, execLinkProbeSend_of_due (State.sweepNow_of_run inBolt sweep) more due, rfl,
      State.sendProbes_latAt g s, fun q => ?_⟩
    rw [State.sendProbes_seams]
    refine ⟨fun inside measured => if_pos (by rw [inside, measured]; rfl), fun outside => if_neg ?_⟩
    rw [Bool.and_eq_true, not_and_or, Bool.not_eq_true, Bool.not_eq_true]
    exact outside
  case finish =>
    have answer := execLatencyCollectionEnd_of_late master late
    refine ⟨fun complete => answer.trans (by rw [if_pos complete]),
      fun broken => answer.trans (by rw [if_neg (Bool.eq_false_iff.mp broken)])⟩

end Sys2Proof.Machine

/-! SUPPORT. The calibration sweep: an equation per command. -/

namespace Sys2Proof.Machine

section

variable {q : SeamId} {m : Message} {s s' : State}

/-! ### The timers -/

/-- R413: the master starts a sweep that is wanted, where none is in progress and the last start was a minute ago. -/
theorem execCalibrationSweepStart_of_due (run : s.running = true) (master : s.isMaster = true) (role : s.role ≠ 0)
    (wanted : s.bolt.calWanted = true) (idle : s.bolt.calMaster = none)
    (apart : ∀ t, s.bolt.calLast = some t → t + 60000 * msPs ≤ s.clock) :
    let g := s.bolt.calUsed + 1
    let pc := s.switchAhead
    execCalibrationSweepStart s = .next (({ s with bolt := { s.bolt with
      calUsed := g, calWanted := false, calLast := some s.clock, calMaster := some (true, none) } }.broadcast vcTick 0x06
        (sweepPayload g 0 false pc 65536 0)).beginCalibration g pc 65536) := by
  have last : ((s.bolt.calLast.map fun t => decide (t + 60000 * msPs ≤ s.clock)).getD true) = true := by
    cases was : s.bolt.calLast with
    | none => rfl
    | some t => rw [Option.map_some, Option.getD_some, decide_eq_true (apart t was)]
  exact when_of_true (by rw [run, master, bne_iff_ne.mpr role, wanted, idle, last]; rfl)

/-- R413: the device's sums are done once they are full or late; it goes on where it needs no west factor or has it. -/
theorem execCalibrationSumsDone_of_done {g : BitVec 32} {pc : Pos} {nc : Nat}
    (sweep : s.bolt.calRun = some (g, pc, nc)) (first : s.bolt.calSums = none)
    (done : s.sumsFull nc = true ∨ s.sumsLate = true) :
    let w := { s with bolt := { s.bolt with calSums := some s.clock, calOk := s.sumsFull nc } }
    execCalibrationSumsDone s = .next
      (if !w.bolt.calSides.contains 0 || w.bolt.calWest.isSome then w.finishCalibration.settle else w) := by
  have ends : (s.sumsFull nc || s.sumsLate) = true := Bool.or_eq_true_iff.mpr done
  unfold execCalibrationSumsDone
  rw [sweep]
  refine (when_of_true ?_).trans rfl
  rw [first, ends]
  rfl

/-- R413: without the west factor 1 s after its own sums the device ends its part. -/
theorem execCalibrationFactorTimeout_of_late {t : Nat} (sweep : s.bolt.calRun.isSome = true)
    (open_ : s.bolt.calDone = false) (west : s.bolt.calWest = none) (sums : s.bolt.calSums = some t)
    (late : t + 1000 * msPs ≤ s.clock) :
    execCalibrationFactorTimeout s = .next s.finishCalibration.settle := by
  have passed : ((s.bolt.calSums.map fun t => decide (t + 1000 * msPs ≤ s.clock)).getD false) = true := by
    rw [sums, Option.map_some, Option.getD_some, decide_eq_true late]
  exact when_of_true (by rw [sweep, open_, west, passed]; rfl)

/-- R414: 2 s after the last line of N_c the master commits a complete sweep and aborts another (log 128). -/
theorem execCalibrationCollectionEnd_of_late {ok : Bool} {t : Nat} (master : s.bolt.calMaster = some (ok, some t))
    (late : t + 2000 * msPs ≤ s.clock) :
    let g := s.bolt.calUsed
    let w := { s with bolt := { s.bolt with calMaster := none } }
    let ps := w.switchAhead
    execCalibrationCollectionEnd s = .next (if ok then
        ((w.broadcast vcTick 0x06 (sweepPayload g 3 true ps 0 0)).adoptCalibration g ps).settle
      else ((w.broadcast vcTick 0x06 (sweepPayload g 4 false 0 0 0)).abortCalibration g).settle) := by
  simp only [execCalibrationCollectionEnd, master]
  exact when_of_true (decide_eq_true late)

/-! ### The messages -/

/-- R413: a start begins the part of a device in the bolt. -/
theorem execCalibrationStart_of_message (taken : s.takeSweep q 0 = some (m, s')) (inBolt : s'.inBolt = true) :
    execCalibrationStart q s = .next (s'.beginCalibration (BitVec.ofNat 32 (uAt m.payload 0 4))
      (BitVec.ofNat 48 (uAt m.payload 8 6)) (uAt m.payload 0x10 4)) := by
  simp only [execCalibrationStart, taken]
  rw [if_pos inBolt]

/-- R413: the west neighbour's factor of the sweep in progress; with its own sums the device ends its part. -/
theorem execCalibrationFactor_of_message (taken : s.takeSweep q 1 = some (m, s'))
    (sweep : s'.bolt.calRun.map (·.1) = some (BitVec.ofNat 32 (uAt m.payload 0 4))) (west : q = 1)
    (open_ : s'.bolt.calDone = false) :
    let w := { s' with bolt := { s'.bolt with
      calWest := some (uAt m.payload 0x14 4, bitAt (uAt m.payload 5 1) 0) } }
    execCalibrationFactor q s = .next (if s'.bolt.calSums.isSome then w.finishCalibration.settle else w) := by
  simp only [execCalibrationFactor, taken]
  exact when_of_true (by rw [sweep, west, open_, beq_self_eq_true]; rfl)

/-- R413: a report of the master's sweep counts toward its completeness. -/
theorem execCalibrationReport_of_message (taken : s.takeSweep q 2 = some (m, s'))
    (sweep : BitVec.ofNat 32 (uAt m.payload 0 4) = s'.bolt.calUsed) :
    execCalibrationReport q s = .next { s' with bolt := { s'.bolt with
      calMaster := s'.bolt.calMaster.map fun (c, t) => (c && bitAt (uAt m.payload 5 1) 0, t) } } := by
  simp only [execCalibrationReport, taken]
  exact when_of_true (beq_iff_eq.mpr sweep)

/-- R414: a commit of the sweep in progress gives the new coefficients. -/
theorem execCalibrationCommit_of_message (taken : s.takeSweep q 3 = some (m, s'))
    (sweep : s'.bolt.calRun.map (·.1) = some (BitVec.ofNat 32 (uAt m.payload 0 4))) :
    execCalibrationCommit q s = .next (s'.adoptCalibration (BitVec.ofNat 32 (uAt m.payload 0 4))
      (BitVec.ofNat 48 (uAt m.payload 8 6))).settle := by
  simp only [execCalibrationCommit, taken]
  exact when_of_true (beq_iff_eq.mpr sweep)

/-- R414: an abort of the sweep in progress keeps the coefficients. -/
theorem execCalibrationAbort_of_message (taken : s.takeSweep q 4 = some (m, s'))
    (sweep : s'.bolt.calRun.map (·.1) = some (BitVec.ofNat 32 (uAt m.payload 0 4))) :
    execCalibrationAbort q s = .next (s'.abortCalibration (BitVec.ofNat 32 (uAt m.payload 0 4))).settle := by
  simp only [execCalibrationAbort, taken]
  exact when_of_true (beq_iff_eq.mpr sweep)

/-- R414: a request reaches the master. -/
theorem execCalibrationRequest_of_message (taken : s.takeSweep q 5 = some (m, s')) (master : s'.isMaster = true) :
    execCalibrationRequest q s = .next { s' with bolt := { s'.bolt with calWanted := true } } := by
  simp only [execCalibrationRequest, taken]
  exact when_of_true master

end

/-- Settles O50: the sweep's timers and messages by their equations (R413, R414; log 128). -/
theorem calibrationSweepCompletes : Obligations.CalibrationSweepCompletes := by
  unfold Obligations.CalibrationSweepCompletes
  intro s
  refine ⟨execCalibrationSweepStart_of_due, fun g pc nc => execCalibrationSumsDone_of_done,
    fun t => execCalibrationFactorTimeout_of_late, fun ok t master late => ?finish, fun q m s' =>
      ⟨execCalibrationStart_of_message, execCalibrationFactor_of_message, execCalibrationReport_of_message,
        execCalibrationCommit_of_message, execCalibrationAbort_of_message, execCalibrationRequest_of_message⟩⟩
  have answer := execCalibrationCollectionEnd_of_late master late
  exact ⟨fun complete => answer.trans (by rw [if_pos complete]),
    fun broken => answer.trans (by rw [if_neg (Bool.eq_false_iff.mp broken)])⟩

end Sys2Proof.Machine

/-! SUPPORT. Halo and replay lines, and the deadline of a line: what each leaves in the ring. -/

namespace Sys2Proof.Machine

/-! ### The ring of a side -/

section

variable {s t : State} {side : Fin 2} {line : LineSeq}

/-- R273: an entry is found in the ring by the pattern's depth. -/
theorem State.haloEntry_congr (ring : t.bolt.halo[side].ring = s.bolt.halo[side].ring) (pat : t.pat = s.pat) :
    t.haloEntry side line = s.haloEntry side line := by
  unfold State.haloEntry
  rw [ring, pat]

/-- R431: whether an entry may be written is seen from the ring. -/
theorem State.writable_congr (ring : t.bolt.halo[side].ring = s.bolt.halo[side].ring) (pat : t.pat = s.pat) :
    t.writable side line = s.writable side line := by
  unfold State.writable
  rw [ring, pat]

theorem State.putHalo_ring (s : State) (side : Fin 2) (e : HaloEntry) :
    (s.putHalo side e).bolt.halo[side].ring = (e.seq.toNat % s.pat.bobbinDepth, e) ::
      s.bolt.halo[side].ring.filter (·.1 != e.seq.toNat % s.pat.bobbinDepth) := by
  unfold State.putHalo
  rw [Vector.upd_same]

theorem State.putHalo_watch (s : State) (side : Fin 2) (e : HaloEntry) :
    (s.putHalo side e).bolt.halo[side].watch = s.bolt.halo[side].watch := by
  unfold State.putHalo
  rw [Vector.upd_same]

/-- R273: the entry that has been written is the one found. -/
theorem State.haloEntry_putHalo (s : State) (side : Fin 2) (e : HaloEntry) :
    (s.putHalo side e).haloEntry side e.seq = some e := by
  have pat : (s.putHalo side e).pat = s.pat := rfl
  unfold State.haloEntry
  rw [State.putHalo_ring, pat]
  simp only [List.find?_cons, beq_self_eq_true, if_true]

/-! ### A line that comes -/

theorem State.updGroup_bolt (s : State) (g : Nat) (f : Group → Group) : (s.updGroup g f).bolt = s.bolt := by
  unfold State.updGroup
  split <;> rfl

theorem State.startSpan_bolt (s : State) (g : Nat) : (s.startSpan g).bolt = s.bolt := by
  unfold State.startSpan
  split
  · rfl
  · exact (State.addVotes_quiet ..).bolt.trans (State.updGroup_bolt ..)

theorem State.startSpans_bolt (s : State) : s.startSpans.bolt = s.bolt := by
  unfold State.startSpans
  generalize s.servingGroups = l
  induction l generalizing s with
  | nil => rfl
  | cons g l ih => exact (ih _).trans (State.startSpan_bolt s g)

theorem State.wakeGroups_bolt (s : State) : s.wakeGroups.bolt = s.bolt := by
  unfold State.wakeGroups
  split
  · exact State.startSpans_bolt s
  · rfl

theorem State.clearKey_bolt (s : State) (kind key : Nat) : (s.clearKey kind key).bolt = s.bolt :=
  State.wakeGroups_bolt _

theorem State.clearKey_pat (s : State) (kind key : Nat) : (s.clearKey kind key).pat = s.pat :=
  (State.wakeGroups_kept _).pat

/-- R406: a line that is stored is the entry found. -/
theorem State.haloEntry_storeHalo (s : State) (side : Fin 2) (line : LineSeq) (p : List Byte) :
    (s.storeHalo side line p).haloEntry side line = some (s.entryOf side line p) := by
  refine Eq.trans ?_ (State.haloEntry_putHalo s side (s.entryOf side line p))
  refine State.haloEntry_congr ?_ (State.clearKey_pat _ _ _)
  unfold State.storeHalo
  rw [State.clearKey_bolt, Vector.upd_same]

theorem State.sumSide_halo (s : State) (side : Fin 2) (line : LineSeq) :
    (s.sumSide side line).bolt.halo = s.bolt.halo ∧ (s.sumSide side line).pat = s.pat := by
  unfold State.sumSide
  split
  · dsimp only
    split <;> exact ⟨rfl, rfl⟩
  · exact ⟨rfl, rfl⟩

/-- R406, R413: the sums of a line and what follows the command leave its entry. -/
theorem State.haloEntry_stored (s : State) (side : Fin 2) (line : LineSeq) (p : List Byte) :
    ((s.storeHalo side line p).sumSide side line).settle.haloEntry side line = some (s.entryOf side line p) := by
  obtain ⟨halo, pat⟩ := State.sumSide_halo (s.storeHalo side line p) side line
  have settled := State.settle_quiet ((s.storeHalo side line p).sumSide side line)
  refine Eq.trans ?_ (State.haloEntry_storeHalo s side line p)
  exact State.haloEntry_congr (by rw [settled.bolt, halo]) (settled.pat.trans pat)

theorem Quiet.entryOf (h : Quiet s t) (side : Fin 2) (line : LineSeq) (p : List Byte) :
    t.entryOf side line p = s.entryOf side line p := by
  rw [h.same]
  rfl

/-! ### The link that a line comes over -/

theorem BoltLink.place_returning (l : BoltLink) (n : LineSeq) : (l.place n).1.returning = l.returning := by
  unfold BoltLink.place
  dsimp only
  split
  · split <;> rfl
  · rfl

theorem State.firstAfterReturn_of_steady {q : SeamId} (steady : s.bolt.links[q].returning = false) (side : Fin 2)
    (line : LineSeq) (reset : Bool) : s.firstAfterReturn q side line reset = s :=
  if_neg (Bool.eq_false_iff.mp steady)

/-- R431: without an entry that awaits replay there is nothing to resolve. -/
theorem State.missBefore_of_none (none_ : ∀ e ∈ s.bolt.halo[side].ring, e.2.awaiting = false) :
    s.missBefore side line = s := by
  have late : ((s.bolt.halo[side].ring.map (·.2)).filter fun e => e.awaiting && decide (0 < seqDiff e.seq line)) = [] := by
    refine List.filter_eq_nil_iff.mpr fun e mem => ?_
    obtain ⟨x, inRing, rfl⟩ := List.mem_map.mp mem
    rw [none_ x inRing, Bool.false_and]
    exact Bool.false_ne_true
  unfold State.missBefore
  rw [late]
  rfl

/-- R405: the state in which a line with a number has come over a link, whose offset it may have switched. -/
def State.lineCame (s : State) (q : SeamId) (n : LineSeq) : State :=
  s.updLink q fun _ => { (s.bolt.links[q].place n).1 with lastLine := some n }

theorem State.lineCame_halo (s : State) (q : SeamId) (n : LineSeq) : (s.lineCame q n).bolt.halo = s.bolt.halo := rfl

theorem State.lineCame_writable (s : State) (q : SeamId) (n : LineSeq) (side : Fin 2) (line : LineSeq) :
    (s.lineCame q n).writable side line = s.writable side line := rfl

theorem Quiet.writable (h : Quiet s t) (side : Fin 2) (line : LineSeq) :
    t.writable side line = s.writable side line :=
  State.writable_congr (by rw [h.bolt]) h.pat

theorem State.lineCame_returning (s : State) (q : SeamId) (n : LineSeq) :
    (s.lineCame q n).bolt.links[q].returning = s.bolt.links[q].returning :=
  (congrArg BoltLink.returning (State.updLink_link_same ..)).trans (BoltLink.place_returning ..)

end

/-! ### The commands -/

section

variable {q : SeamId} {side : Fin 2} {m : Message} {s s' : State} {line : LineSeq}

/-- R365: the number of the line in a message. -/
def Message.lineNumber (m : Message) : LineSeq := BitVec.ofNat 40 (uAt m.payload 0 5)

/-- R406, R431: a halo line ends the waits that it shows to be in vain and comes into its entry, if that may be written. -/
theorem execHaloLine_of_placed (port : portSide q = some side) (taken : s.takeMessage q vcLine 0x10 = some (m, s'))
    (placed : (s'.bolt.links[q].place m.lineNumber).2 = some line) :
    let w := ((s'.lineCame q m.lineNumber).firstAfterReturn q side line
      (s'.bolt.links[q].restarted m.lineNumber)).missBefore side line
    execHaloLine q s = .next
      (if w.writable side line then ((w.storeHalo side line m.payload).sumSide side line).settle else w) := by
  intro w
  unfold execHaloLine
  rw [port, taken]
  unfold Message.lineNumber at placed
  dsimp only
  rw [placed]
  rfl

/-- R406, R431: over a link that has not just returned, where no entry awaits replay, a halo line comes into its entry. -/
theorem execHaloLine_of_steady (port : portSide q = some side) (taken : s.takeMessage q vcLine 0x10 = some (m, s'))
    (placed : (s'.bolt.links[q].place m.lineNumber).2 = some line) (steady : s.bolt.links[q].returning = false)
    (none_ : ∀ e ∈ s.bolt.halo[side].ring, e.2.awaiting = false) (writable : s.writable side line = true) :
    execHaloLine q s = .next
      (((s'.lineCame q m.lineNumber).storeHalo side line m.payload).sumSide side line).settle := by
  have quiet := State.takeMessage_quiet taken
  have still : (s'.lineCame q m.lineNumber).bolt.links[q].returning = false := by
    rw [State.lineCame_returning, quiet.bolt, steady]
  have none' : ∀ e ∈ (s'.lineCame q m.lineNumber).bolt.halo[side].ring, e.2.awaiting = false := by
    rwa [State.lineCame_halo, quiet.bolt]
  rw [execHaloLine_of_placed port taken placed, State.firstAfterReturn_of_steady still, State.missBefore_of_none none',
    if_pos (by rwa [State.lineCame_writable, quiet.writable])]

/-- R431, R433: the state in which a replay line has come, counted, over its link. -/
def State.replayCame (s : State) (q : SeamId) (n : LineSeq) : State :=
  { s with faults := { s.faults with
    replayReceived := satAdd 32 s.faults.replayReceived 1 } }.lineCame q n

/-- R431, R433: a replay line comes into its entry, or is discarded and counted. -/
theorem execReplayLine_of_placed (port : portSide q = some side) (taken : s.takeMessage q vcLine 0x11 = some (m, s'))
    (placed : (s'.bolt.links[q].place m.lineNumber).2 = some line) :
    let w := (s'.replayCame q m.lineNumber).firstAfterReturn q side line false
    execReplayLine q s = .next
      (if w.writable side line then ((w.storeHalo side line m.payload).sumSide side line).settle
        else { w with faults := { w.faults with replayDiscarded := satAdd 32 w.faults.replayDiscarded 1 } }) := by
  intro w
  unfold execReplayLine
  rw [port, taken]
  unfold Message.lineNumber at placed
  dsimp only
  rw [placed]
  rfl

theorem execReplayLine_of_steady (port : portSide q = some side) (taken : s.takeMessage q vcLine 0x11 = some (m, s'))
    (placed : (s'.bolt.links[q].place m.lineNumber).2 = some line) (steady : s.bolt.links[q].returning = false)
    (writable : s.writable side line = true) :
    execReplayLine q s = .next
      (((s'.replayCame q m.lineNumber).storeHalo side line m.payload).sumSide side line).settle := by
  have quiet := State.takeMessage_quiet taken
  have still : (s'.replayCame q m.lineNumber).bolt.links[q].returning = false := by
    rw [State.replayCame, State.lineCame_returning]
    exact (congrArg (fun b : BoltState => b.links[q].returning) quiet.bolt).trans steady
  have free : (s'.replayCame q m.lineNumber).writable side line = true :=
    (State.writable_congr rfl rfl).trans ((quiet.writable side line).trans writable)
  rw [execReplayLine_of_placed port taken placed, State.firstAfterReturn_of_steady still, if_pos free]

/-! ### The deadline of a line -/

/-- R430: the state in which the oldest watch of a side has ended, with the retry credit that its line had. -/
def State.endWatch (s : State) (side : Fin 2) (entered : Nat) (rest : List (LineSeq × Nat)) : State :=
  { s with
    bolt := { s.bolt with halo := Vector.upd s.bolt.halo side fun h => { h with watch := rest } }
    faults := { s.faults with creditNs := satAdd 32 s.faults.creditNs (s.retryCredit (sidePort side) entered) } }

theorem State.endWatch_ring (s : State) (side : Fin 2) (entered : Nat) (rest : List (LineSeq × Nat)) :
    (s.endWatch side entered rest).bolt.halo[side].ring = s.bolt.halo[side].ring := by
  unfold State.endWatch
  rw [Vector.upd_same]

theorem State.endWatch_watch (s : State) (side : Fin 2) (entered : Nat) (rest : List (LineSeq × Nat)) :
    (s.endWatch side entered rest).bolt.halo[side].watch = rest := by
  unfold State.endWatch
  rw [Vector.upd_same]

/-- R430: the late entry awaits replay where the link has failed, and is missing otherwise. -/
theorem State.lateEntry_awaiting (s : State) (side : Fin 2) (line : LineSeq) :
    (s.lateEntry side line).awaiting = s.seams[sidePort side].failed := by
  unfold State.lateEntry
  dsimp only
  split
  case isTrue failed => exact failed.symm
  case isFalse up => exact (Bool.eq_false_iff.mpr up).symm

theorem State.lateEntry_seq (s : State) (side : Fin 2) (line : LineSeq) : (s.lateEntry side line).seq = line := by
  unfold State.lateEntry
  dsimp only
  split <;> rfl

/-- R430: the state in which the late entry of a line has been written and counted. -/
def State.missLine (v : State) (side : Fin 2) (line : LineSeq) : State :=
  { v.putHalo side (v.lateEntry side line) with faults := { v.faults with
    awaiting := satAdd 32 v.faults.awaiting (bit (v.lateEntry side line).awaiting)
    missing := satAdd 32 v.faults.missing (bit (!(v.lateEntry side line).awaiting)) } }

/-- R430: at the deadline of the oldest watched line its entry is written, if that may still be. -/
theorem execLineDeadline_of_late {east : Bool} {entered : Nat} {rest : List (LineSeq × Nat)}
    (of : side = if east then 1 else 0) (watch : s.bolt.halo[side].watch = (line, entered) :: rest)
    (late : s.lineDeadline side entered ≤ s.clock) :
    execLineDeadline east s = .next (if s.writable side line then (s.endWatch side entered rest).missLine side line
      else s.endWatch side entered rest) := by
  have writable : (s.endWatch side entered rest).writable side line = s.writable side line :=
    State.writable_congr (State.endWatch_ring ..) rfl
  rw [← writable]
  subst of
  unfold execLineDeadline
  dsimp only
  rw [watch]
  refine (when_of_true (decide_eq_true late)).trans ?_
  rfl

/-- R430: the late entry is found, and the watch on its line has ended. -/
theorem State.missLine_halo (s : State) (side : Fin 2) (line : LineSeq) (entered : Nat) (rest : List (LineSeq × Nat)) :
    let t := (s.endWatch side entered rest).missLine side line
    t.haloEntry side line = some (s.lateEntry side line) ∧ t.bolt.halo[side].watch = rest := by
  refine ⟨?_, (State.putHalo_watch ..).trans (State.endWatch_watch ..)⟩
  have found := State.haloEntry_putHalo (s.endWatch side entered rest) side (s.lateEntry side line)
  rw [State.lateEntry_seq] at found
  exact found

end

/-- Settles O51: the lines and the deadline by their equations; the entry that each writes is the one found (R405, R406, R430,
R431, R433; log 129). -/
theorem haloLinesComplete : Obligations.HaloLinesComplete := by
  unfold Obligations.HaloLinesComplete
  intro q side m s s'
  refine ⟨?halo, ?replay, ?deadline⟩
  case halo =>
    intro port taken r v line placed
    refine ⟨execHaloLine_of_placed port taken placed, fun steady none_ writable =>
      ⟨_, execHaloLine_of_steady port taken placed steady none_ writable, rfl, ?_⟩⟩
    rw [State.haloEntry_stored, ← (State.takeMessage_quiet taken).entryOf]
    rfl
  case replay =>
    intro port taken c r v line placed w
    have answer := execReplayLine_of_placed port taken placed
    refine ⟨fun writable => answer.trans ?_, fun final => answer.trans ?_, fun steady writable =>
      ⟨_, execReplayLine_of_steady port taken placed steady writable, rfl, ?_⟩⟩
    · exact congrArg Host.Outcome.next (if_pos writable)
    · exact congrArg Host.Outcome.next (if_neg (Bool.eq_false_iff.mp final))
    · rw [State.haloEntry_stored, ← (State.takeMessage_quiet taken).entryOf]
      rfl
  case deadline =>
    intro east line entered rest of watch late v e
    have answer := execLineDeadline_of_late of watch late
    refine ⟨fun writable => ⟨(s.endWatch side entered rest).missLine side line, ?_, ?_,
      State.missLine_halo s side line entered rest⟩, fun final => ?_⟩
    · exact answer.trans (congrArg Host.Outcome.next (if_pos writable))
    · rw [State.missLine, State.lateEntry_awaiting]
      rfl
    · exact answer.trans (congrArg Host.Outcome.next (if_neg (Bool.eq_false_iff.mp final)))

end Sys2Proof.Machine

/-! SUPPORT. The messages that carry segments and records: what the home answers, what is kept, and which records enter. -/

namespace Sys2Proof.Machine

section

variable {q : SeamId} {m : Message} {h : Hist} {s s' : State} {start stamp : Pos} {b : List Byte}

/-! ### Segment reads -/

/-- R262, R271: stores without a bad word deliver the bytes as they are. -/
theorem State.fillDamage_of_sound (parity : s.commons.badParity = []) (errors : s.hbm.errors = []) (h : Hist)
    (ps : List ViewPlace) (bs : List Byte) : s.fillDamage h ps [] bs = (bs, s) := by
  unfold State.fillDamage
  simp only [parity, errors, List.filter_nil, List.map_nil, List.append_nil]
  rfl

theorem State.homeBlocks_of_sealed {x : Segment} (held : s.segment 0 start = some x) (sealed_ : x.sealed_ = true)
    (present : x.absent = false) (h : Hist) : s.homeBlocks h start = some x.stored := by
  simp only [State.homeBlocks, held, sealed_, present]
  rfl

/-- R262, R410: with sound stores the home reads an undamaged segment as it is stored. -/
theorem State.readHome_of_sound {x : Segment} (held : s.segment 0 start = some x) (sound : x.damaged = false)
    (parity : s.commons.badParity = []) (errors : s.hbm.errors = []) (h : Hist) (b : List Byte) :
    s.readHome h start b = (some b, s) := by
  have undamaged : s.placeDamaged { start := start, included := true } = false := by
    simp only [State.placeDamaged, held, Option.map_some, Option.getD_some, sound, Bool.and_false]
  simp only [State.readHome, State.fillDamage_of_sound parity errors, undamaged]
  rfl

/-- R410: the GONE that answers a read. -/
def State.sendGone (s : State) (q : SeamId) (m : Message) : State :=
  s.queueOn q vcHist 0x32 m.source s.address (m.payload.take 12) none none

/-- R410: the reply that answers a read with a segment's blocks. -/
def State.sendReply (s : State) (h : Hist) (q : SeamId) (m : Message) (start stamp : Pos) (b : List Byte) : State :=
  s.queueOn q vcHist 0x31 m.source s.address (replyPayload start stamp false (s.decodeSegment h b)) none none

theorem State.answerRead_of_late (late : reached stamp (h.expiryOf start) = true) :
    s.answerRead h q m start stamp b = s.sendGone q m :=
  if_pos late

theorem State.answerRead_of_served (early : reached stamp (h.expiryOf start) = false) {b' : List Byte}
    (served : (s.readHome h start b).1 = some b') :
    s.answerRead h q m start stamp b = (s.readHome h start b).2.sendReply h q m start stamp b' := by
  refine (if_neg (Bool.eq_false_iff.mp early)).trans ?_
  rw [← Prod.eta (s.readHome h start b), served]
  rfl

theorem State.answerRead_of_struck (early : reached stamp (h.expiryOf start) = false)
    (struck : (s.readHome h start b).1 = none) :
    s.answerRead h q m start stamp b = (s.readHome h start b).2.sendGone q m := by
  refine (if_neg (Bool.eq_false_iff.mp early)).trans ?_
  rw [← Prod.eta (s.readHome h start b), struck]
  rfl

/-- R410: what follows a read of a segment: an answer where the home has it, GONE where not. -/
def State.serveRead (s : State) (h : Hist) (q : SeamId) (m : Message) (start stamp : Pos) : State :=
  match s.homeBlocks h start with
  | some b => s.answerRead h q m start stamp b
  | none => s.sendGone q m

theorem State.serveRead_of_has (has : s.homeBlocks h start = some b) :
    s.serveRead h q m start stamp = s.answerRead h q m start stamp b := by
  rw [State.serveRead, has]

theorem State.serveRead_of_gone (gone : s.homeBlocks h start = none ∨ reached stamp (h.expiryOf start) = true) :
    s.serveRead h q m start stamp = s.sendGone q m := by
  unfold State.serveRead
  split
  case h_1 b has =>
    have late := gone.resolve_left (by rw [has]; exact Option.some_ne_none b)
    exact State.answerRead_of_late late
  case h_2 => rfl

/-- R410: a read over a link in the bolt is served. -/
theorem execSegmentRead_of_message (taken : s.takeMessage q vcHist 0x30 = some (m, s')) (hist : s.pat.hist = some h)
    (inBolt : s'.inBoltOn q = true) :
    execSegmentRead q s = .next (s'.serveRead h q m (BitVec.ofNat 48 (uAt m.payload 0 6))
      (BitVec.ofNat 48 (uAt m.payload 6 6))).settle := by
  simp only [execSegmentRead, taken, hist]
  exact when_of_true inBolt

/-! ### Replies and notices -/

/-- R409: a reply for a segment that is not held, ahead of its expiry, is kept as that side's copy. -/
theorem execSegmentReply_of_message {side : Nat} (taken : s.takeMessage q vcHist 0x31 = some (m, s'))
    (hist : s.pat.hist = some h) (port : portSegs q = some side) (inBolt : s'.inBoltOn q = true) :
    let start : Pos := BitVec.ofNat 48 (uAt m.payload 0 6)
    reached s'.position (h.expiryOf start) = false → s'.segment side start = none →
      execSegmentReply q s = .next (s'.putSegment
        { start := start, side := side, sealed_ := true, expiry := h.expiryOf start
          stored := s'.encodeSegment h start ((sliceB m.payload 0x10 (uAt m.payload 0x0C 2)).map (·.toNat)) }) := by
  intro start early absent
  simp only [execSegmentReply, taken, hist, port]
  exact when_of_true (by rw [inBolt, early, absent]; rfl)

/-- R410: GONE for a segment that is not held marks that side's place absent. -/
theorem execGone_of_message {side : Nat} (taken : s.takeMessage q vcHist 0x32 = some (m, s'))
    (hist : s.pat.hist = some h) (port : portSegs q = some side) (inBolt : s'.inBoltOn q = true) :
    let start : Pos := BitVec.ofNat 48 (uAt m.payload 0 6)
    s'.segment side start = none → execGone q s = .next (s'.putSegment
      { start := start, side := side, absent := true, expiry := h.expiryOf start }) := by
  intro start absent
  simp only [execGone, taken, hist, port]
  exact when_of_true (by rw [inBolt, absent]; rfl)

/-- R410: a notice gives the copy of its side another expiry. -/
theorem execEvictionNotice_of_message {side : Nat} (taken : s.takeMessage q vcHist 0x33 = some (m, s'))
    (port : portSegs q = some side) (inBolt : s'.inBoltOn q = true) :
    execEvictionNotice q s = .next (s'.setSegs fun l => updFirst
      (fun x : Segment => x.side == side && x.start == (BitVec.ofNat 48 (uAt m.payload 0 6) : Pos))
      (fun x => { x with expiry := BitVec.ofNat 48 (uAt m.payload 6 6) }) l) := by
  simp only [execEvictionNotice, taken, port]
  exact when_of_true inBolt

/-! ### Relayed records -/

/-- R435: a record enters at the collector when it starts its source anew, or is newer than the last of its source. -/
def Events.takes (e : Events) (r : Record) : Bool :=
  (r.type == 8 && r.sub == 1) || match e.lastOf.find? (·.1 == r.source) with
    | some (_, n) => decide (0 < (r.seqNo - n).toInt)
    | none => true

theorem Events.takes_of_new {e : Events} {r : Record} (new : e.lastOf.find? (·.1 == r.source) = none ∨
    (r.type = 8 ∧ r.sub = 1) ∨
      ∃ a n, e.lastOf.find? (·.1 == r.source) = some (a, n) ∧ 0 < (r.seqNo - n).toInt) :
    e.takes r = true := by
  unfold Events.takes
  obtain first | ⟨type, sub⟩ | ⟨a, n, last, newer⟩ := new
  · rw [first, Bool.or_true]
  · rw [type, sub]
    rfl
  · rw [last]
    exact Bool.or_eq_true_iff.mpr (.inr (decide_eq_true newer))

theorem Events.takes_of_old {e : Events} {r : Record} {a : Addr} {n : BitVec 32}
    (last : e.lastOf.find? (·.1 == r.source) = some (a, n)) (old : (r.seqNo - n).toInt ≤ 0)
    (goesOn : ¬ (r.type = 8 ∧ r.sub = 1)) : e.takes r = false := by
  unfold Events.takes
  rw [last]
  exact Bool.or_eq_false_iff.mpr ⟨by simpa using goesOn, decide_eq_false (not_lt.mpr old)⟩

/-- R330, R435: at the collector, in the bolt, a relayed record enters with flag bit 2, or is counted as a duplicate. -/
theorem execEventRecord_of_message (taken : s.takeMessage q vcEvent 0x20 = some (m, s'))
    (collector : s'.role = 2 ∨ s'.role = 4) (inBolt : s'.inBolt = true) :
    let r := Record.ofBytes m.payload
    execEventRecord q s = .next (if s'.events.takes r then
        ({ s' with events := { s'.events with
          lastOf := (r.source, r.seqNo) :: s'.events.lastOf.filter (·.1 != r.source) } }.submit
            { r with flags := r.flags ||| 4#8 }).settle
      else { s' with faults := { s'.faults with duplicates := satAdd 32 s'.faults.duplicates 1 } }) := by
  intro r
  have role : (s'.role == 2 || s'.role == 4) = true := by simpa using collector
  simp only [execEventRecord, taken, role, inBolt, Bool.not_true, Bool.or_self, Bool.false_eq_true, if_false]
  exact (apply_ite Host.Outcome.next _ _ _).symm

end

/-- Settles O52: the answers to a read, what replies and notices change, and the records that enter, by their equations (R409,
R410, R435; log 87, 127). -/
theorem boltMessagesComplete : Obligations.BoltMessagesComplete := by
  unfold Obligations.BoltMessagesComplete
  intro q m h s s' hist inBolt start stamp
  refine ⟨fun taken => ?read, fun side port => ⟨fun taken => execSegmentReply_of_message taken hist port inBolt,
    fun taken => execGone_of_message taken hist port inBolt,
    fun taken => execEvictionNotice_of_message taken port inBolt⟩, fun taken collector inBolt => ?record⟩
  case read =>
    have answer := execSegmentRead_of_message taken hist inBolt
    refine ⟨fun x held sealed_ present sound early parity errors => ?_,
      fun b has early => ⟨fun b' served => ?_, fun struck => ?_⟩, fun gone => ?_⟩
    · have whole := State.readHome_of_sound held sound parity errors h x.stored
      rw [State.serveRead_of_has (State.homeBlocks_of_sealed held sealed_ present h),
        State.answerRead_of_served early (congrArg Prod.fst whole), whole] at answer
      exact answer
    · rw [State.serveRead_of_has has, State.answerRead_of_served early served] at answer
      exact answer
    · rw [State.serveRead_of_has has, State.answerRead_of_struck early struck] at answer
      exact answer
    · rw [State.serveRead_of_gone gone] at answer
      exact answer
  case record =>
    intro r
    have answer := execEventRecord_of_message taken collector inBolt
    refine ⟨fun new => answer.trans ?_, fun a n last old goesOn => answer.trans ?_⟩
    · exact congrArg Host.Outcome.next (if_pos (Events.takes_of_new new))
    · exact congrArg Host.Outcome.next (if_neg (Bool.eq_false_iff.mp (Events.takes_of_old last old goesOn)))

end Sys2Proof.Machine

/-! SUPPORT. Domains, VID, the regulator, the adaptive loop and the timebase: an equation per case of their commands. -/

namespace Sys2Proof.Machine

/-! ### Domains -/

section

variable {id : Nat} {s : State}

/-- R443: a domain that has held no on-vote for its hysteresis begins its entry. -/
theorem execHysteresisExpiry_of_passed {d : Domain} (found : s.power.domains.find? (·.id == id) = some d)
    (on : s.isOn id = true) (unvoted : s.votedOn id = false)
    (passed : hystPassed (s.voteEntry id).hyst d.unvoted s.time.wall = true) :
    execHysteresisExpiry id s = .next (s.beginEntry id).intakeVotes.settle :=
  when_of_true (by rw [found, Option.map_some, Option.getD_some, on, unvoted, passed]; rfl)

/-- R443, R447, R448, R470: an entry ends once a failed link's port has delivered what it received (log 138); a vote that
came meanwhile wakes the domain again. -/
theorem execLowStateEntryComplete_of_entering {r b : Bool} (entering : s.dom id = .entering r b)
    (delivered : ∀ q, seamOf id = some q → s.seams[q].link ≠ .up ∧ s.seams[q].inbox = []) :
    let k := r && !s.retainedNoMore id
    let w := ((s.updDom id fun d => { d with st := if k then .retention else .off, since := s.clock }).loseDomain id
      k).intakeVotes
    execLowStateEntryComplete id s = .next (if w.votedOn id then w.wakeDomain id else w).settle := by
  have ready : ((seamOf id).map fun q => s.seams[q].link != .up && s.seams[q].inbox.isEmpty).getD true = true := by
    cases port : seamOf id with
    | none => rfl
    | some q =>
      obtain ⟨down, empty⟩ := delivered q port
      rw [Option.map_some, Option.getD_some, bne_iff_ne.mpr down, empty]
      rfl
  unfold execLowStateEntryComplete
  rw [entering]
  exact when_of_true ready

/-- R450, R451: a waking domain that has what it waits for comes on. -/
theorem execDomainOn_of_waking {r : Bool} (waking : s.dom id = .waking r) (may : s.mayTurnOn id = true)
    (holds : ¬ (id = domHbm ∧ s.hbm.lost = true)) :
    execDomainOn id s = .next (s.reachOn id r).intakeVotes.settle := by
  unfold execDomainOn
  rw [waking]
  exact (when_of_true may).trans (congrArg Host.Outcome.next (if_neg holds))

/-- R272: HBM that has lost its contents begins its reload instead. -/
theorem execDomainOn_of_lost {r : Bool} (hbm : id = domHbm) (waking : s.dom id = .waking r)
    (may : s.mayTurnOn id = true) (lost : s.hbm.lost = true)
    (idle : s.power.votes.any (fun v => v.client == .reload) = false) :
    execDomainOn id s = .next s.beginReload.settle := by
  unfold execDomainOn
  rw [waking]
  refine (when_of_true may).trans (congrArg Host.Outcome.next ?_)
  exact (if_pos ⟨hbm, lost⟩).trans (if_neg (Bool.eq_false_iff.mp idle))

end

/-! ### The votes of the wakes -/

/-- R443: of the votes, withdrawing one changes only that one. -/
theorem State.dropVote_votes (s : State) (c : Client) (id : Nat) (retain : Bool) :
    (s.dropVote c id retain).power.votes =
      s.power.votes.filter (· != { client := c, domain := id, retain := retain }) := by
  have retained (t : State) : (t.dropRetained id).power.votes = t.power.votes := by
    unfold State.dropRetained
    split <;> rfl
  have hysteresis (t : State) : (t.startHysteresis id).power.votes = t.power.votes := by
    unfold State.startHysteresis
    split <;> rfl
  unfold State.dropVote
  dsimp only
  split
  case isTrue =>
    split
    · exact retained _
    · exact hysteresis _
  case isFalse absent =>
    refine (List.filter_eq_self.mpr fun v held => bne_iff_ne.mpr fun same => absent ?_).symm
    rw [← same]
    exact List.elem_eq_true_of_mem held

/-- Votes withdrawn one by one are gone, and no other comes. -/
theorem State.mem_foldl_dropVote_votes {v : Vote} (l : List Vote) (s : State)
    (held : v ∈ (l.foldl (fun s v => s.dropVote v.client v.domain v.retain) s).power.votes) :
    v ∈ s.power.votes ∧ v ∉ l := by
  induction l generalizing s with
  | nil => exact ⟨held, List.not_mem_nil⟩
  | cons a l ih =>
    obtain ⟨kept, other⟩ := ih _ held
    rw [State.dropVote_votes, List.mem_filter] at kept
    refine ⟨kept.1, fun mem => ?_⟩
    obtain same | later := List.mem_cons.mp mem
    · exact bne_iff_ne.mp kept.2 same
    · exact other later

/-- R449: after the votes of the wakes have ended, those left are for domains that are not on (log 49). -/
theorem State.endWakes_votes {s : State} {v : Vote} (held : v ∈ s.endWakes.power.votes) {n : Nat}
    (wake : v.client = .wake n) : s.isOn v.domain = false := by
  obtain ⟨before, kept⟩ := State.mem_foldl_dropVote_votes _ s held
  refine Bool.eq_false_iff.mpr fun on => kept (List.mem_filter.mpr ⟨before, ?_⟩)
  rw [wake]
  exact on

/-- Settles O53: the domains' commands by their equations, and which votes of the wakes are left (R443, R447, R448, R450, R451,
R470; log 49, 138). -/
theorem domainsComplete : Obligations.DomainsComplete := by
  unfold Obligations.DomainsComplete
  intro id s
  exact ⟨fun d => execHysteresisExpiry_of_passed, fun r b => execLowStateEntryComplete_of_entering,
    fun r => execDomainOn_of_waking, fun v held ⟨n, wake⟩ => State.endWakes_votes held wake,
    fun r => execDomainOn_of_lost⟩

/-! ### VID, the regulator and the adaptive loop -/

section

variable {s : State}

/-- R457: VID moves one code toward its target, a µs after its last step. -/
theorem execVidStep_of_apart (dev : s.adm.dev ≠ .inReset) (apart : s.pins.vid ≠ s.power.vidTarget)
    (spaced : s.power.vidSince + usPs ≤ s.clock) :
    execVidStep s = .next { s with
      pins := { s.pins with vid := if s.pins.vid < s.power.vidTarget then s.pins.vid + 1 else s.pins.vid - 1 }
      power := { s.power with vidSince := s.clock } } :=
  when_of_true (by rw [bne_iff_ne.mpr dev, bne_iff_ne.mpr apart, decide_eq_true spaced]; rfl)

/-- R457, R466: 10 µs after the last step the core clock follows, and with it a control sequencer that waits for it. -/
theorem execVidSettled_of_settled (locked : s.power.locked = true) (pending : s.power.clockPending = true)
    (reached : s.pins.vid = s.power.vidTarget) (passed : s.power.vidSince + 10 * usPs ≤ s.clock) :
    execVidSettled s = .next
      ({ s with power := { s.power with clockPending := false, coreMhz := s.clockGoal } } : State).joinPll.settle :=
  when_of_true (by rw [locked, pending, beq_iff_eq.mpr reached, decide_eq_true passed]; rfl)

/-- R462: the regulator is in normal mode 40 µs after the request. -/
theorem execRegulatorNormalMode_of_risen (rising : s.power.regulator = .rising)
    (risen : s.power.regSince + 40 * usPs ≤ s.clock) :
    execRegulatorNormalMode s = .next { s with power := { s.power with regulator := .normal } } :=
  when_of_true (by rw [rising, decide_eq_true risen]; rfl)

/-- R462: with the event domain low for a ms the regulator saves power. -/
theorem execRegulatorLowPower_of_low (normal : s.power.regulator = .normal)
    (low : s.dom domEvent = .off ∨ s.dom domEvent = .retention) (passed : s.power.regSince + msPs ≤ s.clock) :
    execRegulatorLowPower s = .next { s with power := { s.power with regulator := .low } } := by
  have isLow : (s.dom domEvent == .off || s.dom domEvent == .retention) = true := by simpa using low
  exact when_of_true (by rw [normal, isLow, decide_eq_true passed]; rfl)

/-- R458: the effect of a reading of the critical-path monitors, before what follows the command. -/
def State.avs (s : State) : Margin → State
  | .above =>
    if 100 ≤ s.power.avsAbove + 1 then
      { s with power := { s.power with trim := min 4 (s.power.trim + 1), avsAbove := 0, avsBelow := 0 } }
    else { s with power := { s.power with avsAbove := s.power.avsAbove + 1, avsBelow := 0 } }
  | .between => { s with power := { s.power with avsAbove := 0, avsBelow := 0 } }
  | .below =>
    if 0 < s.power.trim then
      { s with power := { s.power with trim := s.power.trim - 1, avsAbove := 0, avsBelow := 0 } }
    else if 10 ≤ s.power.avsBelow + 1 ∧ !s.power.avsNoted then
      { s with power := { s.power with
        avsAbove := 0, avsBelow := s.power.avsBelow + 1, avsNoted := true } }.statusPos 0x19 (levelVid s.power.level)
    else { s with power := { s.power with avsAbove := 0, avsBelow := s.power.avsBelow + 1 } }

theorem execAvsSample_of_running (run : s.running = true) (locked : s.power.locked = true) (m : Margin) :
    execAvsSample m s = .next (s.avs m).settle := by
  refine (when_of_true (by rw [run, locked]; rfl)).trans ?_
  cases m <;> rfl

end

/-- Settles O55: VID, the core clock and the regulator by their equations, and the cases of a reading as `State.avs` gives them
(R457, R458, R462, R466). -/
theorem voltageAndRegulatorComplete : Obligations.VoltageAndRegulatorComplete := by
  unfold Obligations.VoltageAndRegulatorComplete
  intro s
  refine ⟨fun dev spaced => ⟨fun below => ?below, fun above => ?above⟩, execVidSettled_of_settled,
    execRegulatorNormalMode_of_risen, execRegulatorLowPower_of_low, fun run locked => ?avs⟩
  case below =>
    exact (execVidStep_of_apart dev (BitVec.ne_of_lt below) spaced).trans (by rw [if_pos below])
  case above =>
    exact (execVidStep_of_apart dev (BitVec.ne_of_lt above).symm spaced).trans (by rw [if_neg (by bv_omega)])
  case avs =>
    have answer := execAvsSample_of_running run locked
    refine ⟨fun few => (answer .above).trans ?_, fun many => (answer .above).trans ?_, answer .between,
      fun trimmed => (answer .below).trans ?_, fun untrimmed quiet => (answer .below).trans ?_,
      fun untrimmed many first => (answer .below).trans ?_⟩
    · rw [State.avs, if_neg (not_le.mpr few)]
    · rw [State.avs, if_pos many]
    · rw [State.avs, if_pos trimmed]
    · have noRecord : ¬ (10 ≤ s.power.avsBelow + 1 ∧ (!s.power.avsNoted) = true) := by
        rintro ⟨many, first⟩
        obtain few | noted := quiet
        · exact absurd many (not_le.mpr few)
        · rw [noted] at first
          exact Bool.false_ne_true first
      rw [State.avs, if_neg (by rw [untrimmed]; exact lt_irrefl 0), if_neg noRecord]
    · rw [State.avs, if_neg (by rw [untrimmed]; exact lt_irrefl 0), if_pos ⟨many, by rw [first]; rfl⟩]

/-! ### The timebase -/

section

variable {s : State}

/-- R463: the timebase on the RC oscillator, with the cycles that verify XT32 counted anew. -/
def State.leaveXt32 (s : State) : State :=
  { s with
    time := { s.time with xtFrom := s.clock, xt32 := false, verified := false }
    wake := { s.wake with coarse := s.wake.coarse || !s.isOn domControl } }

theorem execXt32Fail_of_xt32 (xt : s.time.xt32 = true) :
    execXt32Fail s = .next (if s.time.verified then s.leaveXt32.statusPos 0x1A 0 else s.leaveXt32).settle := by
  unfold execXt32Fail
  exact when_of_true (s := { s with time := { s.time with xtFrom := s.clock } }) xt

/-- R463: a failure while the RC oscillator runs only starts the count again. -/
theorem execXt32Fail_of_rc (rc : s.time.xt32 = false) :
    execXt32Fail s = .next { s with time := { s.time with xtFrom := s.clock } } := by
  unfold execXt32Fail
  exact when_of_false (s := { s with time := { s.time with xtFrom := s.clock } }) rc

/-- R463: after a second without a failure the timebase is back on XT32. -/
theorem execXt32Verified_of_passed (coarse : s.time.verified = false) (passed : s.time.xtFrom + xt32Ps ≤ s.clock) :
    execXt32Verified s =
      .next (({ s with time := { s.time with xt32 := true, verified := true } } : State).statusPos 0x1B 0).settle :=
  when_of_true (by rw [coarse, decide_eq_true passed]; rfl)

theorem execXt32Verified_of_early (early : s.clock < s.time.xtFrom + xt32Ps) : execXt32Verified s = .next s :=
  when_of_false (by rw [decide_eq_false (not_le.mpr early), Bool.and_false])

/-- R463: what the timebase's changes bring with them leaves the wall timebase. -/
theorem State.wall_settle_statusPos (s : State) (cause : Nat) :
    (s.statusPos cause 0).settle.time.wall = s.time.wall := by
  rw [State.settle_time, (State.statusPos_quiet ..).time]

end

/-- Settles O57: the timebase's two changes by their equations, with the wall timebase as it was (R463). -/
theorem timebaseCompletes : Obligations.TimebaseCompletes := by
  unfold Obligations.TimebaseCompletes
  intro s
  refine ⟨?fail, execXt32Fail_of_rc, fun coarse passed => ⟨_, execXt32Verified_of_passed coarse passed,
    State.wall_settle_statusPos _ _, rfl⟩, execXt32Verified_of_early⟩
  intro xt w
  refine ⟨_, execXt32Fail_of_xt32 xt, ?_, fun verified => ?_, fun coarse => ?_⟩
  · split
    · exact State.wall_settle_statusPos _ _
    · rw [State.settle_time]
      rfl
  · rw [if_pos verified]
    rfl
  · rw [if_neg (Bool.eq_false_iff.mp coarse)]
    rfl

end Sys2Proof.Machine

/-! SUPPORT. The hold-up supervisor: what a sample leaves, what the cutoff leaves, and an equation per case of its commands. -/

namespace Sys2Proof.Machine

/-! ### A sample -/

section

variable (h : HoldUp) (mv : Nat) (good : Bool) (dq : Int) (ua clock : Nat)

/-- R476: learning K changes K and the charge that runs. -/
theorem HoldUp.learn_same :
    h.learn mv good dq = { h with k := (h.learn mv good dq).k, charge := (h.learn mv good dq).charge } := by
  unfold HoldUp.learn
  split
  · dsimp only
    split <;> rfl
  · rfl

/-- R473, R475, R488, R489: what a sample sets, K, the charge and the window aside. -/
theorem HoldUp.sample_same :
    let r := h.sample mv good dq ua clock
    r = { h with
      k := r.k, charge := r.charge, goodSince := r.goodSince, seen := true, mv := mv, inputGood := good
      meanUa := min ua (10 ^ 7)
      highSince := if good = true ∧ 900 ≤ mv then some (h.highSince.getD clock) else none
      winMv := r.winMv, winQ := r.winQ, winLow := r.winLow, winFrom := r.winFrom
      low := if mv < 500 then h.low + 1 else 0 } := by
  intro r
  have high : (good && decide (900 ≤ mv)) = decide (good = true ∧ 900 ≤ mv) := by
    rw [Bool.decide_and, Bool.decide_eq_true]
  simp only [r, HoldUp.sample, high, decide_eq_true_eq]
  rw [HoldUp.learn_same]
  split <;> rfl

theorem HoldUp.sample_st : (h.sample mv good dq ua clock).st = h.st := by rw [HoldUp.sample_same]

theorem HoldUp.sample_sram : (h.sample mv good dq ua clock).sram = h.sram := by rw [HoldUp.sample_same]

theorem HoldUp.sample_low : (h.sample mv good dq ua clock).low = if mv < 500 then h.low + 1 else 0 := by
  rw [HoldUp.sample_same]

end

/-! ### The cutoff -/

theorem Quiet.hold {s t : State} (h : Quiet s t) : t.hold = s.hold := by rw [h.same]

theorem Quiet.flash {s t : State} (h : Quiet s t) : t.flash = s.flash := by rw [h.same]

/-- R489: the cutoff counts itself in the thimble SRAM, among what else it leaves in the supervisor. -/
theorem State.cutOff_hold (s : State) :
    s.cutOff.hold = { s.hold with
      st := .flushed, step := 0, began := false, completed := false
      sram := (s.hold.sram.1, s.hold.sram.2.1, s.hold.sram.2.2 + 1) } := by
  have kept : (s.cutOp.dropVotes .polling [domFlash] false).hold = s.hold :=
    (State.dropVotes_quiet ..).hold.trans s.cutOp_cutShort.hold
  rw [← kept]
  rfl

/-! ### The supervisor's commands -/

section

variable {s : State} {mv vin ua : Nat} {dq : Int}

/-- R473: the supervisor as a sample leaves it. -/
def State.sampledHold (s : State) (mv vin : Nat) (dq : Int) (ua : Nat) : HoldUp :=
  s.hold.sample (adcMv mv) (s.hold.inputNow vin) (s.hold.counted dq) ua s.clock

/-- R473: before a flush a sample is only taken. -/
theorem execHoldVSample_of_calm (dev : s.adm.dev ≠ .inReset) (bank : s.hold.st ≠ .absentByStrap)
    (calm : s.hold.st ≠ .flushing) :
    execHoldVSample mv vin dq ua s = .next { s with hold := s.sampledHold mv vin dq ua } := by
  have still : ((s.sampledHold mv vin dq ua).st == .flushing) = false := by
    rw [State.sampledHold, HoldUp.sample_st]
    exact beq_false_of_ne calm
  refine (when_of_true (by rw [bne_iff_ne.mpr dev, bne_iff_ne.mpr bank]; rfl)).trans (congrArg Host.Outcome.next ?_)
  exact if_neg (Bool.eq_false_iff.mp still)

/-- R489: in a flush the second sample below 500 mV in a row cuts it off, and any other lets it go on. -/
theorem execHoldVSample_of_flushing (dev : s.adm.dev ≠ .inReset) (flushing : s.hold.st = .flushing) :
    let w : State := { s with hold := s.sampledHold mv vin dq ua }
    execHoldVSample mv vin dq ua s = .next (if 2 ≤ w.hold.low then w.cutOff else w.flushAdvance).settle := by
  intro w
  have still : ((s.sampledHold mv vin dq ua).st == .flushing) = true := by
    rw [State.sampledHold, HoldUp.sample_st, flushing]
    rfl
  refine (when_of_true (by rw [bne_iff_ne.mpr dev, flushing]; rfl)).trans (congrArg Host.Outcome.next ?_)
  exact if_pos still

/-- R473: the count of a sample during a flush. -/
theorem HoldUp.counted_of_flushing {h : HoldUp} (flushing : h.st = .flushing) (dq : Int) :
    h.counted dq = clampInt (-100) 100 dq := by
  rw [HoldUp.counted, if_pos flushing]

/-- R475: HOLD_V high for 50 ms while a pattern runs arms the supervisor. -/
theorem execHoldupArm_of_charged {t : Nat} (run : s.running = true) (unready : s.hold.st = .notReady)
    (since : s.hold.highSince = some t) (passed : t + 50 * msPs ≤ s.clock) :
    execHoldupArm s = .next { s with hold := { s.hold with st := .armed }.openWindow s.clock } :=
  when_of_true (by rw [run, unready, since, Option.map_some, Option.getD_some, decide_eq_true passed]; rfl)

/-- R476, R478: the end of a window. -/
theorem execHoldupWindow_of_passed (dev : s.adm.dev ≠ .inReset) (seen : s.hold.seen = true)
    (passed : s.hold.winFrom + 50 * msPs ≤ s.clock) :
    execHoldupWindow s = .next (
      if (s.hold.st == .armed && s.hold.inputGood && (s.hold.removed.1 || s.hold.removed.2)) = true then
        ({ s with hold := { s.hold.refine.openWindow s.clock with
          st := .absent, removal := BitVec.ofNat 2 (bit s.hold.removed.1 + 2 * bit s.hold.removed.2) } } : State).bump 16 1
      else { s with hold := s.hold.refine.openWindow s.clock }) :=
  (when_of_true (by rw [bne_iff_ne.mpr dev, seen, decide_eq_true passed]; rfl)).trans rfl

theorem execPowerFail_of_armed (armed : s.hold.st = .armed) : execPowerFail s = .next s.startFlush.settle :=
  when_of_true (beq_iff_eq.mpr armed)

theorem execFlushStepTimeout_of_flushing (flushing : s.hold.st = .flushing) :
    execFlushStepTimeout s = .next s.flushAdvance.settle :=
  when_of_true (beq_iff_eq.mpr flushing)

/-- R490: the input good for 10 ms ends a flush that has no item in progress; the detail tells whether it completed (log 70). -/
theorem execInputRestored_of_back (flush : s.hold.st = .flushing ∨ s.hold.st = .flushed) (good : s.hold.inputGood = true)
    (idle : s.flash.run = none) (passed : s.hold.goodSince + 10 * msPs ≤ s.clock) :
    execInputRestored s = .next (s.resetOutside 0x15 (if s.hold.completed then 1 else 2)) := by
  have ends : (s.hold.st == .flushing || s.hold.st == .flushed) = true := by simpa using flush
  have back : s.inputBack = true := by rw [State.inputBack, good, decide_eq_true passed]; rfl
  exact when_of_true (by rw [ends, back, idle]; rfl)

end

/-- Settles O58: a sample as `State.sampledHold` leaves it, the cutoff by `State.cutOff_hold`, and the other commands by their
equations (R473, R475 to R478, R487 to R490; log 54, 70, 72). -/
theorem holdUpCompletes : Obligations.HoldUpCompletes := by
  unfold Obligations.HoldUpCompletes
  intro s
  refine ⟨?sample, fun t => execHoldupArm_of_charged, ?window, execPowerFail_of_armed, execFlushStepTimeout_of_flushing,
    execInputRestored_of_back⟩
  case sample =>
    intro mv vin dq ua dev bank m good
    have counts : (s.sampledHold mv vin dq ua).low = if m < 500 then s.hold.low + 1 else 0 := HoldUp.sample_low ..
    refine ⟨fun calm => ?calm, fun flushing => ⟨fun below again => ?cutoff, fun goesOn => ?goesOn⟩⟩
    case calm =>
      refine ⟨_, execHoldVSample_of_calm dev bank calm, rfl, ?_⟩
      dsimp only
      rw [State.sampledHold, HoldUp.sample_same]
      exact ⟨rfl, rfl, rfl, rfl, rfl⟩
    case cutoff =>
      have second : 2 ≤ (s.sampledHold mv vin dq ua).low := by
        rw [counts, if_pos below]
        omega
      refine ⟨_, (execHoldVSample_of_flushing dev flushing).trans (by rw [if_pos second]), ?_⟩
      rw [State.settle_adm, State.settle_markers, (State.settle_quiet _).hold, (State.settle_quiet _).flash,
        State.cutOff_hold]
      refine ⟨rfl, rfl, rfl, rfl, rfl, rfl, rfl, ?_⟩
      dsimp only
      rw [State.sampledHold, HoldUp.sample_sram]
    case goesOn =>
      have first : ¬ 2 ≤ (s.sampledHold mv vin dq ua).low := by
        rw [counts]
        split <;> omega
      refine (execHoldVSample_of_flushing dev flushing).trans ?_
      rw [if_neg first, State.sampledHold, HoldUp.counted_of_flushing flushing]
      rfl
  case window =>
    intro dev seen passed h
    refine ⟨fun stays => ?stays, fun rise low armed good removed found => ?found⟩
    case stays =>
      have unfit : ¬ (s.hold.st == .armed && s.hold.inputGood && (s.hold.removed.1 || s.hold.removed.2)) = true := by
        rintro fit
        simp only [Bool.and_eq_true, beq_iff_eq] at fit
        obtain ⟨⟨armed, good⟩, found⟩ := fit
        obtain other | bad | none := stays
        · exact other armed
        · exact absurd good (Bool.eq_false_iff.mp bad)
        · rw [none] at found
          exact absurd found (by decide)
      exact (execHoldupWindow_of_passed dev seen passed).trans (congrArg Host.Outcome.next (if_neg unfit))
    case found =>
      refine (execHoldupWindow_of_passed dev seen passed).trans (congrArg Host.Outcome.next ?_)
      rw [armed, good, removed]
      exact if_pos found

end Sys2Proof.Machine
